-- ==== Sys2Proof/Word.lean ====
section
/-! DEFINITION. The byte, the wire's only word, and the plain reading and writing of numbers in bytes
(chapter 11: numbers wider than one byte are stored with the most significant byte first). -/

namespace Sys2Proof

/-- One byte of the wire or of the configuration memory. -/
abbrev Byte := BitVec 8

/-- The byte that stores a number below 256. -/
def byte (n : Nat) : Byte := BitVec.ofNat 8 n

/-- A two-byte number, most significant byte first. -/
def be16 (hi lo : Byte) : Nat := hi.toNat * 256 + lo.toNat

/-- The two bytes that store a number below 65536. -/
def bytes16 (n : Nat) : List Byte := [byte (n / 256), byte (n % 256)]

/-- The four bytes that store a number below 4294967296. -/
def bytes32 (n : Nat) : List Byte :=
  [byte (n / 16777216), byte (n / 65536 % 256), byte (n / 256 % 256), byte (n % 256)]

/-- A flag takes one byte, 0 for clear and 1 for set (section 11.2). -/
def flagByte (b : Bool) : Byte := if b then 1 else 0

end Sys2Proof
end

