-- ==== Sys2Proof/Syntax.lean ====
section
/-! DEFINITION. The commands the KT-614 takes, one constructor per row of spec/opcode_table.json: what a sender outside
the part, or one of the part's own timers, can bring about in one whole and indivisible step. -/

namespace Sys2Proof

/-- The two coordination bus ports (section 1.1). -/
inductive BusPort where
  | a | b
  deriving DecidableEq, Repr

/-- The three bands (section 6 of the introduction). -/
inductive Band where
  | a | b | c
  deriving DecidableEq, Repr

/-- A span: a band with a low and a high channel index. -/
structure Span where
  band : Band
  low  : Nat
  high : Nat
  deriving DecidableEq, Repr

/-- The bulletin kinds of section 11.1. -/
inductive Kind where
  | presence | planClaim | planHold | planYield | sighting | tallyState
  | lineJoin | lineLeave | talk | followTalk
  | callRing | callAnswer | callEnd | callKeep
  | task | taskReply | capture
  deriving DecidableEq, Repr

/-- The tasks of section 10.1. -/
inductive TaskCode where
  | readStation | readLink | readPlan | readTally | readLine | readCounters | setCounter | setClass
  | pinLink | unpinLink | moveLink | setMembership | armCapture | readCapture | restart | setSample
  deriving DecidableEq, Repr

/-- A bulletin as it arrives, less its kind: the header bytes 1 to 3 as received and the body. Its length field is the
body's length; its kind is the command's row. -/
structure Rx where
  origin  : Byte
  target  : Byte
  hopPrio : Byte
  body    : List Byte
  deriving DecidableEq, Repr

/-- A TASK bulletin as it arrives, less its task code, which is the command's row. -/
structure TaskRx where
  origin  : Byte
  target  : Byte
  hopPrio : Byte
  tag     : Byte
  params  : List Byte
  deriving DecidableEq, Repr

/-- One command: a row of spec/opcode_table.json with its operands. -/
inductive Instr where
  /-- HARD_RESET (R24): power-on, or assertion of the reset input. -/
  | hardReset
  /-- RESET_RELEASE (R24): the reset input is released, or the supply is stable at power-on. -/
  | resetRelease
  /-- CONFIGURATION_READ (R26): the read completes; `memory` is what the configuration memory gives from its first byte. -/
  | configurationRead (memory : List Byte)
  /-- SEND_ATTEMPT_START (R2): the port's wire has been quiet for the minimum gap. -/
  | sendAttemptStart (p : BusPort)
  /-- RECEPTION_START (R4): the first bit of another station's bulletin. -/
  | receptionStart (p : BusPort)
  /-- TRANSMISSION_SUCCESS (R2): every bit read back correctly to the end. -/
  | transmissionSuccess (p : BusPort)
  /-- COLLISION (R3): a driven bit is read back wrong. -/
  | collision (p : BusPort)
  /-- BACKOFF_EXPIRY (R3). -/
  | backoffExpiry (p : BusPort)
  /-- RECEPTION_END (R5): a reception ends with this run of bytes. -/
  | receptionEnd (p : BusPort) (run : List Byte)
  | presence (p : BusPort) (rx : Rx)
  | planClaim (p : BusPort) (rx : Rx)
  | planHold (p : BusPort) (rx : Rx)
  | planYield (p : BusPort) (rx : Rx)
  | sighting (p : BusPort) (rx : Rx)
  | tallyState (p : BusPort) (rx : Rx)
  | lineJoin (p : BusPort) (rx : Rx)
  | lineLeave (p : BusPort) (rx : Rx)
  | talk (p : BusPort) (rx : Rx)
  | followTalk (p : BusPort) (rx : Rx)
  | callRing (p : BusPort) (rx : Rx)
  | callAnswer (p : BusPort) (rx : Rx)
  | callEnd (p : BusPort) (rx : Rx)
  | callKeep (p : BusPort) (rx : Rx)
  | taskReply (p : BusPort) (rx : Rx)
  | capture (p : BusPort) (rx : Rx)
  | readStation (p : BusPort) (t : TaskRx)
  | readLink (p : BusPort) (t : TaskRx)
  | readPlan (p : BusPort) (t : TaskRx)
  | readTally (p : BusPort) (t : TaskRx)
  | readLine (p : BusPort) (t : TaskRx)
  | readCounters (p : BusPort) (t : TaskRx)
  | setCounter (p : BusPort) (t : TaskRx)
  | setClass (p : BusPort) (t : TaskRx)
  | pinLink (p : BusPort) (t : TaskRx)
  | unpinLink (p : BusPort) (t : TaskRx)
  | moveLink (p : BusPort) (t : TaskRx)
  | setMembership (p : BusPort) (t : TaskRx)
  | armCapture (p : BusPort) (t : TaskRx)
  | readCapture (p : BusPort) (t : TaskRx)
  | restart (p : BusPort) (t : TaskRx)
  | setSample (p : BusPort) (t : TaskRx)
  /-- UNKNOWN_TASK (R178): a TASK whose code is not assigned, or whose body is too short to hold a tag and a code. -/
  | unknownTask (p : BusPort) (rx : Rx)
  | originAgeExpiry (station : Fin 127)
  | presenceTimerExpiry
  | rosterExpiry (station : Fin 127)
  | joinTimerExpiry
  | leaveTimerExpiry
  /-- PEER_ENTRY_EXPIRY (R43): `peer` counts peer slots from 0, so it names plan slot 16 + `peer`. -/
  | peerEntryExpiry (peer : Fin 96)
  | overfullTimerExpiry
  /-- QUARANTINE_EXPIRY (R54): the list never holds two entries with one span, so the span names the entry. -/
  | quarantineExpiry (span : Span)
  | claimRetryWaitExpiry (slot : Fin 16)
  | claimWindowExpiry (slot : Fin 16)
  | tentativeAllowanceExpiry (slot : Fin 16)
  | claimRefreshExpiry (slot : Fin 16)
  | defendHoldOffExpiry (slot : Fin 16)
  | holdRefreshExpiry (slot : Fin 16)
  | yieldingAllowanceExpiry (slot : Fin 16)
  /-- COMMAND_FRAME_SENT (R85). -/
  | commandFrameSent
  /-- TUNE_OUTCOME (R88): a tune outcome frame; `ok` is TUNED_OK. -/
  | tuneOutcome (addr : Fin 8) (number : Byte) (ok : Bool)
  | tuneTimerExpiry (addr : Fin 8)
  /-- REPORT (R92): lock flag, quality, key bits (bit k held) and status (`fault` is FAULT). -/
  | report (addr : Fin 8) (lock : Bool) (quality : Fin 16) (keys : BitVec 4) (fault : Bool)
  | sampleTimerExpiry (link : Fin 8)
  | relocationHoldOffExpiry (link : Fin 8)
  /-- COPY_FILTER_EXPIRY (R110): the entry of the band's filter that expires, by its four fields. -/
  | copyFilterExpiry (origin : Nat) (span : Span) (severity : Nat)
  | sightingHoldOffExpiry (link : Fin 8)
  | acquireRetryExpiry (link : Fin 8)
  /-- STALE_TIMER_EXPIRY (R138): `layer` counts from 0, so it names layer `layer` + 1. -/
  | staleTimerExpiry (layer : Fin 8)
  | unsetTimerExpiry (layer : Fin 8)
  /-- CONTACT_LEVEL_CHANGE (R141): the line's new level; `closed` is active. -/
  | contactLevelChange (line : Fin 32) (closed : Bool)
  | contactDebounceExpiry (line : Fin 32)
  | sourceRefreshExpiry (layer : Fin 8)
  /-- KEY_LEVEL_CHANGE (R156): the line's new level; `closed` is held. -/
  | keyLevelChange (line : Fin 16) (closed : Bool)
  | keyDebounceExpiry (line : Fin 16)
  | talkerEntryExpiry (line : Fin 16) (station port : Nat)
  | talkRefreshExpiry (port : Fin 12)
  | followRefreshExpiry (port : Fin 12)
  | followEntryExpiry (origin port : Nat)
  /-- CIRCUIT_EXPIRY (R167): `circuit` counts from 0, so it names circuit 17 + `circuit`. -/
  | circuitExpiry (circuit : Fin 15)
  | ringTimerExpiry (slot : Fin 4)
  | keepTimerExpiry (slot : Fin 4)
  | callExpiry (slot : Fin 4)
  | indicationTimerExpiry (port : Fin 12)
  /-- CROSSPOINT_UPDATE_SENT (R176). -/
  | crosspointUpdateSent
  | recentTaskExpiry (origin tag code : Nat)
  | taskTimerExpiry
  deriving DecidableEq, Repr

end Sys2Proof
end

