-- ==== Sys2Proof/Config.lean ====
section
/-! DEFINITION. The configuration image by its named fields (section 11.3), and the one free value of the model. -/

namespace Sys2Proof

/-- The kinds of a local link (R97). -/
inductive LinkKind where
  | camera | mic | talkback
  deriving DecidableEq, Repr

/-- The functions of a key line or beltpack key (R156). Layers count from 0: `follow k` names layer k + 1. -/
inductive KeyFn where
  | unmapped
  | talk (line : Fin 16)
  | call (station : Nat) (port : Nat)
  | follow (layer : Fin 8)
  | answerClear
  deriving DecidableEq, Repr

/-- A port's answer to an incoming ring (R155). -/
inductive AnswerMode where
  | manual | auto | reject
  deriving DecidableEq, Repr

/-- Lamp colours (R154). -/
inductive Colour where
  | off | red | green | amber
  deriving DecidableEq, Repr

/-- One link descriptor of the links section. Times are in the image's own units: ms for the sample interval, s for the
relocation hold-off. -/
structure LinkDesc where
  kind       : LinkKind
  band       : Band
  width      : Nat
  step       : Nat
  winLow     : Nat
  winHigh    : Nat
  prefLow    : Nat
  cls        : Nat
  frontEnd   : Fin 8
  badThreshold : Nat
  sampleMs   : Nat
  lossSamples : Nat
  fadeRun    : Nat
  holdOffS   : Nat
  keys       : Vector KeyFn 4
  returnLines : BitVec 16
  deriving DecidableEq, Repr

/-- One membership of a talkback port: a line with its listen and talk-right flags (R155). -/
structure Membership where
  line   : Fin 16
  listen : Bool
  talk   : Bool
  deriving DecidableEq, Repr

/-- One record of the ports section. -/
structure PortCfg where
  answer    : AnswerMode
  talkClass : Nat
  callLamp  : Option (Fin 16)
  members   : List Membership
  deriving DecidableEq, Repr

/-- What a contact line is mapped to: a source layer (from 0), an input and a bus (section 8.2). -/
structure ContactCfg where
  layer   : Fin 8
  input   : Nat
  program : Bool
  deriving DecidableEq, Repr

/-- One key line's mapping: a panel port and a function. -/
structure KeyCfg where
  port : Fin 12
  fn   : KeyFn
  deriving DecidableEq, Repr

/-- One rule of the tally map, less its hit flag (R146). -/
structure MapRule where
  layerValue : BitVec 4
  layerMask  : BitVec 4
  inputLow   : Nat
  inputHigh  : Nat
  onPreview  : Bool
  onProgram  : Bool
  lamp       : Option (Fin 16)
  programColour : Colour
  previewColour : Colour
  link       : Option (Fin 8)
  onAir      : Bool
  linkLamp   : Bool
  follow     : Bool
  deriving DecidableEq, Repr

/-- The initial mask and mode of one counter. -/
structure CounterCfg where
  mask  : BitVec 16
  bytes : Bool
  deriving DecidableEq, Repr

/-- A configuration image that has passed the four tests of R193, by its named fields. -/
structure Image where
  station    : Nat
  serial     : Nat
  joinListenS : Nat
  hold       : Nat
  portA      : Bool
  portB      : Bool
  bridgeFlag : Bool
  hops       : Nat
  guard      : Vector Nat 3
  tolerance  : Vector (Option Nat) 3
  quarThreshold : Nat
  quarTimeS  : Nat
  links      : Vector (Option LinkDesc) 8
  ports      : Vector PortCfg 12
  caps       : Vector Nat 16
  callLamps  : BitVec 16
  contactDebounceMs : Nat
  refreshUnits : Nat
  staleHoldS : Nat
  sourceCounts : Vector (Option Nat) 8
  contacts   : Vector (Option ContactCfg) 32
  keyDebounceMs : Nat
  keys       : Vector KeyCfg 16
  rules      : Vector MapRule 32
  counters   : Vector CounterCfg 8
  deriving DecidableEq, Repr

/-- A tally map rule not in use: layer value 0 with mask 15 (R146). -/
def MapRule.unused : MapRule :=
  { layerValue := 0, layerMask := 15, inputLow := 1, inputHigh := 1, onPreview := false, onProgram := false,
    lamp := none, programColour := .red, previewColour := .red, link := none, onAir := false, linkLamp := false,
    follow := false }

/-- The image a station has before it has read one: station number 0, which is no station, and nothing configured.
No rule reads it: every block is idle until an image has been taken (R29). -/
def Image.blank : Image :=
  { station := 0, serial := 0, joinListenS := 1, hold := 5, portA := false, portB := false, bridgeFlag := false,
    hops := 1, guard := Vector.replicate 3 0, tolerance := Vector.replicate 3 none, quarThreshold := 1, quarTimeS := 10,
    links := Vector.replicate 8 none,
    ports := Vector.replicate 12 { answer := .manual, talkClass := 0, callLamp := none, members := [] },
    caps := Vector.replicate 16 1, callLamps := 0, contactDebounceMs := 1, refreshUnits := 2, staleHoldS := 5,
    sourceCounts := Vector.replicate 8 none, contacts := Vector.replicate 32 none, keyDebounceMs := 1,
    keys := Vector.replicate 16 { port := 0, fn := .unmapped }, rules := Vector.replicate 32 MapRule.unused,
    counters := Vector.replicate 8 { mask := 0, bytes := false } }

/-- FREE VALUE (log 3): where in its period the common flashing rhythm stands at clock 0, in microseconds. Section 8.4
says the flashing lines run in step and gives the periods, not the phase. -/
opaque Config.flashPhase : Nat

end Sys2Proof
end

