-- ==== Sys2Proof/Machine/State.lean ====
section
/-! DEFINITION. Everything the spec gives the KT-614 to hold, block by block, as plain data; the state after a hard
reset; and the (empty) list of ways a command can stop the model. Times are moments on a microsecond clock (log 1). -/

namespace Sys2Proof.Machine

/-- Reasons a command stops with a fault: none. Every rule that meets trouble leads to a next state (a discard, the
phase HALTED, the phase SILENT), so no meaning raises one. -/
inductive Fault : Type
  deriving DecidableEq, Repr

/-- Reasons a command is refused by the model. -/
inductive Refusal where
  /-- Raised by a row of the table that has no meaning yet; safe. No row of this model is left so. -/
  | notModelled (mnemonic : String)
  deriving DecidableEq, Repr

/-- A timer: the moment of its expiry while it runs, nothing while it is stopped. -/
abbrev Timer := Option Nat

/-! ## BIU -/

/-- The station phases (section 2). -/
inductive Phase where
  | loading | halted | joining | active | leaving | silent
  deriving DecidableEq, Repr

/-- The seven blocks (section 3 of the introduction). -/
inductive Block where
  | biu | plan | rport | lsup | tally | tbk | mgmt
  deriving DecidableEq, Repr

/-- A whole bulletin less its length and check bytes, which its body determines (section 11.1). -/
structure Bulletin where
  kind    : Byte
  origin  : Byte
  target  : Byte
  hopPrio : Byte
  body    : List Byte
  deriving DecidableEq, Repr

/-- Subject keys (section 1.3). TASK_REPLY and CAPTURE have a key that matches no other, which is no key here. -/
inductive SubjectKey where
  | presence
  | plan (kind : Kind) (link : Fin 8) (span : Span)
  | sighting (span : Span)
  | tally (layer : Fin 8)
  | linePort (kind : Kind) (line : Fin 16) (port : Fin 12)
  | follow (port : Fin 12)
  | call (kind : Kind) (slot : Nat)
  deriving DecidableEq, Repr

/-- What the originating block needs to know its bulletin again when the report on it comes. -/
inductive Ticket where
  | none
  /-- A PLAN_CLAIM for the own entry of this link and span (R66, R67). -/
  | claim (link : Fin 8) (span : Span)
  /-- A SIGHTING of this link announcing this state for this span (R113); `bad` is BAD. -/
  | sighting (link : Fin 8) (span : Span) (bad : Bool)
  /-- A CAPTURE made by this rule (R189). -/
  | capture (rule : Fin 4)
  deriving DecidableEq, Repr

/-- A set of bus ports. -/
structure PortSet where
  a : Bool
  b : Bool
  deriving DecidableEq, Repr

/-- An entry of the transmit queue (section 1.3). Its age is also its name: no two entries ever share one. -/
structure QueueEntry where
  bulletin  : Bulletin
  version   : Nat
  urgent    : Bool
  key       : Option SubjectKey
  age       : Nat
  block     : Block
  ticket    : Ticket
  pending   : PortSet
  sent      : PortSet
  attemptsA : Nat
  attemptsB : Nat
  deriving DecidableEq, Repr

/-- Where the bulletin on a port's wire was copied from (R12). -/
inductive TxSource where
  | own (age version : Nat)
  | forward
  deriving DecidableEq, Repr

/-- A transmission in progress: the copy made at the start of the attempt, with the attempt count it had then. -/
structure Tx where
  source   : TxSource
  bulletin : Bulletin
  attempts : Nat
  deriving DecidableEq, Repr

/-- Port states (R1). In BACKOFF a reception may be under way (R4). -/
inductive PortState where
  | idle
  | receiving
  | sending (tx : Tx)
  | backoff (slots : Nat) (expiry : Nat) (receiving : Bool)
  deriving DecidableEq, Repr

/-- An entry of a forward queue (R15). -/
structure FwdEntry where
  bulletin : Bulletin
  attempts : Nat
  deriving DecidableEq, Repr

/-- A learned entry of the origin table (R13). -/
structure Origin where
  port   : BusPort
  expiry : Nat
  deriving DecidableEq, Repr

/-- A roster entry (R18). -/
structure RosterEntry where
  serial : Nat
  expiry : Nat
  deriving DecidableEq, Repr

structure Biu where
  portA   : PortState
  portB   : PortState
  queue   : List QueueEntry
  nextAge : Nat
  fwdA    : List FwdEntry
  fwdB    : List FwdEntry
  origins : Vector (Option Origin) 127
  roster  : Vector (Option RosterEntry) 127
  presenceTimer : Timer
  joinTimer     : Timer
  leaveTimer    : Timer
  /-- The offers of the entry into LEAVING are being made (log 13); clear between events. -/
  leaveOffers   : Bool
  deriving DecidableEq, Repr

/-! ## PLAN -/

inductive Standing where
  | tentative | held | yielding
  deriving DecidableEq, Repr

/-- An own entry (section 4.1); holder and slot are implied. The hold interval is in units of 100 ms. -/
structure OwnEntry where
  span     : Span
  link     : Fin 8
  cls      : Nat
  standing : Standing
  hold     : Nat
  sent     : Bool
  failures : Nat
  window   : Timer
  pendingYield : List (Nat × Nat)
  allowance : Timer
  refresh  : Timer
  defend   : Timer
  owed     : Bool
  deriving DecidableEq, Repr

/-- A peer entry (section 3.2): HELD when `held`, TENTATIVE otherwise. -/
structure PeerEntry where
  span   : Span
  holder : Nat
  link   : Nat
  cls    : Nat
  held   : Bool
  hold   : Nat
  expiry : Nat
  deriving DecidableEq, Repr

/-- A quarantine entry (R54). -/
structure QuarantineEntry where
  span   : Span
  expiry : Nat
  deriving DecidableEq, Repr

structure Plan where
  own   : Vector (Option OwnEntry) 16
  peers : Vector (Option PeerEntry) 96
  quarantine : List QuarantineEntry
  overfull   : Bool
  overfullTimer : Timer
  deriving DecidableEq, Repr

/-! ## RPORT -/

/-- A front-end record's command state (R84). -/
inductive CmdState where
  | muted
  | tuning (span : Span)
  | tuned (span : Span)
  | fault
  deriving DecidableEq, Repr

/-- A report as it stands in a mailbox (R92). -/
structure Report where
  lock    : Bool
  quality : Nat
  keys    : BitVec 4
  fault   : Bool
  deriving DecidableEq, Repr

structure FrontEnd where
  state     : CmdState
  sent      : Bool
  tuneNo    : Nat
  tuneTimer : Timer
  mailbox   : Option Report
  fresh     : Bool
  overwrites : Nat
  lastKeys  : BitVec 4
  deriving DecidableEq, Repr

/-- The kinds of radio command (R85). -/
inductive CmdKind where
  | tune (span : Span) (number : Nat)
  | mute
  | lamp (colour : Colour)
  deriving DecidableEq, Repr

structure RadioCmd where
  addr : Fin 8
  kind : CmdKind
  deriving DecidableEq, Repr

structure Rport where
  fe      : Vector FrontEnd 8
  pending : List RadioCmd
  sending : Option RadioCmd
  /-- Commands that became pending at the present event, in the order of request (log 16); empty between events. -/
  fresh   : List RadioCmd
  deriving DecidableEq, Repr

/-! ## LSUP -/

inductive LinkState where
  | disabled | acquiring | up | lost
  deriving DecidableEq, Repr

/-- Relocation causes (R117). -/
inductive Cause where
  | acquire | predicted | lost | preempted | taskPin | taskMove
  deriving DecidableEq, Repr

inductive RelocPhase where
  | search | waiting | claiming | tuning | returning
  deriving DecidableEq, Repr

/-- Failure causes (R127). -/
inductive FailCause where
  | noCandidate | busFault | tuneFailed | lostRank | refused
  deriving DecidableEq, Repr

/-- How a relocation ends (R117). -/
inductive Ending where
  | done
  | failed (cause : FailCause)
  | abandoned
  deriving DecidableEq, Repr

/-- The relocation record (R117). The return reason is TUNE_FAILED or LOST_RANK. -/
structure Reloc where
  cause    : Cause
  phase    : RelocPhase
  old      : Option Span
  cand     : Option Span
  excluded : List Span
  attempts : Nat
  reason   : Option FailCause
  task     : Bool
  override : Bool
  deriving DecidableEq, Repr

/-- A pending prediction with the indices it used (R107). -/
structure Prediction where
  localIx  : BitVec 8
  globalIx : BitVec 8
  localFade  : Bool
  globalFade : Bool
  fade       : Bool
  deriving DecidableEq, Repr

/-- The link record (R97). Outcomes are Bools, true for BAD. -/
structure LinkRec where
  desc     : LinkDesc
  cls      : Nat
  sampleMs : Nat
  pinned   : Bool
  pointer  : Nat
  state    : LinkState
  current  : Option Span
  tuneInFlight : Bool
  sampleTimer  : Timer
  history  : BitVec 8
  previousBad  : Bool
  lastSeverity : Nat
  prediction   : Option Prediction
  fades    : Nat
  unlocked : Nat
  announcedBad : Bool
  sightingHoldOff : Timer
  relocHoldOff    : Timer
  acquireRetry    : Timer
  reloc    : Option Reloc
  lastOutcome : Option (Cause × Ending)
  deriving DecidableEq, Repr

/-- An entry of a sighting copy filter (R110). -/
structure CopyEntry where
  origin   : Nat
  span     : Span
  severity : Nat
  expiry   : Nat
  deriving DecidableEq, Repr

structure Lsup where
  links  : Vector (Option LinkRec) 8
  localTable  : Vector (Fin 4) 256
  globalTable : Vector (Fin 4) 256
  choiceTable : Vector (Fin 4) 256
  histories : Vector (BitVec 8) 3
  filters   : Vector (List CopyEntry) 3
  deriving DecidableEq, Repr

/-! ## TALLY -/

inductive InputState where
  | off | preview | program
  deriving DecidableEq, Repr

inductive LayerState where
  | unset | live | stale
  deriving DecidableEq, Repr

/-- A layer record (R135). The refresh interval is in units of 100 ms. -/
structure Layer where
  state   : LayerState
  source  : Option Nat
  refresh : Option Nat
  count   : Option Nat
  inputs  : Vector InputState 64
  staleTimer : Timer
  unsetTimer : Timer
  deriving DecidableEq, Repr

/-- A source record (R140), with the content last published (R142). -/
structure Source where
  standby : Bool
  refreshTimer : Timer
  published : Option (Vector InputState 64)
  deriving DecidableEq, Repr

/-- A debounced input line (R141, R156): its accepted level (true closed) and its debounce timer. -/
structure DebouncedLine where
  accepted : Bool
  timer    : Timer
  deriving DecidableEq, Repr

inductive Pattern where
  | steady | slowFlash | fastFlash
  deriving DecidableEq, Repr

structure LampImage where
  colour  : Colour
  pattern : Pattern
  deriving DecidableEq, Repr

structure Tally where
  layers   : Vector Layer 8
  sources  : Vector (Option Source) 8
  contacts : Vector DebouncedLine 32
  hits     : Vector Bool 32
  onAir    : Vector Bool 8
  linkLamps : Vector Colour 8
  lamps    : Vector LampImage 16
  deriving DecidableEq, Repr

/-! ## TBK -/

/-- The key that started an activity: a key line, or a key bit of the port's beltpack (R157). -/
inductive KeyId where
  | line (n : Fin 16)
  | beltpack (bit : Fin 4)
  deriving DecidableEq, Repr

/-- A port's talk line, talk state and talk key together (R155). -/
inductive TalkState where
  | idle
  | talking (line : Fin 16) (key : KeyId)
  | bumped (line : Fin 16) (key : KeyId)
  deriving DecidableEq, Repr

/-- Follow talk held toward a layer (from 0) and an input (R164). -/
structure FollowState where
  layer : Fin 8
  input : Nat
  key   : KeyId
  deriving DecidableEq, Repr

/-- A port record (R155). Memberships are kept in line order. -/
structure TbPort where
  talkClass : Nat
  answer    : AnswerMode
  callLamp  : Option (Fin 16)
  members   : List Membership
  talk      : TalkState
  follow    : Option FollowState
  talkRefresh   : Timer
  followRefresh : Timer
  indication    : Timer
  deriving DecidableEq, Repr

/-- A roster member of a line (R158). -/
structure Member where
  station : Nat
  port    : Nat
  listen  : Bool
  talk    : Bool
  deriving DecidableEq, Repr

/-- A talker list entry (R161). An own entry has no expiry. -/
structure Talker where
  station : Nat
  port    : Nat
  cls     : Nat
  expiry  : Timer
  deriving DecidableEq, Repr

structure Line where
  roster   : List Member
  overfull : Bool
  talkers  : List Talker
  deriving DecidableEq, Repr

/-- A follow list entry (R165). -/
structure FollowEntry where
  origin : Nat
  port   : Nat
  layer  : Fin 8
  input  : Nat
  expiry : Nat
  deriving DecidableEq, Repr

inductive CallState where
  | ringingOut | ringingIn | connected
  deriving DecidableEq, Repr

/-- A call slot in a state other than IDLE (R166); an IDLE slot holds none. -/
structure CallRec where
  state    : CallState
  caller   : Bool
  port     : Fin 12
  peer     : Nat × Nat
  circuit  : Fin 15
  ringTimer  : Timer
  keepTimer  : Timer
  callExpiry : Timer
  deriving DecidableEq, Repr

/-- A USED circuit (R166). -/
structure CircuitUse where
  caller : Nat × Nat
  expiry : Nat
  deriving DecidableEq, Repr

/-- A crosspoint entry's content (R175). Bit k of the listen set stands for slot k. -/
structure XEntry where
  listen : BitVec 32
  talk   : Option Nat
  selfCancel : Bool
  deriving DecidableEq, Repr

/-- The crosspoint image and control line (R175, R176): ports 0 to 11, then return entries of links 0 to 7. -/
structure Crosspoint where
  image   : Vector XEntry 20
  /-- The contents that the entries came to when they were last computed: the image of SILENT follows their changes. -/
  computed : Vector XEntry 20
  pending : List (Fin 20)
  sending : Option (Fin 20 × XEntry)
  /-- The entry being sent has changed since its sending began. -/
  again   : Bool
  deriving DecidableEq, Repr

structure Tbk where
  ports   : Vector (Option TbPort) 12
  keys    : Vector DebouncedLine 16
  lines   : Vector Line 16
  follows : List FollowEntry
  calls   : Vector (Option CallRec) 4
  circuits : Vector (Option CircuitUse) 15
  xp      : Crosspoint
  lamps   : Vector LampImage 16
  deriving DecidableEq, Repr

/-! ## MGMT -/

/-- The 16 events of R190, in the order of their numbers. -/
inductive Event where
  | rxAccepted | rxBadCheck | rxHopExpired | rxOriginMismatch | rxSourceCheckFail
  | txSent | txCollision | txAbandoned | txQueueRefused
  | planConflictLost | planPreempted | planOverfull
  | relocationDone | relocationFailed | linkLost | reportMissed
  deriving DecidableEq, Repr

/-- A bulletin's disposition (R23). -/
inductive Disposition where
  | accepted | ownOrigin | notAddressed | phase | unknownKind | badBody | sourceCheck
  deriving DecidableEq, Repr

structure LongTask where
  origin : Nat
  tag    : Nat
  code   : TaskCode
  link   : Fin 8
  timer  : Nat
  deriving DecidableEq, Repr

structure RecentTask where
  origin : Nat
  tag    : Nat
  code   : Nat
  expiry : Nat
  deriving DecidableEq, Repr

inductive CaptureMode where
  | off | once | count
  deriving DecidableEq, Repr

inductive Delivery where
  | queued | sent | abandoned | refused
  deriving DecidableEq, Repr

/-- A rule's held capture (R187): the disposition, the matched header's five bytes and the delivery state; and the age
of its CAPTURE's queue entry, by which the report on it is known (log 25). -/
structure HeldCapture where
  disposition : Disposition
  header   : List Byte
  delivery : Delivery
  age      : Option Nat
  deriving DecidableEq, Repr

/-- A capture rule (R187). -/
structure CaptureRule where
  mode : CaptureMode
  kindValue   : BitVec 8
  kindMask    : BitVec 8
  originValue : BitVec 7
  originMask  : BitVec 7
  subjectValue : BitVec 16
  subjectMask  : BitVec 16
  requester : Option Nat
  hits    : BitVec 32
  hitFlag : Bool
  held    : Option HeldCapture
  deriving DecidableEq, Repr

/-- A counter (R190): in BYTES mode when `bytes`. -/
structure Counter where
  value : BitVec 32
  mask  : BitVec 16
  bytes : Bool
  deriving DecidableEq, Repr

structure Mgmt where
  longTask : Option LongTask
  recent   : List RecentTask
  rules    : Vector CaptureRule 4
  counters : Vector Counter 8
  deriving DecidableEq, Repr

/-! ## The station -/

/-- The levels outside on the input lines, bit k for line k, 1 closed (R140, R156). -/
structure Pins where
  contacts : BitVec 32
  keys     : BitVec 16
  deriving DecidableEq, Repr

structure State where
  now       : Nat
  phase     : Phase
  resetHeld : Bool
  faultLine : Bool
  pins      : Pins
  cfg       : Option Image
  biu       : Biu
  plan      : Plan
  rport     : Rport
  lsup      : Lsup
  tally     : Tally
  tbk       : Tbk
  mgmt      : Mgmt
  /-- The commands that are waiting, first in, first out. -/
  pending   : List Instr
  deriving DecidableEq, Repr

/-! ## After a hard reset -/

def Biu.reset : Biu :=
  { portA := .idle, portB := .idle, queue := [], nextAge := 0, fwdA := [], fwdB := [],
    origins := Vector.replicate 127 none, roster := Vector.replicate 127 none,
    presenceTimer := none, joinTimer := none, leaveTimer := none, leaveOffers := false }

def Plan.reset : Plan :=
  { own := Vector.replicate 16 none, peers := Vector.replicate 96 none, quarantine := [], overfull := false,
    overfullTimer := none }

def FrontEnd.reset : FrontEnd :=
  { state := .muted, sent := false, tuneNo := 0, tuneTimer := none, mailbox := none, fresh := false, overwrites := 0,
    lastKeys := 0 }

def Rport.reset : Rport :=
  { fe := Vector.replicate 8 FrontEnd.reset, pending := [], sending := none, fresh := [] }

def Lsup.reset : Lsup :=
  { links := Vector.replicate 8 none, localTable := Vector.replicate 256 1, globalTable := Vector.replicate 256 1,
    choiceTable := Vector.replicate 256 1, histories := Vector.replicate 3 0, filters := Vector.replicate 3 [] }

def Layer.reset : Layer :=
  { state := .unset, source := none, refresh := none, count := none, inputs := Vector.replicate 64 .off,
    staleTimer := none, unsetTimer := none }

def LampImage.dark : LampImage := { colour := .off, pattern := .steady }

def Tally.reset : Tally :=
  { layers := Vector.replicate 8 Layer.reset, sources := Vector.replicate 8 none,
    contacts := Vector.replicate 32 { accepted := false, timer := none }, hits := Vector.replicate 32 false,
    onAir := Vector.replicate 8 false, linkLamps := Vector.replicate 8 .off, lamps := Vector.replicate 16 LampImage.dark }

def Line.empty : Line := { roster := [], overfull := false, talkers := [] }

def XEntry.empty : XEntry := { listen := 0, talk := none, selfCancel := false }

def Tbk.reset : Tbk :=
  { ports := Vector.replicate 12 none, keys := Vector.replicate 16 { accepted := false, timer := none },
    lines := Vector.replicate 16 Line.empty, follows := [], calls := Vector.replicate 4 none,
    circuits := Vector.replicate 15 none,
    xp := { image := Vector.replicate 20 XEntry.empty, computed := Vector.replicate 20 XEntry.empty, pending := [],
            sending := none, again := false },
    lamps := Vector.replicate 16 LampImage.dark }

def CaptureRule.reset : CaptureRule :=
  { mode := .off, kindValue := 0, kindMask := 0, originValue := 0, originMask := 0, subjectValue := 0, subjectMask := 0,
    requester := none, hits := 0, hitFlag := false, held := none }

def Mgmt.reset : Mgmt :=
  { longTask := none, recent := [], rules := Vector.replicate 4 CaptureRule.reset,
    counters := Vector.replicate 8 { value := 0, mask := 0, bytes := false } }

/-- The machine right after a hard reset (R24, sections 1.9 and the "after a hard reset" columns), held in reset, with
every input line open and nothing waiting (logs 4 and 32). -/
def State.reset : State :=
  { now := 0, phase := .loading, resetHeld := true, faultLine := false, pins := { contacts := 0, keys := 0 }, cfg := none,
    biu := Biu.reset, plan := Plan.reset, rport := Rport.reset, lsup := Lsup.reset, tally := Tally.reset,
    tbk := Tbk.reset, mgmt := Mgmt.reset, pending := [] }

end Sys2Proof.Machine
end

