-- ==== Sys2Proof/Machine/Wire.lean ====
section
/-! DEFINITION. Codes of chapter 11 and the bulletin as the wire carries it: the check of R5, the bytes of a bulletin,
and the acceptance test of a run of bytes. -/

namespace Sys2Proof

/-- The kind table of section 11.1. -/
def Kind.code : Kind → Byte
  | .presence => 0x01 | .planClaim => 0x10 | .planHold => 0x11 | .planYield => 0x12 | .sighting => 0x18
  | .tallyState => 0x20 | .lineJoin => 0x30 | .lineLeave => 0x31 | .talk => 0x32 | .followTalk => 0x33
  | .callRing => 0x38 | .callAnswer => 0x39 | .callEnd => 0x3A | .callKeep => 0x3B
  | .task => 0x40 | .taskReply => 0x41 | .capture => 0x42

def Kind.all : List Kind :=
  [.presence, .planClaim, .planHold, .planYield, .sighting, .tallyState, .lineJoin, .lineLeave, .talk, .followTalk,
   .callRing, .callAnswer, .callEnd, .callKeep, .task, .taskReply, .capture]

/-- The kind a code stands for; none for a code that is not assigned. -/
def Kind.ofCode (c : Byte) : Option Kind := Kind.all.find? (fun k => k.code == c)

/-- The task table of section 10.1. -/
def TaskCode.code : TaskCode → Byte
  | .readStation => 0x01 | .readLink => 0x02 | .readPlan => 0x03 | .readTally => 0x04 | .readLine => 0x05
  | .readCounters => 0x06 | .setCounter => 0x07 | .setClass => 0x08 | .pinLink => 0x09 | .unpinLink => 0x0A
  | .moveLink => 0x0B | .setMembership => 0x0C | .armCapture => 0x0D | .readCapture => 0x0E | .restart => 0x0F
  | .setSample => 0x10

def TaskCode.all : List TaskCode :=
  [.readStation, .readLink, .readPlan, .readTally, .readLine, .readCounters, .setCounter, .setClass, .pinLink,
   .unpinLink, .moveLink, .setMembership, .armCapture, .readCapture, .restart, .setSample]

def TaskCode.ofCode (c : Byte) : Option TaskCode := TaskCode.all.find? (fun k => k.code == c)

/-- Band codes (chapter 11). -/
def Band.code : Band → Nat
  | .a => 0 | .b => 1 | .c => 2

def Band.index : Band → Fin 3
  | .a => 0 | .b => 1 | .c => 2

def Band.ofCode : Nat → Option Band
  | 0 => some .a | 1 => some .b | 2 => some .c | _ => none

/-- A span as 5 bytes (section 11.2); an absent span is a band byte of FFh. -/
def Span.bytes (sp : Span) : List Byte := byte sp.band.code :: (bytes16 sp.low ++ bytes16 sp.high)

def spanOptBytes : Option Span → List Byte
  | some sp => sp.bytes
  | none => [0xFF]

/-- An absent value is a byte of FFh (section 11.2). -/
def optByte : Option Nat → Byte
  | some n => byte n
  | none => 0xFF

/-- One byte of the check of R5: most significant bit first, polynomial x^16 + x^12 + x^5 + 1. -/
def crcByte (c : BitVec 16) (b : Byte) : BitVec 16 :=
  (List.range 8).foldl (fun c _ => if c.msb then (c <<< 1) ^^^ 0x1021#16 else c <<< 1) (c ^^^ (b.zeroExtend 16 <<< 8))

/-- The check of R5: initial value FFFFh, no final inversion. -/
def crc (bytes : List Byte) : BitVec 16 := bytes.foldl crcByte 0xFFFF#16

namespace Machine

/-- The length of a bulletin: header, body and check bytes together (section 1.2). -/
def Bulletin.length (b : Bulletin) : Nat := 7 + b.body.length

/-- Bytes 0 to 4: the header. -/
def Bulletin.header (b : Bulletin) : List Byte := [b.kind, b.origin, b.target, b.hopPrio, byte b.body.length]

/-- The run of bytes the wire carries (section 11.1). -/
def Bulletin.wire (b : Bulletin) : List Byte :=
  b.header ++ b.body ++ bytes16 (crc (b.header ++ b.body)).toNat

/-- The hop budget, bits 1 and 0 of byte 3. -/
def Bulletin.hops (b : Bulletin) : Nat := b.hopPrio.toNat % 4

/-- A station number, 1 to 126. -/
def isStation (n : Nat) : Bool := 1 ≤ n && n ≤ 126

/-- The tests of R5 on a run of bytes: the bulletin it holds, or nothing where it is discarded. -/
def acceptRun (run : List Byte) : Option Bulletin :=
  match run with
  | k :: o :: t :: h :: len :: rest =>
    if len.toNat ≤ 48 ∧ rest.length = len.toNat + 2 ∧ isStation o.toNat
        ∧ bytes16 (crc (run.take (5 + len.toNat))).toNat = rest.drop len.toNat
    then some { kind := k, origin := o, target := t, hopPrio := h, body := rest.take len.toNat }
    else none
  | _ => none

end Machine

/-- The bulletin that a received header and body make under a kind. -/
def Rx.bulletin (k : Kind) (rx : Rx) : Machine.Bulletin :=
  { kind := k.code, origin := rx.origin, target := rx.target, hopPrio := rx.hopPrio, body := rx.body }

/-- What R5 asks of a bulletin beyond its check: the origin and the body length. -/
def Rx.acceptable (rx : Rx) : Bool := Machine.isStation rx.origin.toNat && decide (rx.body.length ≤ 48)

/-- The bulletin of a row's received header and body, or nothing where it fails acceptance (R5, log 8). -/
def Rx.accept (k : Kind) (rx : Rx) : Option Machine.Bulletin :=
  if rx.acceptable then some (rx.bulletin k) else none

/-- A task's bulletin: its body is the tag, the task code and the parameters (section 11.1). -/
def TaskRx.rx (c : TaskCode) (t : TaskRx) : Rx :=
  { origin := t.origin, target := t.target, hopPrio := t.hopPrio, body := t.tag :: c.code :: t.params }

end Sys2Proof
end

