-- ==== Sys2Proof/Machine/Operands.lean ====
section
/-! DEFINITION. Reading the bodies of bulletins and the parameters of tasks by the layouts of chapter 11, each field
against the range its block's rule gives it. A body that is too short or holds a field outside its range reads as
nothing: the discard of cause BAD_BODY (R192), or the answer BAD_PARAM (R178). Bytes beyond the layout are ignored. -/

namespace Sys2Proof.Machine

/-- The number in byte `i`, if the body is long enough. -/
def u8 (l : List Byte) (i : Nat) : Option Nat := l[i]?.map (·.toNat)

/-- The number in bytes `i` and `i` + 1. -/
def u16 (l : List Byte) (i : Nat) : Option Nat := do
  let hi ← l[i]?
  let lo ← l[i + 1]?
  pure (be16 hi lo)

/-- A flag or on and off byte: clear when 0, set at any other value (R192). -/
def flagAt (l : List Byte) (i : Nat) : Option Bool := l[i]?.map (· != 0)

/-- A number below `n`, as an index. -/
def finOf (n x : Nat) : Option (Fin n) := if h : x < n then some ⟨x, h⟩ else none

/-- Byte `i` as a number below `n`. -/
def fin8 (n : Nat) (l : List Byte) (i : Nat) : Option (Fin n) := (u8 l i).bind (finOf n)

/-- Byte `i` as a number from `lo` to `hi`. -/
def ranged (lo hi : Nat) (l : List Byte) (i : Nat) : Option Nat :=
  (u8 l i).bind fun x => if lo ≤ x ∧ x ≤ hi then some x else none

/-- A layer 1 to 8, counted from 0. -/
def layerAt (l : List Byte) (i : Nat) : Option (Fin 8) :=
  (ranged 1 8 l i).bind fun x => finOf 8 (x - 1)

/-- A span at byte `i`: band, low and high, with low ≤ high ≤ 2047 (R38). -/
def spanAt (l : List Byte) (i : Nat) : Option Span := do
  let band ← (u8 l i).bind Band.ofCode
  let low ← u16 l (i + 1)
  let high ← u16 l (i + 3)
  if low ≤ high ∧ high ≤ 2047 then some { band, low, high } else none

/-- The body of a PLAN_CLAIM or PLAN_HOLD (R38). -/
structure PlanBody where
  span : Span
  link : Nat
  cls  : Nat
  hold : Nat
  deriving DecidableEq, Repr

def readPlanBody (l : List Byte) : Option PlanBody := do
  let span ← spanAt l 0
  let link ← ranged 0 7 l 5
  let cls ← ranged 0 7 l 6
  let hold ← ranged 5 100 l 7
  pure { span, link, cls, hold }

/-- The body of a PLAN_YIELD: its span and link (R38). -/
def readYieldBody (l : List Byte) : Option (Span × Nat) := do
  let span ← spanAt l 0
  let link ← ranged 0 7 l 5
  pure (span, link)

/-- The body of a SIGHTING: its span and severity (R38). -/
def readSightingBody (l : List Byte) : Option (Span × Nat) := do
  let span ← spanAt l 0
  let severity ← ranged 0 15 l 5
  pure (span, severity)

/-- The body of a TALLY_STATE (R136). -/
structure TallyBody where
  layer   : Fin 8
  count   : Nat
  refresh : Nat
  inputs  : Vector InputState 64
  deriving DecidableEq, Repr

/-- The two-bit code of input `i` (from 0) in the 16 state bytes that begin at byte 3. -/
def inputCode (l : List Byte) (i : Nat) : Nat :=
  (l.getD (3 + i / 4) 0).toNat / 4 ^ (3 - i % 4) % 4

def InputState.ofCode : Nat → InputState
  | 1 => .preview
  | 2 => .program
  | _ => .off

def InputState.code : InputState → Nat
  | .off => 0 | .preview => 1 | .program => 2

def readTallyBody (l : List Byte) : Option TallyBody := do
  let layer ← layerAt l 0
  let count ← ranged 1 64 l 1
  let refresh ← ranged 2 20 l 2
  if 19 ≤ l.length ∧ (List.range count).all (fun i => inputCode l i != 3) then
    some { layer, count, refresh,
           inputs := Vector.ofFn fun i => if i.val < count then InputState.ofCode (inputCode l i.val) else .off }
  else none

/-- The 16 state bytes of a layer's content, four inputs to a byte, the first in the high bits. -/
def contentBytes (v : Vector InputState 64) : List Byte :=
  (List.range 16).map fun k =>
    byte ((List.range 4).foldl (fun acc j => acc * 4 + ((v.toList.getD (4 * k + j) .off).code)) 0)

/-- A membership record of a PRESENCE (R17): a port, the lines it listens to and the lines it has talk right on. -/
structure PresenceRecord where
  port   : Nat
  listen : BitVec 16
  talk   : BitVec 16
  deriving DecidableEq, Repr

/-- The `n` records that begin at byte `i`. -/
def readRecords (l : List Byte) : Nat → Nat → Option (List PresenceRecord)
  | 0, _ => some []
  | n + 1, i => do
    let port ← ranged 0 11 l i
    let listen ← u16 l (i + 1)
    let talk ← u16 l (i + 3)
    let rest ← readRecords l n (i + 5)
    pure ({ port, listen := BitVec.ofNat 16 listen, talk := BitVec.ofNat 16 talk } :: rest)

/-- The body of a PRESENCE: its unit serial and membership list (R192). A record count above 8, a record with a port
above 11, or two records with one port make it a bad body. -/
def readPresenceBody (l : List Byte) : Option (Nat × List PresenceRecord) := do
  let serial ← u16 l 0
  let n ← ranged 0 8 l 5
  let records ← readRecords l n 6
  if (records.map (·.port)).Nodup then some (serial, records) else none

/-- The body of a LINE_JOIN: line, port, listen and talk-right flags (R159). -/
def readJoinBody (l : List Byte) : Option (Fin 16 × Nat × Bool × Bool) := do
  let line ← fin8 16 l 0
  let port ← ranged 0 11 l 1
  let flags ← l[2]?
  pure (line, port, flags.getLsbD 0, flags.getLsbD 1)

/-- The body of a LINE_LEAVE: line and port. -/
def readLeaveBody (l : List Byte) : Option (Fin 16 × Nat) := do
  let line ← fin8 16 l 0
  let port ← ranged 0 11 l 1
  pure (line, port)

/-- The body of a TALK: line, port, talk class and on (R161). -/
def readTalkBody (l : List Byte) : Option (Fin 16 × Nat × Nat × Bool) := do
  let line ← fin8 16 l 0
  let port ← ranged 0 11 l 1
  let cls ← ranged 0 3 l 2
  let on ← flagAt l 3
  pure (line, port, cls, on)

/-- The body of a FOLLOW_TALK: layer, input, port and on (R165). -/
def readFollowBody (l : List Byte) : Option (Fin 8 × Nat × Nat × Bool) := do
  let layer ← layerAt l 0
  let input ← ranged 1 64 l 1
  let port ← ranged 0 11 l 2
  let on ← flagAt l 3
  pure (layer, input, port, on)

/-- Reasons a call ends with (R166). -/
inductive EndReason where
  | cleared | busy | noAnswer | lost | noCircuit
  deriving DecidableEq, Repr

def EndReason.code : EndReason → Nat
  | .cleared => 1 | .busy => 2 | .noAnswer => 3 | .lost => 4 | .noCircuit => 5

def EndReason.ofCode : Nat → Option EndReason
  | 1 => some .cleared | 2 => some .busy | 3 => some .noAnswer | 4 => some .lost | 5 => some .noCircuit | _ => none

/-- The body of a call bulletin (R166). The reason is read in a CALL_END alone. -/
structure CallBody where
  caller  : Nat × Nat
  callee  : Nat × Nat
  circuit : Fin 15
  reason  : EndReason
  deriving DecidableEq, Repr

def readCallBody (isEnd : Bool) (l : List Byte) : Option CallBody := do
  let callerStation ← ranged 1 126 l 0
  let callerPort ← ranged 0 11 l 1
  let calleeStation ← ranged 1 126 l 2
  let calleePort ← ranged 0 11 l 3
  let circuit ← (ranged 17 31 l 4).bind fun c => finOf 15 (c - 17)
  let code ← u8 l 5
  let reason ← if isEnd then EndReason.ofCode code else some EndReason.cleared
  pure { caller := (callerStation, callerPort), callee := (calleeStation, calleePort), circuit, reason }

/-- A field the capture subject needs is taken as 0 where the body is too short to hold it (R188). -/
def subject8 (l : List Byte) (i : Nat) : Nat := (u8 l i).getD 0

def subject16 (l : List Byte) (i : Nat) : Nat := (u16 l i).getD 0

/-- The subject of a bulletin for the capture rules (R188), from the body as received. -/
def subject (kind : Option Kind) (l : List Byte) : Nat :=
  match kind with
  | some .presence => subject16 l 0
  | some .planClaim | some .planHold | some .planYield | some .sighting => subject8 l 0 * 2048 + subject16 l 1
  | some .tallyState => subject8 l 0
  | some .lineJoin | some .lineLeave | some .talk => subject8 l 0 * 16 + subject8 l 1
  | some .followTalk => subject8 l 0 * 256 + subject8 l 1
  | some .callRing | some .callAnswer | some .callEnd | some .callKeep => subject8 l 0 * 16 + subject8 l 1
  | some .task | some .taskReply => subject8 l 1 * 256 + subject8 l 0
  | some .capture => subject8 l 0
  | none => 0

end Sys2Proof.Machine
end

