-- ==== Sys2Proof/Machine/Image.lean ====
section
/-! DEFINITION. The configuration read: the four tests of R26 and R193 on the bytes the configuration memory gives, and
the image's fields (section 11.3). The sections stand at fixed offsets up to the link count; the later ones follow the
descriptors. -/

namespace Sys2Proof.Machine

/-- The bytes of an image being read, with absent ones reading as 0 (the length test has already passed). -/
abbrev ImageBytes := List Byte

def ImageBytes.u (m : ImageBytes) (i : Nat) : Nat := (m.getD i 0).toNat

def ImageBytes.w (m : ImageBytes) (i : Nat) : Nat := be16 (m.getD i 0) (m.getD (i + 1) 0)

def inRange (lo hi x : Nat) : Bool := decide (lo ≤ x) && decide (x ≤ hi)

/-! ## Where the sections stand -/

def linkCount (m : ImageBytes) : Nat := m.u 21

/-- The offset of descriptor `k` of the links section. -/
def descAt (k : Nat) : Nat := 22 + 35 * k

def portsAt (m : ImageBytes) : Nat := descAt (linkCount m)
def linesAt (m : ImageBytes) : Nat := portsAt m + 144
def lampsAt (m : ImageBytes) : Nat := linesAt m + 16
def contactsAt (m : ImageBytes) : Nat := lampsAt m + 2
def keysAt (m : ImageBytes) : Nat := contactsAt m + 76
def mapAt (m : ImageBytes) : Nat := keysAt m + 65
def countersAt (m : ImageBytes) : Nat := mapAt m + 288

/-! ## Reading the fields -/

/-- A key function's three bytes: the function and its parameters, with the bytes not used zero (section 11.3). -/
def keyFnOf (m : ImageBytes) (i : Nat) : Option KeyFn :=
  match m.u i with
  | 0 => if m.w (i + 1) = 0 then some .unmapped else none
  | 1 => if m.u (i + 2) = 0 then (finOf 16 (m.u (i + 1))).map .talk else none
  | 2 => if inRange 1 126 (m.u (i + 1)) && inRange 0 11 (m.u (i + 2)) then some (.call (m.u (i + 1)) (m.u (i + 2)))
         else none
  | 3 => if inRange 1 8 (m.u (i + 1)) && m.u (i + 2) == 0 then (finOf 8 (m.u (i + 1) - 1)).map .follow else none
  | 4 => if m.w (i + 1) = 0 then some .answerClear else none
  | _ => none

def linkKindOf : Nat → Option LinkKind
  | 0 => some .camera | 1 => some .mic | 2 => some .talkback | _ => none

def LinkKind.code : LinkKind → Nat
  | .camera => 0 | .mic => 1 | .talkback => 2

/-- A link descriptor (35 bytes) with its link number; nothing where a field is outside its range, where the window,
preferred low, width or step breaks R57, or where a beltpack key stands on a link that is not TALKBACK. A window beyond
channel 2047 fails too (DESIGN CHOICE, log 24). -/
def readDesc (m : ImageBytes) (i : Nat) : Option (Fin 8 × LinkDesc) := do
  let number ← finOf 8 (m.u i)
  let kind ← linkKindOf (m.u (i + 1))
  let band ← Band.ofCode (m.u (i + 2))
  let width := m.w (i + 3)
  let step := m.w (i + 5)
  let winLow := m.w (i + 7)
  let winHigh := m.w (i + 9)
  let prefLow := m.w (i + 11)
  let frontEnd ← finOf 8 (m.u (i + 14))
  let k0 ← keyFnOf m (i + 21)
  let k1 ← keyFnOf m (i + 24)
  let k2 ← keyFnOf m (i + 27)
  let k3 ← keyFnOf m (i + 30)
  if winHigh ≤ 2047 ∧ winLow ≤ winHigh ∧ 1 ≤ step ∧ step ≤ width ∧ width ≤ winHigh - winLow + 1
      ∧ winLow ≤ prefLow ∧ prefLow + width ≤ winHigh + 1
      ∧ inRange 0 3 (m.u (i + 13)) ∧ inRange 1 15 (m.u (i + 15)) ∧ inRange 50 1000 (m.w (i + 16))
      ∧ inRange 3 50 (m.u (i + 18)) ∧ inRange 1 4 (m.u (i + 19)) ∧ inRange 5 120 (m.u (i + 20))
      ∧ (kind = .talkback ∨ (k0 = .unmapped ∧ k1 = .unmapped ∧ k2 = .unmapped ∧ k3 = .unmapped)) then
    some (number,
      { kind, band, width, step, winLow, winHigh, prefLow, cls := m.u (i + 13), frontEnd, badThreshold := m.u (i + 15),
        sampleMs := m.w (i + 16), lossSamples := m.u (i + 18), fadeRun := m.u (i + 19), holdOffS := m.u (i + 20),
        keys := #v[k0, k1, k2, k3], returnLines := BitVec.ofNat 16 (m.w (i + 33)) })
  else none

/-- Members come in line order, one for a line: a later record of a line takes the place of an earlier one (log 24). -/
def insertMember (x : Membership) : List Membership → List Membership
  | [] => [x]
  | y :: ys => if x.line < y.line then x :: y :: ys else if x.line = y.line then x :: ys else y :: insertMember x ys

/-- The `n` memberships that begin at byte `i`. -/
def readMembers (m : ImageBytes) : Nat → Nat → Option (List Membership)
  | 0, _ => some []
  | n + 1, i => do
    let line ← finOf 16 (m.u i)
    let flags := m.getD (i + 1) 0
    let rest ← readMembers m n (i + 2)
    pure ({ line, listen := flags.getLsbD 0, talk := flags.getLsbD 1 } :: rest)

/-- The membership records that a port's count leaves unused are zero (section 11.3); `i` is where the four begin. -/
def unusedMembersZero (m : ImageBytes) (count i : Nat) : Bool :=
  (List.range 4).all fun k => decide (k < count) || m.w (i + 2 * k) == 0

def answerOf : Nat → Option AnswerMode
  | 0 => some .manual | 1 => some .auto | 2 => some .reject | _ => none

/-- A lamp line 0 to 15, or FFh for none. -/
def lampOf (x : Nat) : Option (Option (Fin 16)) :=
  if x = 255 then some none else (finOf 16 x).map some

/-- One record of the ports section (12 bytes). -/
def readPort (m : ImageBytes) (i : Nat) : Option PortCfg := do
  let answer ← answerOf (m.u i)
  let callLamp ← lampOf (m.u (i + 2))
  let members ← if m.u (i + 3) ≤ 4 then readMembers m (m.u (i + 3)) (i + 4) else none
  if m.u (i + 1) ≤ 3 ∧ unusedMembersZero m (m.u (i + 3)) (i + 4) = true then
    some { answer, talkClass := m.u (i + 1), callLamp, members := members.foldl (fun l x => insertMember x l) [] }
  else none

/-- A source layer's input count, 1 to 64; nothing for a layer that is not a source (its count byte is then 0). -/
def readSource (m : ImageBytes) (k : Fin 8) : Option (Option Nat) :=
  let isSource := (m.getD (contactsAt m + 3) 0).getLsbD k
  let n := m.u (contactsAt m + 4 + k)
  if isSource then (if inRange 1 64 n then some (some n) else none) else (if n = 0 then some none else none)

/-- A contact's mapping (2 bytes): nothing for an unmapped one, whose input is within 1 to 64 as every contact's is (section
11.3). A mapped one must name a source layer and an input within that layer's count (R140), which is at most 64. -/
def readContact (m : ImageBytes) (sources : Vector (Option Nat) 8) (i : Nat) : Option (Option ContactCfg) :=
  let input := m.u (i + 1) % 128
  if m.u i = 0 then (if inRange 1 64 input then some none else none) else do
    let layer ← finOf 8 (m.u i - 1)
    let count ← sources[layer]
    if inRange 1 count input then some (some { layer, input, program := (m.getD (i + 1) 0).getLsbD 7 }) else none

/-- A key line's mapping (4 bytes): a panel port 0 to 3 and a key function. -/
def readKey (m : ImageBytes) (i : Nat) : Option KeyCfg := do
  let port ← if m.u i ≤ 3 then finOf 12 (m.u i) else none
  let fn ← keyFnOf m (i + 1)
  pure { port, fn }

def colourOf : Nat → Option Colour
  | 1 => some .red | 2 => some .green | 3 => some .amber | _ => none

/-- The link of a rule has a descriptor, and a rule that names none has no flag set (R146). -/
def ruleLinkValid (hasLink : Fin 8 → Bool) (link : Option (Fin 8)) (flags : Byte) : Bool :=
  match link with
  | some n => hasLink n
  | none => !flags.getLsbD 0 && !flags.getLsbD 1 && !flags.getLsbD 2

/-- A tally map rule (9 bytes). An unused one needs mask 15 and nothing else of it is examined (R146). One in use must
have its fields in range, its inputs in order, a link wherever a flag needs one, no lamp line of the CALL function
and no link without a descriptor. -/
def readRule (m : ImageBytes) (hasLink : Fin 8 → Bool) (callLamps : BitVec 16) (i : Nat) : Option MapRule :=
  if m.u i = 0 then (if m.u (i + 1) = 15 then some MapRule.unused else none) else do
    let lamp ← lampOf (m.u (i + 5))
    let programColour ← colourOf (m.u (i + 6) % 4)
    let previewColour ← colourOf (m.u (i + 6) / 4 % 4)
    let link ← if m.u (i + 7) = 255 then some none else (finOf 8 (m.u (i + 7))).map some
    let flags := m.getD (i + 8) 0
    let states := m.getD (i + 4) 0
    if m.u i ≤ 8 ∧ m.u (i + 1) ≤ 15 ∧ inRange 1 64 (m.u (i + 2)) ∧ inRange 1 64 (m.u (i + 3))
        ∧ m.u (i + 2) ≤ m.u (i + 3)
        ∧ lamp.all (fun n : Fin 16 => !callLamps.getLsbD n) = true
        ∧ ruleLinkValid hasLink link flags = true then
      some { layerValue := BitVec.ofNat 4 (m.u i), layerMask := BitVec.ofNat 4 (m.u (i + 1)), inputLow := m.u (i + 2),
             inputHigh := m.u (i + 3), onPreview := states.getLsbD 0, onProgram := states.getLsbD 1, lamp,
             programColour, previewColour, link, onAir := flags.getLsbD 0, linkLamp := flags.getLsbD 1,
             follow := flags.getLsbD 2 }
    else none

/-- One counter's mask and mode (3 bytes). -/
def readCounter (m : ImageBytes) (i : Nat) : Option CounterCfg :=
  if m.u (i + 2) ≤ 1 then some { mask := BitVec.ofNat 16 (m.w i), bytes := m.u (i + 2) = 1 } else none

/-- A tolerance 0 to 4, or FFh for OFF (nothing). -/
def toleranceOf (x : Nat) : Option (Option Nat) :=
  if x = 255 then some none else if x ≤ 4 then some (some x) else none

/-- Every entry of a vector read, or nothing if one of them fails. -/
def allOf {α : Type} {n : Nat} (v : Vector (Option α) n) : Option (Vector α n) := v.mapM id

/-- Talkback port `q` exists (R155): a panel port, or the port of a TALKBACK link. -/
def portExists (links : Vector (Option LinkDesc) 8) (q : Fin 12) : Bool :=
  if h : q.val < 4 then true
  else match links[q.val - 4]'(by omega) with
    | some d => decide (d.kind = .talkback)
    | none => false

/-- The conditions of R155 on the ports section, and the condition on ports that do not exist (R193). That a call lamp is of
the CALL function is the meaning of its field (R155), and the model examines it (DESIGN CHOICE, log 24). -/
def portsValid (links : Vector (Option LinkDesc) 8) (callLamps : BitVec 16) (ports : Vector PortCfg 12) : Bool :=
  let all := List.finRange 12
  let lamps := all.filterMap fun q => ports[q].callLamp
  all.all (fun q => portExists links q || (ports[q].members.isEmpty && ports[q].callLamp.isNone))
    && decide ((all.filter fun q => !ports[q].members.isEmpty).length ≤ 8)
    && lamps.all (fun n => callLamps.getLsbD n)
    && decide lamps.Nodup

/-- The values test of R193 and, where it passes, the image's fields. -/
def readValues (m : ImageBytes) : Option Image := do
  let n := linkCount m
  let descs ← (List.range n).mapM fun k => readDesc m (descAt k)
  let links : Vector (Option LinkDesc) 8 :=
    Vector.ofFn fun l => (descs.find? fun d => d.1 = l).map (·.2)
  let t0 ← toleranceOf (m.u 13)
  let t1 ← toleranceOf (m.u 15)
  let t2 ← toleranceOf (m.u 17)
  let callLamps := BitVec.ofNat 16 (m.w (lampsAt m))
  let ports ← allOf (Vector.ofFn fun q : Fin 12 => readPort m (portsAt m + 12 * q))
  let caps ← allOf (Vector.ofFn fun k : Fin 16 =>
    if inRange 1 6 (m.u (linesAt m + k)) then some (m.u (linesAt m + k)) else none)
  let sourceCounts ← allOf (Vector.ofFn fun k : Fin 8 => readSource m k)
  let contacts ← allOf (Vector.ofFn fun k : Fin 32 => readContact m sourceCounts (contactsAt m + 12 + 2 * k))
  let keys ← allOf (Vector.ofFn fun k : Fin 16 => readKey m (keysAt m + 1 + 4 * k))
  let rules ← allOf (Vector.ofFn fun k : Fin 32 =>
    readRule m (fun l => links[l].isSome) callLamps (mapAt m + 9 * k))
  let counters ← allOf (Vector.ofFn fun k : Fin 8 => readCounter m (countersAt m + 3 * k))
  if n * 35 = m.w 2 - 639
      ∧ isStation (m.u 4) ∧ inRange 1 10 (m.u 7) ∧ inRange 5 100 (m.u 8)
      ∧ ((m.getD 9 0).getLsbD 0 ∨ (m.getD 9 0).getLsbD 1) ∧ inRange 1 3 (m.u 11)
      ∧ m.u 12 ≤ 64 ∧ m.u 14 ≤ 64 ∧ m.u 16 ≤ 64 ∧ inRange 1 15 (m.u 18) ∧ inRange 10 600 (m.w 19)
      ∧ (descs.map (·.1)).Nodup ∧ (descs.map (·.2.frontEnd)).Nodup
      ∧ portsValid links callLamps ports
      ∧ inRange 1 15 (m.u (contactsAt m)) ∧ inRange 2 20 (m.u (contactsAt m + 1))
      ∧ inRange 5 120 (m.u (contactsAt m + 2)) ∧ inRange 1 15 (m.u (keysAt m)) then
    some { station := m.u 4, serial := m.w 5, joinListenS := m.u 7, hold := m.u 8,
           portA := (m.getD 9 0).getLsbD 0, portB := (m.getD 9 0).getLsbD 1, bridgeFlag := m.u 10 != 0, hops := m.u 11,
           guard := #v[m.u 12, m.u 14, m.u 16], tolerance := #v[t0, t1, t2],
           quarThreshold := m.u 18, quarTimeS := m.w 19, links, ports, caps, callLamps,
           contactDebounceMs := m.u (contactsAt m), refreshUnits := m.u (contactsAt m + 1),
           staleHoldS := m.u (contactsAt m + 2), sourceCounts, contacts, keyDebounceMs := m.u (keysAt m),
           keys, rules, counters }
  else none

/-- The format mark test (R193): the first two bytes are 6B14h. -/
def markPasses (memory : List Byte) : Bool := memory.take 2 == [0x6B, 0x14]

/-- The length test (R193). -/
def lengthPasses (memory : List Byte) : Bool :=
  let n := ImageBytes.w memory 2
  inRange 639 919 n && decide ((n - 639) % 35 = 0) && decide (4 ≤ memory.length) && decide (n ≤ memory.length)

/-- The check test (R193), over every byte from the mark to the end of the last section. -/
def checkPasses (memory : List Byte) : Bool :=
  let n := ImageBytes.w memory 2
  bytes16 (crc (memory.take (n - 2))).toNat == (memory.take n).drop (n - 2)

/-- The configuration read (R26): the tests in order, and the image where all four pass. -/
def readImage (memory : List Byte) : Option Image :=
  if markPasses memory && lengthPasses memory && checkPasses memory
  then readValues (memory.take (ImageBytes.w memory 2))
  else none

end Sys2Proof.Machine
end

