-- ==== Sys2Proof/Machine/Flags.lean ====
section
/-! DEFINITION. The event counters of R190 and the hit flags and hit counts of the capture rules (R188). -/

namespace Sys2Proof.Machine

/-- The event numbers of R190. -/
def Event.number : Event → Nat
  | .rxAccepted => 0 | .rxBadCheck => 1 | .rxHopExpired => 2 | .rxOriginMismatch => 3 | .rxSourceCheckFail => 4
  | .txSent => 5 | .txCollision => 6 | .txAbandoned => 7 | .txQueueRefused => 8 | .planConflictLost => 9
  | .planPreempted => 10 | .planOverfull => 11 | .relocationDone => 12 | .relocationFailed => 13 | .linkLost => 14
  | .reportMissed => 15

/-- One counter takes one report (R190): by one in BULLETINS mode, by the length in BYTES mode, or by one where the
event has no bulletin. The value wraps at 32 bits. -/
def Counter.bump (ev : Event) (len : Option Nat) (c : Counter) : Counter :=
  if c.mask.getLsbD ev.number then
    { c with value := c.value + BitVec.ofNat 32 (if c.bytes then len.getD 1 else 1) }
  else c

/-- A block reports an event to MGMT, with the length of its bulletin if it has one (R190). -/
def State.count (ev : Event) (len : Option Nat) (s : State) : State :=
  { s with mgmt := { s.mgmt with counters := s.mgmt.counters.map (Counter.bump ev len) } }

/-- A value and a mask match a number when they agree in every binary digit where the mask has a 1 (R188). -/
def maskMatch {n : Nat} (value mask x : BitVec n) : Bool := (value ^^^ x) &&& mask == 0

/-- A rule that is not OFF matches a bulletin by its kind code, origin and subject (R188). -/
def CaptureRule.hitBy (b : Bulletin) (r : CaptureRule) : Bool :=
  r.mode != .off && maskMatch r.kindValue r.kindMask b.kind
    && maskMatch r.originValue r.originMask (BitVec.ofNat 7 b.origin.toNat)
    && maskMatch r.subjectValue r.subjectMask (BitVec.ofNat 16 (subject (Kind.ofCode b.kind) b.body))

/-- The mark of a match (R188): the count goes up by one, wrapping, the flag is set, and a ONCE rule becomes OFF. -/
def CaptureRule.hit (r : CaptureRule) : CaptureRule :=
  { r with hits := r.hits + 1, hitFlag := true, mode := if r.mode = .once then .off else r.mode }

/-- The rules in ONCE mode that a bulletin matches, in rule order: the captures it will make (R189). -/
def State.onceHits (b : Bulletin) (s : State) : List (Fin 4) :=
  (List.finRange 4).filter fun k => s.mgmt.rules[k].hitBy b && s.mgmt.rules[k].mode == .once

/-- The capture hook (R23, R188): every rule is compared on its own. -/
def State.captureHook (b : Bulletin) (s : State) : State :=
  { s with mgmt := { s.mgmt with rules := s.mgmt.rules.map fun r => if r.hitBy b then r.hit else r } }

end Sys2Proof.Machine
end

