-- ==== Sys2Proof/Machine/Ops.lean ====
section
/-! DEFINITION. The operations the families share: the clock and timers, the station's configuration, the ports of the
bus, the link records, and the transmit queue (section 1.3). -/

namespace Sys2Proof.Machine

/-! ## Clock and timers -/

def ms (n : Nat) : Nat := n * 1000
def sec (n : Nat) : Nat := n * 1000000
/-- Hold and refresh intervals are in units of 100 ms (chapter 11). -/
def tenths (n : Nat) : Nat := n * 100000

/-- The moment `d` microseconds from now. -/
def State.after (s : State) (d : Nat) : Nat := s.now + d

/-- The expiry of a running timer is taken at the timer's moment: the clock is then not before it (log 2). -/
def State.reach (s : State) (t : Nat) : State := { s with now := max s.now t }

/-- The expiry of a timer: nothing where the timer is stopped (log 2). -/
def State.onExpiry (t : Timer) (f : State → State) (s : State) : State :=
  match t with
  | none => s
  | some d => f (s.reach d)

/-! ## Configuration -/

/-- The configuration in force. -/
def State.image (s : State) : Image := s.cfg.getD Image.blank

/-- The station's own number. -/
def State.station (s : State) : Nat := s.image.station

/-- A port is enabled by the image (R1). -/
def State.enabled (s : State) : BusPort → Bool
  | .a => s.image.portA
  | .b => s.image.portB

/-- A station is a bridge when its bridge flag is set and both ports are enabled (R13). -/
def State.isBridge (s : State) : Bool := s.image.bridgeFlag && s.image.portA && s.image.portB

/-- The guard of a band. -/
def State.guard (s : State) (band : Band) : Nat := s.image.guard[band.index]

/-- Phases in which a port takes part in the bus (R1, R4): past LOADING and not HALTED. -/
def Phase.onBus : Phase → Bool
  | .loading | .halted => false
  | .joining | .active | .leaving | .silent => true

/-- Phases in which the station's own bulletins are sent (R1). -/
def Phase.sendsOwn : Phase → Bool
  | .active | .leaving => true
  | .loading | .halted | .joining | .silent => false

/-! ## Ports -/

def BusPort.other : BusPort → BusPort
  | .a => .b
  | .b => .a

def PortSet.has (x : PortSet) : BusPort → Bool
  | .a => x.a
  | .b => x.b

def PortSet.insert (x : PortSet) : BusPort → PortSet
  | .a => { x with a := true }
  | .b => { x with b := true }

def PortSet.erase (x : PortSet) : BusPort → PortSet
  | .a => { x with a := false }
  | .b => { x with b := false }

def PortSet.isEmpty (x : PortSet) : Bool := !x.a && !x.b

def PortSet.empty : PortSet := { a := false, b := false }

def Biu.port (x : Biu) : BusPort → PortState
  | .a => x.portA
  | .b => x.portB

def Biu.setPort (x : Biu) (p : BusPort) (st : PortState) : Biu :=
  match p with
  | .a => { x with portA := st }
  | .b => { x with portB := st }

def Biu.fwd (x : Biu) : BusPort → List FwdEntry
  | .a => x.fwdA
  | .b => x.fwdB

def Biu.setFwd (x : Biu) (p : BusPort) (q : List FwdEntry) : Biu :=
  match p with
  | .a => { x with fwdA := q }
  | .b => { x with fwdB := q }

def State.setPort (p : BusPort) (st : PortState) (s : State) : State := { s with biu := s.biu.setPort p st }

def State.setFwd (p : BusPort) (q : List FwdEntry) (s : State) : State := { s with biu := s.biu.setFwd p q }

def State.setQueue (q : List QueueEntry) (s : State) : State := { s with biu := { s.biu with queue := q } }

/-- The attempt count of an entry on a port (R3). -/
def QueueEntry.attempts (e : QueueEntry) : BusPort → Nat
  | .a => e.attemptsA
  | .b => e.attemptsB

def QueueEntry.setAttempts (e : QueueEntry) (p : BusPort) (k : Nat) : QueueEntry :=
  match p with
  | .a => { e with attemptsA := k }
  | .b => { e with attemptsB := k }

/-! ## Links -/

/-- The record of a link, absent where the link has no descriptor (section 6.1). -/
def State.link (s : State) (l : Fin 8) : Option LinkRec := s.lsup.links[l]

def State.setLink (l : Fin 8) (r : LinkRec) (s : State) : State :=
  { s with lsup := { s.lsup with links := s.lsup.links.set l (some r) } }

/-- Change the record of a link, if it has one. -/
def State.modLink (l : Fin 8) (f : LinkRec → LinkRec) (s : State) : State :=
  match s.link l with
  | some r => s.setLink l (f r)
  | none => s

/-- A link's effective class: the link class, raised by 4 while its on-air mark is set (R77). -/
def State.effectiveClass (s : State) (l : Fin 8) : Nat :=
  (match s.link l with | some r => r.cls | none => 0) + (if s.tally.onAir[l] then 4 else 0)

/-! ## The transmit queue -/

/-- A bulletin as a block hands it to the BIU (R8). -/
structure Offer where
  kind   : Kind
  urgent : Bool
  target : Nat
  body   : List Byte
  key    : Option SubjectKey
  block  : Block
  ticket : Ticket
  deriving DecidableEq, Repr

/-- The BIU completes the header (R8, R192); `urgent` is the priority of the entry that will hold it (log 12). -/
def State.build (s : State) (o : Offer) (urgent : Bool) : Bulletin :=
  { kind := o.kind.code, origin := byte s.station, target := byte o.target,
    hopPrio := byte (s.image.hops + if urgent then 128 else 0), body := o.body }

/-- The queue takes offers in ACTIVE, and in LEAVING those of the entry into LEAVING (R8, R35, log 13). -/
def State.takesOffers (s : State) : Bool :=
  match s.phase with
  | .active => true
  | .leaving => s.biu.leaveOffers
  | .loading | .halted | .joining | .silent => false

/-- The set of every enabled port. -/
def State.allPorts (s : State) : PortSet := { a := s.image.portA, b := s.image.portB }

/-- The queued entry with a subject key (R9). -/
def State.queued (s : State) (key : Option SubjectKey) : Option QueueEntry :=
  s.biu.queue.find? fun e => key.isSome && e.key == key

def State.removeQueued (age : Nat) (s : State) : State :=
  s.setQueue (s.biu.queue.filter fun e => e.age != age)

/-- A PLAN_YIELD removes a queued PLAN_CLAIM or PLAN_HOLD for its plan entry (R9). -/
def Offer.supersedes (o : Offer) (e : QueueEntry) : Bool :=
  match o.key with
  | some (.plan .planYield l sp) =>
    e.key == some (.plan .planClaim l sp) || e.key == some (.plan .planHold l sp)
  | _ => false

def State.dropSuperseded (o : Offer) (s : State) : State :=
  s.setQueue (s.biu.queue.filter fun e => !o.supersedes e)

/-- An entry's content is replaced by a new bulletin (R9): it keeps its age and its priority. -/
def QueueEntry.replace (s : State) (o : Offer) (e : QueueEntry) : QueueEntry :=
  { e with bulletin := s.build o e.urgent, version := e.version + 1, block := o.block, ticket := o.ticket,
           pending := s.allPorts, sent := PortSet.empty, attemptsA := 0, attemptsB := 0 }

def State.replaceQueued (age : Nat) (o : Offer) (s : State) : State :=
  s.setQueue (s.biu.queue.map fun e => if e.age = age then e.replace s o else e)

/-- The new entry becomes the youngest (R8). -/
def State.appendEntry (o : Offer) (s : State) : State :=
  let e : QueueEntry :=
    { bulletin := s.build o o.urgent, version := 0, urgent := o.urgent, key := o.key, age := s.biu.nextAge,
      block := o.block, ticket := o.ticket, pending := s.allPorts, sent := PortSet.empty, attemptsA := 0, attemptsB := 0 }
  { s with biu := { s.biu with queue := s.biu.queue ++ [e], nextAge := s.biu.nextAge + 1 } }

/-- A port is driving this content of this entry (R10, R11, log 11). -/
def PortState.isSending (st : PortState) (e : QueueEntry) : Bool :=
  match st with
  | .sending tx => tx.source == .own e.age e.version
  | .idle | .receiving | .backoff _ _ _ => false

/-- The youngest NORMAL entry that no port is sending (R11). -/
def State.victim (s : State) : Option QueueEntry :=
  (s.biu.queue.filter fun e => !e.urgent && !s.biu.portA.isSending e && !s.biu.portB.isSending e).getLast?

/-- A sighting refused at its offer or by eviction (R113): the last announced state goes back. -/
def State.sightingRefused (l : Fin 8) (sp : Span) (bad : Bool) (s : State) : State :=
  s.modLink l fun r =>
    if r.current = some sp ∧ r.announcedBad = bad then { r with announcedBad := !bad } else r

/-- The delivery state of a held capture follows the report on its CAPTURE (R189, log 25). -/
def State.captureReport (k : Fin 4) (age : Nat) (d : Delivery) (s : State) : State :=
  let r := s.mgmt.rules[k]
  match r.held with
  | some h =>
    if h.age = some age then
      { s with mgmt := { s.mgmt with rules := s.mgmt.rules.set k { r with held := some { h with delivery := d } } } }
    else s
  | none => s

/-- The report an evicted entry's block is told: SENT where a port has sent it, REFUSED otherwise (R11). A NORMAL
claim is a refresh of a claim already sent, on which no report has an effect (R66). -/
def State.reportEvicted (e : QueueEntry) (s : State) : State :=
  match e.ticket with
  | .sighting l sp bad => if e.sent.isEmpty then s.sightingRefused l sp bad else s
  | .capture k => s.captureReport k e.age (if e.sent.isEmpty then .refused else .sent)
  | .claim _ _ | .none => s

def State.evict (e : QueueEntry) (s : State) : State :=
  ((s.removeQueued e.age).count .txQueueRefused (some e.bulletin.length)).reportEvicted e

/-- The refusal of a new bulletin by a full queue (R11). -/
def State.refuseOffer (o : Offer) (s : State) : State :=
  s.count .txQueueRefused (some (7 + o.body.length))

/-- A bulletin that needs a new entry (R8, R11): the new entry's age, or nothing where it is REFUSED. -/
def State.addEntry (o : Offer) (s : State) : State × Option Nat :=
  if s.biu.queue.length < 16 then (s.appendEntry o, some s.biu.nextAge)
  else if o.urgent then
    match s.victim with
    | some v => ((s.evict v).appendEntry o, some s.biu.nextAge)
    | none => (s.refuseOffer o, none)
  else (s.refuseOffer o, none)

/-- A block hands a bulletin to the BIU (R8, R9, R11). The answer is the age of the entry that holds it, or nothing
where the block is told REFUSED. -/
def State.offer (o : Offer) (s : State) : State × Option Nat :=
  if s.takesOffers then
    let s := s.dropSuperseded o
    match s.queued o.key with
    | some e =>
      if o.urgent && !e.urgent then (s.removeQueued e.age).addEntry o
      else (s.replaceQueued e.age o, some e.age)
    | none => s.addEntry o
  else (s, none)

/-- An offer whose answer has no effect on the offering block. -/
def State.offered (o : Offer) (s : State) : State := (s.offer o).1

/-! ## Replies to tasks -/

/-- Return codes (section 10.1). -/
inductive ReturnCode where
  | done | refused | busy | timedOut | badParam | unknownTask
  deriving DecidableEq, Repr

def ReturnCode.code : ReturnCode → Byte
  | .done => 0 | .refused => 1 | .busy => 2 | .timedOut => 3 | .badParam => 4 | .unknownTask => 5

/-- A TASK_REPLY to the task's origin (R180). -/
def State.reply (urgent : Bool) (origin tag : Nat) (code : Byte) (ret : ReturnCode) (data : List Byte) (s : State) :
    State :=
  s.offered { kind := .taskReply, urgent, target := origin, body := byte tag :: code :: ret.code :: data, key := none,
              block := .mgmt, ticket := .none }

end Sys2Proof.Machine
end

