-- ==== Sys2Proof/Machine/Plan.lean ====
section
/-! DEFINITION. The plan engine's tests and replica (chapter 3): the hard conflict and intermodulation tests, ranking,
quarantine, peer entries, the overfull condition, candidate search and the pin check. -/

namespace Sys2Proof.Machine

/-! ## Spans -/

def Span.width (sp : Span) : Nat := sp.high - sp.low + 1

/-- A span is narrow when its width is at most 4 (section 6 of the introduction). -/
def Span.narrow (sp : Span) : Bool := Span.width sp ≤ 4

/-- The centre of a narrow span. -/
def Span.centre (sp : Span) : Nat := sp.low + (Span.width sp - 1) / 2

/-- The hard conflict test (R48) with guard `g`. -/
def conflictsHard (g : Nat) (x y : Span) : Bool :=
  x.band == y.band && decide (x.low ≤ y.high + g) && decide (y.low ≤ x.high + g)

/-- Two spans conflict hard under the guard of their band. -/
def State.conflicts (s : State) (x y : Span) : Bool := conflictsHard (s.guard x.band) x y

/-- Overlap with a quarantine entry (R55): one shared channel, no guard. -/
def overlaps (x y : Span) : Bool := x.band == y.band && decide (x.low ≤ y.high) && decide (y.low ≤ x.high)

/-! ## The table -/

def State.ownEntry (s : State) (i : Fin 16) : Option OwnEntry := s.plan.own[i]

def State.setOwn (i : Fin 16) (e : Option OwnEntry) (s : State) : State :=
  { s with plan := { s.plan with own := s.plan.own.set i e } }

def State.setPeer (j : Fin 96) (e : Option PeerEntry) (s : State) : State :=
  { s with plan := { s.plan with peers := s.plan.peers.set j e } }

/-- The own entries, in slot order. -/
def State.owns (s : State) : List OwnEntry := s.plan.own.toList.filterMap id

/-- The peer entries, in slot order. -/
def State.peers (s : State) : List PeerEntry := s.plan.peers.toList.filterMap id

/-- The slot of the own entry of a link and span; within one station these two are its identity. -/
def State.ownSlot (s : State) (l : Fin 8) (sp : Span) : Option (Fin 16) :=
  (List.finRange 16).find? fun i =>
    match s.ownEntry i with
    | some e => e.link == l && e.span == sp
    | none => false

/-- The standing of the own entry of a link and span, absent where there is none. -/
def State.ownStanding (s : State) (l : Fin 8) (sp : Span) : Option Standing :=
  (s.ownSlot l sp).bind fun i => (s.ownEntry i).map (·.standing)

/-- The spans of the whole table: own and peer entries in every standing. -/
def State.planSpans (s : State) : List Span := s.owns.map (·.span) ++ s.peers.map (·.span)

/-! ## Ranking -/

/-- What enters the ranking (R50, R51). -/
structure Rank where
  cls    : Nat
  held   : Bool
  holder : Nat
  link   : Nat
  deriving DecidableEq, Repr

/-- The ranking (R50): the first comparison that differs decides. -/
def Rank.outranks (x y : Rank) : Bool :=
  if x.cls ≠ y.cls then decide (y.cls < x.cls)
  else if x.held ≠ y.held then x.held
  else if x.holder ≠ y.holder then decide (x.holder < y.holder)
  else decide (x.link < y.link)

def PeerEntry.rank (e : PeerEntry) : Rank := { cls := e.cls, held := e.held, holder := e.holder, link := e.link }

def OwnEntry.rank (s : State) (e : OwnEntry) : Rank :=
  { cls := e.cls, held := e.standing == .held, holder := s.station, link := e.link }

/-- The rank of a received PLAN_CLAIM or PLAN_HOLD (R51). -/
def PlanBody.rank (isHold : Bool) (holder : Nat) (b : PlanBody) : Rank :=
  { cls := b.cls, held := isHold, holder, link := b.link }

/-! ## Quarantine -/

/-- A span goes into the quarantine list (R54): refreshed and moved to the end, or added at the end, the entry nearest
its expiry giving way in a full list. -/
def State.quarantine (sp : Span) (s : State) : State :=
  let entry : QuarantineEntry := { span := sp, expiry := s.after (sec s.image.quarTimeS) }
  let others := s.plan.quarantine.filter fun q => q.span != sp
  let kept := if others.length < 16 then others else others.drop 1
  { s with plan := { s.plan with quarantine := kept ++ [entry] } }

/-- A sighting's severity against the threshold (R52, R53). -/
def State.takeSighting (sp : Span) (severity : Nat) (s : State) : State :=
  if s.image.quarThreshold ≤ severity then s.quarantine sp else s

/-! ## Peer entries -/

/-- The peer slot of a plan entry identity. -/
def State.peerSlot (s : State) (holder link : Nat) (sp : Span) : Option (Fin 96) :=
  (List.finRange 96).find? fun j =>
    match s.plan.peers[j] with
    | some e => e.holder == holder && e.link == link && e.span == sp
    | none => false

/-- The peer slots of one holder and link, with their expiries, in slot order. -/
def State.holderSlots (s : State) (holder link : Nat) : List (Fin 96 × Nat) :=
  (List.finRange 96).filterMap fun j =>
    match s.plan.peers[j] with
    | some e => if e.holder == holder && e.link == link then some (j, e.expiry) else none
    | none => none

/-- The slot with the nearest expiry, the lower-numbered where two expire at one moment (R44). -/
def nearest : List (Fin 96 × Nat) → Option (Fin 96 × Nat)
  | [] => none
  | x :: xs =>
    match nearest xs with
    | none => some x
    | some y => if x.2 ≤ y.2 then some x else some y

/-- The lowest-numbered empty peer slot (R39). -/
def State.emptyPeer (s : State) : Option (Fin 96) :=
  (List.finRange 96).find? fun j => s.plan.peers[j].isNone

/-- A claim or hold that needs a slot finds none (R46). -/
def State.overfullBy (hold len : Nat) (s : State) : State :=
  let s := s.count .planOverfull (some len)
  { s with plan := { s.plan with overfull := true, overfullTimer := some (s.after (3 * tenths hold)) } }

/-- The entry a received claim or hold gives (R40, R41). -/
def State.newPeer (s : State) (isHold : Bool) (holder : Nat) (b : PlanBody) : PeerEntry :=
  { span := b.span, holder, link := b.link, cls := b.cls, held := isHold, hold := b.hold,
    expiry := s.after (3 * tenths b.hold) }

/-- Store a received claim or hold in the replica (R40, R41, R44, R46), and whether an entry of the same holder and link
was replaced. -/
def State.storePeer (isHold : Bool) (holder : Nat) (b : PlanBody) (len : Nat) (s : State) : State × Bool :=
  let e := s.newPeer isHold holder b
  match s.peerSlot holder b.link b.span with
  | some j => (s.setPeer j (some { e with held := isHold || (s.plan.peers[j].map (·.held)).getD false }), false)
  | none =>
    let slots := s.holderSlots holder b.link
    match if slots.length < 2 then none else nearest slots with
    | some (j, _) => (s.setPeer j (some e), true)
    | none =>
      match s.emptyPeer with
      | some j => (s.setPeer j (some e), false)
      | none => (s.overfullBy b.hold len, false)

/-- Remove the peer entry of a yield (R42). -/
def State.removePeer (holder link : Nat) (sp : Span) (s : State) : State :=
  match s.peerSlot holder link sp with
  | some j => s.setPeer j none
  | none => s

/-! ## Candidate search -/

/-- The distance |2x − y − c| of the intermodulation test. -/
def offProduct (x y c : Nat) : Nat := ((2 * x : Int) - y - c).natAbs

/-- The centres of the narrow entries of a band (R49). -/
def State.centres (s : State) (band : Band) : List Nat :=
  (s.planSpans.filter fun sp => sp.band == band && Span.narrow sp).map Span.centre

/-- The three conditions of R49 for a candidate centre `c` over the centres `cs` with tolerance `t`. -/
def intermod (t : Nat) (cs : List Nat) (c : Nat) : Bool :=
  cs.any fun x => cs.any fun y =>
    x != y && (decide (offProduct x y c ≤ t) || decide (offProduct c x y ≤ t) || decide (offProduct x c y ≤ t))

/-- The intermodulation test of a candidate (R49). -/
def State.intermodConflict (s : State) (sp : Span) : Bool :=
  match s.image.tolerance[sp.band.index] with
  | some t => Span.narrow sp && intermod t (s.centres sp.band) (Span.centre sp)
  | none => false

/-- The four tests of R58. -/
def State.acceptable (s : State) (excluded : List Span) (sp : Span) : Bool :=
  !(s.planSpans.any fun x => s.conflicts x sp) && !s.intermodConflict sp
    && !(s.plan.quarantine.any fun q => overlaps q.span sp) && !excluded.contains sp

/-- The lows of one run: `start`, `start` + `step`, ... while low + width − 1 ≤ `high` (R57). -/
def lowsFrom (start step width high : Nat) : List Nat :=
  if start + width ≤ high + 1 then
    (List.range ((high + 1 - (start + width)) / step + 1)).map fun k => start + k * step
  else []

/-- The lows in the order in which they are examined (R57). -/
def searchLows (d : LinkDesc) (pointer : Nat) : List Nat :=
  lowsFrom pointer d.step d.width d.winHigh ++
    (lowsFrom d.winLow d.step d.width d.winHigh).filter fun low => decide (low < pointer)

def candidateAt (d : LinkDesc) (low : Nat) : Span := { band := d.band, low, high := low + d.width - 1 }

/-- PLAN's answers to a search start (R56) and a pin check (R61). -/
inductive SearchAnswer where
  | full | none | current
  | span (sp : Span)
  deriving DecidableEq, Repr

/-- A search start (R56 to R59). -/
def State.searchStart (s : State) (d : LinkDesc) (pointer : Nat) (excluded : List Span) : SearchAnswer :=
  if s.plan.overfull then .full
  else match ((searchLows d pointer).map (candidateAt d)).find? (s.acceptable excluded) with
    | some sp => .span sp
    | Option.none => .none

/-- A pin check (R61). -/
def State.pinCheck (s : State) (l : Fin 8) (sp : Span) : SearchAnswer :=
  if s.plan.overfull then .full
  else if s.ownStanding l sp = some .held then .current
  else if s.owns.any (fun e => s.conflicts e.span sp) then .none
  else .span sp

end Sys2Proof.Machine
end

