-- ==== Sys2Proof/Machine/Claims.lean ====
section
/-! DEFINITION. The station's own plan entries (chapter 4): claim start, sending a claim, the claim period, defence, hold
refresh, preemption and yield. What PLAN tells LSUP comes back as a list of reports, in the order LSUP takes them. -/

namespace Sys2Proof.Machine

/-- What PLAN tells LSUP of an own entry. -/
inductive PlanReport where
  | held | lostRank | busFault | preempted | yielded | allowanceExpired
  deriving DecidableEq, Repr

/-- A report, which names its own entry by link and span (R62). -/
structure PlanNews where
  report : PlanReport
  link   : Fin 8
  span   : Span
  deriving DecidableEq, Repr

/-- PLAN's answer to a claim start (R63, R64); `pending` where the entry was made and the answer comes later. -/
inductive ClaimAnswer where
  | full | refused | lostRank | pending
  deriving DecidableEq, Repr

/-! ## The bulletins of an own entry -/

/-- A PLAN_CLAIM or PLAN_HOLD of an own entry at a class (section 11.1). -/
def OwnEntry.announce (k : Kind) (urgent : Bool) (cls : Nat) (ticket : Ticket) (e : OwnEntry) : Offer :=
  { kind := k, urgent, target := 0, body := Span.bytes e.span ++ [byte e.link, byte cls, byte e.hold],
    key := some (.plan k e.link e.span), block := .plan, ticket }

/-- The PLAN_YIELD of an own entry (R82). -/
def OwnEntry.yieldOffer (e : OwnEntry) : Offer :=
  { kind := .planYield, urgent := true, target := 0, body := Span.bytes e.span ++ [byte e.link],
    key := some (.plan .planYield e.link e.span), block := .plan, ticket := .none }

/-- Change the own entry in a slot, if there is one. -/
def State.modOwn (i : Fin 16) (f : OwnEntry → OwnEntry) (s : State) : State :=
  match s.ownEntry i with
  | some e => s.setOwn i (some (f e))
  | none => s

/-- Offer a claim with its entry's fixed class (R65), and whether the queue took it. -/
def State.offerClaim (urgent : Bool) (e : OwnEntry) (s : State) : State × Bool :=
  let r := s.offer (e.announce .planClaim urgent e.cls (.claim e.link e.span))
  (r.1, r.2.isSome)

/-- Offer a hold at the link's effective class; the class field takes it when the hold is queued (R75, R77, R78). -/
def State.announceHold (urgent : Bool) (i : Fin 16) (s : State) : State :=
  match s.ownEntry i with
  | none => s
  | some e =>
    let c := s.effectiveClass e.link
    let r := s.offer (e.announce .planHold urgent c .none)
    if r.2.isSome then r.1.setOwn i (some { e with cls := c }) else r.1

/-- Remove an own entry, with its yield (R82). -/
def State.removeOwn (i : Fin 16) (s : State) : State :=
  match s.ownEntry i with
  | some e => (s.setOwn i none).offered e.yieldOffer
  | none => s

/-- LSUP asks for a yield (R81). One that names no own entry has no effect. -/
def State.yieldRequest (l : Fin 8) (sp : Span) (s : State) : State :=
  match s.ownSlot l sp with
  | some i => s.removeOwn i
  | none => s

/-- The yield of every own entry of a link that a test picks, in slot order (DESIGN CHOICE, log 40). -/
def State.yieldWhere (l : Fin 8) (p : OwnEntry → Bool) (s : State) : State :=
  (List.finRange 16).foldl (fun s i =>
    match s.ownEntry i with
    | some e => if e.link = l ∧ p e then s.removeOwn i else s
    | none => s) s

/-! ## Claim start and sending -/

/-- A send failure of a claim not yet sent (R67): the first is retried, after the retry wait where the queue refused it;
the second fails the claim. -/
def State.sendFailure (refused : Bool) (i : Fin 16) (s : State) : State × List PlanNews :=
  match s.ownEntry i with
  | none => (s, [])
  | some e =>
    let fault : List PlanNews := [{ report := .busFault, link := e.link, span := e.span }]
    if e.failures = 0 then
      if refused then (s.setOwn i (some { e with failures := 1, window := some (s.after (ms 250)) }), [])
      else
        let again := { e with failures := 1 }
        let r := (s.setOwn i (some again)).offerClaim true again
        if r.2 then (r.1, []) else (r.1.removeOwn i, fault)
    else (s.removeOwn i, fault)

/-- The lowest-numbered empty own slot (R62). -/
def State.emptyOwn (s : State) : Option (Fin 16) := (List.finRange 16).find? fun i => (s.ownEntry i).isNone

/-- The peer entries that conflict hard with a span, in slot order. -/
def State.rivals (s : State) (sp : Span) : List PeerEntry := s.peers.filter fun e => s.conflicts e.span sp

/-- A new own entry (R65). -/
def State.newOwn (s : State) (l : Fin 8) (sp : Span) : OwnEntry :=
  { span := sp, link := l, cls := s.effectiveClass l, standing := .tentative, hold := s.image.hold, sent := false,
    failures := 0, window := none,
    pendingYield := ((((s.rivals sp).filter fun e => e.held).map fun e => (e.holder, e.link)).eraseDups).take 4,
    allowance := none, refresh := none, defend := none, owed := false }

/-- A claim start (R63, R64, R65). A station has at most eight links with two entries each, so a slot is always empty. -/
def State.claimStart (l : Fin 8) (sp : Span) (s : State) : State × ClaimAnswer :=
  let mine := s.owns.filter fun e => e.link == l
  if s.phase ≠ .active then (s, .refused)
  else if s.plan.overfull then (s, .full)
  else if mine.any (fun e => e.standing == .tentative) || decide (2 ≤ mine.length) then (s, .refused)
  else if s.owns.any (fun e => s.conflicts e.span sp) then (s, .refused)
  else if (s.rivals sp).any (fun e => e.rank.outranks ((s.newOwn l sp).rank s)) then
    (s.count .planConflictLost none, .lostRank)
  else match s.emptyOwn with
    | none => (s, .refused)
    | some i =>
      let e := s.newOwn l sp
      let r := (s.setOwn i (some e)).offerClaim true e
      if r.2 then (r.1, .pending) else ((r.1.sendFailure true i).1, .pending)

/-- A SENT report for a claim (R66). -/
def State.claimSent (l : Fin 8) (sp : Span) (s : State) : State :=
  match s.ownSlot l sp with
  | some i => s.modOwn i fun e =>
      if e.standing = .tentative ∧ e.sent = false then
        { e with sent := true, window := some (s.after (ms 250)), refresh := some (s.after (tenths e.hold)) }
      else e
  | none => s

/-- An ABANDONED report for a claim (R67). -/
def State.claimAbandoned (l : Fin 8) (sp : Span) (s : State) : State × List PlanNews :=
  match s.ownSlot l sp with
  | some i =>
    match s.ownEntry i with
    | some e => if e.standing = .tentative ∧ e.sent = false then s.sendFailure false i else (s, [])
    | none => (s, [])
  | none => (s, [])

/-! ## Becoming HELD -/

/-- The entry becomes HELD (R72). PLAN's own steps stand before LSUP's answer to the report (log 14). -/
def State.becomeHeld (i : Fin 16) (s : State) : State × List PlanNews :=
  match s.ownEntry i with
  | none => (s, [])
  | some e =>
    let s := s.setOwn i (some { e with standing := .held, window := none, allowance := none, pendingYield := [] })
    let s := s.announceHold false i
    (s.modOwn i fun e => { e with refresh := some (s.after (tenths e.hold)) },
      [{ report := .held, link := e.link, span := e.span }])

/-- A pair leaves the pending-yield set of a TENTATIVE own entry (R71). -/
def State.dropPair (pair : Nat × Nat) (i : Fin 16) (s : State) : State × List PlanNews :=
  match s.ownEntry i with
  | none => (s, [])
  | some e =>
    let left := e.pendingYield.filter fun p => p != pair
    let s := s.setOwn i (some { e with pendingYield := left })
    if left = [] ∧ e.allowance.isSome then s.becomeHeld i else (s, [])

/-- A TENTATIVE own entry waits for a pair. -/
def OwnEntry.waitsFor (pair : Nat × Nat) (e : OwnEntry) : Bool :=
  e.standing == .tentative && e.pendingYield.contains pair

/-- Go through the own slots in order, collecting what LSUP is told. -/
def State.overOwns (f : Fin 16 → State → State × List PlanNews) (s : State) : State × List PlanNews :=
  (List.finRange 16).foldl (fun acc i => ((f i acc.1).1, acc.2 ++ (f i acc.1).2)) (s, [])

/-- A yield of a holder's link for a span acts on the pending-yield sets (R71). -/
def State.pairYielded (holder link : Nat) (sp : Span) (s : State) : State × List PlanNews :=
  s.overOwns fun i s =>
    match s.ownEntry i with
    | some e => if e.waitsFor (holder, link) && s.conflicts e.span sp then s.dropPair (holder, link) i else (s, [])
    | none => (s, [])

/-- A peer entry of a pair has gone by expiry or replacement (R71). -/
def State.pairRemoved (holder link : Nat) (s : State) : State × List PlanNews :=
  s.overOwns fun i s =>
    match s.ownEntry i with
    | some e =>
      if e.waitsFor (holder, link)
          && !((s.rivals e.span).any fun p => p.holder == holder && p.link == link)
      then s.dropPair (holder, link) i else (s, [])
    | none => (s, [])

/-! ## Defence -/

/-- The defence for the entry's standing: a hold if HELD, a claim if TENTATIVE (R69, R75, R76). -/
def State.sendDefence (i : Fin 16) (s : State) : State :=
  match s.ownEntry i with
  | some e =>
    match e.standing with
    | .held => s.announceHold true i
    | .tentative => (s.offerClaim true e).1
    | .yielding => s
  | none => s

/-- A defence becomes due (R76). -/
def State.defend (i : Fin 16) (s : State) : State :=
  match s.ownEntry i with
  | some e =>
    if e.defend.isSome then s.setOwn i (some { e with owed := true })
    else (s.sendDefence i).modOwn i fun e => { e with defend := some (s.after (ms 100)) }
  | none => s

/-! ## Arrivals -/

/-- A claim is lost to an arrival of `len` bytes (R68). -/
def State.claimLost (len : Nat) (i : Fin 16) (e : OwnEntry) (s : State) : State × List PlanNews :=
  ((s.removeOwn i).count .planConflictLost (some len), [{ report := .lostRank, link := e.link, span := e.span }])

/-- The older YIELDING own entry of an entry's link, in another slot (R79 step 3). -/
def State.olderYielding (i : Fin 16) (l : Fin 8) (s : State) : Option (Fin 16 × OwnEntry) :=
  (List.finRange 16).findSome? fun j =>
    match s.ownEntry j with
    | some o => if j ≠ i ∧ o.link = l ∧ o.standing = .yielding then some (j, o) else none
    | none => none

/-- An entry that turns YIELDING, with its yield allowance (R79). -/
def OwnEntry.preempted (expiry : Nat) (e : OwnEntry) : OwnEntry :=
  { e with standing := .yielding, refresh := none, defend := none, owed := false, allowance := some expiry }

/-- A HELD own entry is preempted by an arrival of `len` bytes (R79). -/
def State.preempt (len : Nat) (i : Fin 16) (e : OwnEntry) (s : State) : State × List PlanNews :=
  let older := s.olderYielding i e.link
  let s := s.setOwn i (some (OwnEntry.preempted (s.after (ms 2000)) e))
  let news : PlanNews := { report := .preempted, link := e.link, span := e.span }
  match older with
  | some (j, o) =>
    ((s.removeOwn j).count .planPreempted (some len), [{ report := .yielded, link := o.link, span := o.span }, news])
  | none => (s.count .planPreempted (some len), [news])

/-- A weaker hold joins its pair to the pending-yield set of a TENTATIVE own entry (R70). -/
def OwnEntry.addPair (pair : Nat × Nat) (e : OwnEntry) : OwnEntry :=
  if e.pendingYield.contains pair || decide (4 ≤ e.pendingYield.length) then e
  else { e with pendingYield := e.pendingYield ++ [pair] }

/-- One received claim or hold against one own entry (R68 to R70, R75, R79, R83). -/
def State.testOwn (isHold : Bool) (holder : Nat) (b : PlanBody) (len : Nat) (i : Fin 16) (s : State) :
    State × List PlanNews :=
  match s.ownEntry i with
  | none => (s, [])
  | some e =>
    if s.conflicts e.span b.span then
      let wins := (b.rank isHold holder).outranks (e.rank s)
      match e.standing with
      | .tentative =>
        if wins then s.claimLost len i e
        else
          let s := if isHold then s.setOwn i (some (e.addPair (holder, b.link))) else s
          (if e.sent then s.defend i else s, [])
      | .held => if wins then s.preempt len i e else (s.defend i, [])
      | .yielding => (s, [])
    else (s, [])

/-- A PLAN_CLAIM or PLAN_HOLD that passes R38: the replica first, then the own entries (R40, R41, R45, R71, R83). The removal
of R44 acts on the pending-yield sets before any own entry is tested (DESIGN CHOICE, log 40). -/
def State.planArrival (isHold : Bool) (holder : Nat) (b : PlanBody) (len : Nat) (s : State) : State × List PlanNews :=
  let stored := s.storePeer isHold holder b len
  let r := if stored.2 then stored.1.pairRemoved holder b.link else (stored.1, [])
  let t := r.1.overOwns (State.testOwn isHold holder b len)
  (t.1, r.2 ++ t.2)

/-- A PLAN_YIELD that passes R38 (R42, R71). -/
def State.planYielded (holder link : Nat) (sp : Span) (s : State) : State × List PlanNews :=
  (s.removePeer holder link sp).pairYielded holder link sp

/-! ## Timers of an own entry -/

/-- The retry wait of a refused claim runs out (R67). -/
def State.retryClaim (i : Fin 16) (s : State) : State × List PlanNews :=
  match s.ownEntry i with
  | some e =>
    let r := (s.setOwn i (some { e with window := none })).offerClaim true e
    if r.2 then (r.1, []) else r.1.sendFailure true i
  | none => (s, [])

/-- The claim window runs out (R72). -/
def State.closeWindow (i : Fin 16) (s : State) : State × List PlanNews :=
  match s.ownEntry i with
  | some e =>
    if e.pendingYield = [] then s.becomeHeld i
    else (s.setOwn i (some { e with window := none, allowance := some (s.after (ms 2000)) }), [])
  | none => (s, [])

/-- Remove every peer entry of some pairs that conflicts hard with a span (R73). -/
def State.removeRivals (pairs : List (Nat × Nat)) (sp : Span) (s : State) : State :=
  { s with plan := { s.plan with peers := s.plan.peers.map fun p =>
      match p with
      | some e => if pairs.contains (e.holder, e.link) && s.conflicts e.span sp then none else some e
      | none => none } }

/-- The yield allowance of a TENTATIVE entry runs out (R73). -/
def State.endAllowance (i : Fin 16) (s : State) : State × List PlanNews :=
  match s.ownEntry i with
  | some e => (s.removeRivals e.pendingYield e.span).becomeHeld i
  | none => (s, [])

/-- A claim refresh (R74). -/
def State.refreshClaim (i : Fin 16) (s : State) : State :=
  match s.ownEntry i with
  | some e => (s.offerClaim false e).1.modOwn i fun e => { e with refresh := some (s.after (tenths e.hold)) }
  | none => s

/-- A hold refresh (R77). -/
def State.refreshHold (i : Fin 16) (s : State) : State :=
  (s.announceHold false i).modOwn i fun e => { e with refresh := some (s.after (tenths e.hold)) }

/-- The defend hold-off runs out (R76). -/
def State.endHoldOff (i : Fin 16) (s : State) : State :=
  match s.ownEntry i with
  | some e =>
    let idle := s.setOwn i (some { e with owed := false, defend := none })
    if e.owed ∧ (e.standing = .held ∨ (e.standing = .tentative ∧ e.sent = true)) then
      (idle.sendDefence i).modOwn i fun e => { e with defend := some (s.after (ms 100)) }
    else idle
  | none => s

/-- The yield allowance of a YIELDING entry runs out (R80): it stays YIELDING with no timer. -/
def State.allowanceOver (i : Fin 16) (s : State) : State × List PlanNews :=
  match s.ownEntry i with
  | some e =>
    (s.setOwn i (some { e with allowance := none }), [{ report := .allowanceExpired, link := e.link, span := e.span }])
  | none => (s, [])

/-- The holds that follow a change of a link's on-air mark (R78). -/
def State.onAirHolds (l : Fin 8) (s : State) : State :=
  (List.finRange 16).foldl (fun s i =>
    match s.ownEntry i with
    | some e => if e.link = l ∧ e.standing = .held then s.announceHold false i else s
    | none => s) s

end Sys2Proof.Machine
end

