-- ==== Sys2Proof/Machine/Radio.lean ====
section
/-! DEFINITION. The radio port (chapter 5): the pending commands and the line, and the requests to tune, to mute and to
show a lamp colour. -/

namespace Sys2Proof.Machine

def RadioCmd.isTune (c : RadioCmd) : Bool :=
  match c.kind with
  | .tune _ _ => true
  | .mute | .lamp _ => false

def RadioCmd.isMute (c : RadioCmd) : Bool :=
  match c.kind with
  | .mute => true
  | .tune _ _ | .lamp _ => false

def RadioCmd.isLamp (c : RadioCmd) : Bool :=
  match c.kind with
  | .lamp _ => true
  | .tune _ _ | .mute => false

/-- A command of some kind is pending for an address, from an earlier event or from this one. -/
def Rport.isPending (x : Rport) (a : Fin 8) (kind : RadioCmd → Bool) : Bool :=
  (x.pending ++ x.fresh).any fun c => c.addr == a && kind c

def State.fe (s : State) (a : Fin 8) : FrontEnd := s.rport.fe[a]

def State.setFe (a : Fin 8) (r : FrontEnd) (s : State) : State :=
  { s with rport := { s.rport with fe := s.rport.fe.set a r } }

/-- A command becomes pending at this event (R85, log 16). -/
def State.queueCmd (c : RadioCmd) (s : State) : State :=
  { s with rport := { s.rport with fresh := s.rport.fresh ++ [c] } }

/-- Change the pending commands in place, each keeping its age. -/
def State.mapCmds (f : RadioCmd → RadioCmd) (s : State) : State :=
  { s with rport := { s.rport with pending := s.rport.pending.map f, fresh := s.rport.fresh.map f } }

/-- Withdraw pending commands. -/
def State.dropCmds (p : RadioCmd → Bool) (s : State) : State :=
  { s with rport := { s.rport with pending := s.rport.pending.filter (fun c => !p c),
                                   fresh := s.rport.fresh.filter (fun c => !p c) } }

/-- Withdraw the pending TUNE of an address (R90, R94). -/
def State.withdrawTune (a : Fin 8) (s : State) : State := s.dropCmds fun c => c.addr == a && c.isTune

/-- A MUTE joins the list, unless one is already pending (R90). -/
def State.queueMute (a : Fin 8) (s : State) : State :=
  if s.rport.isPending a RadioCmd.isMute then s else s.queueCmd { addr := a, kind := .mute }

/-- What a MUTE request puts on the line (R90): a pending TUNE gives it its place and its age. -/
def State.muteLine (a : Fin 8) (s : State) : State :=
  if s.rport.isPending a RadioCmd.isTune then
    if s.rport.isPending a RadioCmd.isMute then s.withdrawTune a
    else s.mapCmds fun c => if c.addr = a ∧ c.isTune then { c with kind := .mute } else c
  else s.queueMute a

/-- A record after a MUTE request: MUTED with its tune cancelled, or still in FAULT (R90). -/
def FrontEnd.muted (r : FrontEnd) : FrontEnd :=
  match r.state with
  | .fault => r
  | .muted | .tuning _ | .tuned _ => { r with state := .muted, sent := false, tuneTimer := none }

/-- A MUTE request (R90), always taken. -/
def State.mute (a : Fin 8) (s : State) : State :=
  (s.muteLine a).setFe a (s.fe a).muted

/-- The next tune number (R86). -/
def nextTune (n : Nat) : Nat := (n + 1) % 256

/-- A tune request (R86), and whether it was TAKEN. -/
def State.tune (a : Fin 8) (sp : Span) (s : State) : State × Bool :=
  if s.phase = .active then
    match (s.fe a).state with
    | .muted | .tuned _ =>
      let n := nextTune (s.fe a).tuneNo
      ((s.setFe a { s.fe a with state := .tuning sp, sent := false, tuneNo := n }).queueCmd
        { addr := a, kind := .tune sp n }, true)
    | .tuning _ | .fault => (s, false)
  else (s, false)

/-- TALLY gives a link lamp's colour to RPORT (R91): a pending LAMP takes the colour and keeps its age. -/
def State.lamp (a : Fin 8) (c : Colour) (s : State) : State :=
  if s.rport.isPending a RadioCmd.isLamp then
    s.mapCmds fun x => if x.addr = a ∧ x.isLamp then { x with kind := .lamp c } else x
  else s.queueCmd { addr := a, kind := .lamp c }

/-- The commands of one event take their ages in front-end address order, those of one address in the order they were
requested (R85). -/
def byAddress (l : List RadioCmd) : List RadioCmd :=
  (List.finRange 8).flatMap fun a => l.filter fun c => c.addr == a

/-- A free line takes the oldest pending command and sends its frame (R85). -/
def Rport.takeNext (x : Rport) : Rport :=
  match x.sending, x.pending with
  | none, c :: rest => { x with sending := some c, pending := rest }
  | _, _ => x

/-- The end of an event at the radio port: its commands join the list, and a free line takes the oldest (log 16). -/
def State.settleRadio (s : State) : State :=
  { s with rport := ({ s.rport with pending := s.rport.pending ++ byAddress s.rport.fresh, fresh := [] }).takeNext }

/-- A TUNE frame has left the line (R87): it starts the tune timer where it is still the record's tune. -/
def State.tuneFrameSent (a : Fin 8) (number : Nat) (s : State) : State :=
  let r := s.fe a
  match r.state with
  | .tuning _ =>
    if !r.sent && r.tuneNo == number then s.setFe a { r with sent := true, tuneTimer := some (s.after (ms 1500)) } else s
  | .muted | .tuned _ | .fault => s

/-- A command's frame leaves the line (R85). -/
def State.commandSent (s : State) : State :=
  match s.rport.sending with
  | none => s
  | some c =>
    let s := { s with rport := { s.rport with sending := none } }
    match c.kind with
    | .tune _ n => s.tuneFrameSent c.addr n
    | .mute | .lamp _ => s

/-- The eight MUTE commands at the start of LOADING (R25), every record being MUTED already. -/
def State.loadingMutes (s : State) : State :=
  (List.finRange 8).foldl (fun s a => s.mute a) s

/-- LSUP takes a mailbox (R93): what was in it and whether it was fresh. -/
def State.takeMailbox (a : Fin 8) (s : State) : State × Option Report × Bool :=
  (s.setFe a { s.fe a with fresh := false }, (s.fe a).mailbox, (s.fe a).fresh)

end Sys2Proof.Machine
end

