-- ==== Sys2Proof/Machine/TallyMap.lean ====
section
/-! DEFINITION. The tally map (section 8.3): what the layers mean to this station. Every function here is a question
asked of the records as they stand; none changes anything. -/

namespace Sys2Proof.Machine

/-- The number of a layer that counts from 0. -/
def layerNumber (k : Fin 8) : Nat := k.val + 1

/-- A layer matches a rule's layer key (R146). -/
def keyMatches (r : MapRule) (k : Fin 8) : Bool := maskMatch r.layerValue r.layerMask (BitVec.ofNat 4 (layerNumber k))

/-- A rule matches a state of an input (R147). -/
def stateMatches (r : MapRule) : InputState → Bool
  | .off => false
  | .preview => r.onPreview
  | .program => r.onProgram

/-- The inputs of a rule's range, from 1. -/
def ruleInputs (r : MapRule) : List (Fin 64) := (List.finRange 64).filter fun i => r.inputLow ≤ i + 1 && i + 1 ≤ r.inputHigh

/-- A layer's key matches and the layer is LIVE or STALE (R147). -/
def Layer.seenBy (y : Layer) (r : MapRule) (k : Fin 8) : Bool := keyMatches r k && y.state != .unset

/-- A rule has a match of a kind, PROGRAM or PREVIEW, in a layer (R147). -/
def Layer.matched (y : Layer) (r : MapRule) (k : Fin 8) (st : InputState) : Bool :=
  y.seenBy r k && stateMatches r st && (ruleInputs r).any fun i => y.inputs[i] == st

/-- The layers of one state in which a rule has a match of a kind. -/
def Tally.matchIn (t : Tally) (r : MapRule) (st : InputState) (ls : LayerState) : Bool :=
  (List.finRange 8).any fun k => t.layers[k].state == ls && t.layers[k].matched r k st

/-- A rule has a match of a kind in any layer. -/
def Tally.matches (t : Tally) (r : MapRule) (st : InputState) : Bool := t.matchIn r st .live || t.matchIn r st .stale

/-- A rule has a match (R152). -/
def Tally.hit (t : Tally) (r : MapRule) : Bool := t.matches r .program || t.matches r .preview

/-! ## Lamp lines -/

/-- The lamp image of a rule's winning match of a kind (R149): a match in a LIVE layer beats one in a STALE layer. -/
def Tally.ruleLamp (t : Tally) (r : MapRule) (st : InputState) (colour : Colour) : Option LampImage :=
  if t.matchIn r st .live then some { colour, pattern := .steady }
  else if t.matchIn r st .stale then some { colour, pattern := .slowFlash }
  else none

/-- The image of a TALLY lamp line (R149): PROGRAM before PREVIEW, then the lower-numbered rule. -/
def Tally.lampImage (t : Tally) (rules : List MapRule) (n : Fin 16) : LampImage :=
  let named := rules.filter fun r => r.lamp == some n
  match named.findSome? fun r => t.ruleLamp r .program r.programColour with
  | some x => x
  | none =>
    match named.findSome? fun r => t.ruleLamp r .preview r.previewColour with
    | some x => x
    | none => LampImage.dark

/-! ## Links -/

/-- A link's on-air mark (R150). -/
def Tally.onAirMark (t : Tally) (rules : List MapRule) (l : Fin 8) : Bool :=
  rules.any fun r => r.link == some l && r.onAir && t.matches r .program

/-- A link's lamp colour (R151). -/
def Tally.linkLamp (t : Tally) (rules : List MapRule) (l : Fin 8) : Colour :=
  let lit (st : InputState) := rules.any fun r => r.link == some l && r.linkLamp && t.matches r st
  if t.onAirMark rules l || lit .program then .red
  else if lit .preview then .green
  else .off

/-! ## The two questions of follow talk -/

/-- The programme-input question (R153): the lowest input in PROGRAM, from 1. -/
def Layer.programInput (y : Layer) : Option Nat :=
  if y.state = .unset then none
  else ((List.finRange 64).find? fun i => y.inputs[i] == .program).map fun i => i.val + 1

/-- The follow-targets question (R153): whether a link is among the targets of a layer and input. -/
def State.isFollowTarget (s : State) (k : Fin 8) (input : Nat) (l : Fin 8) : Bool :=
  (match s.link l with | some x => decide (x.desc.kind = .camera) | none => false)
    && s.image.rules.toList.any fun r =>
        r.follow && r.link == some l && keyMatches r k && decide (r.inputLow ≤ input) && decide (input ≤ r.inputHigh)

end Sys2Proof.Machine
end

