-- ==== Sys2Proof/Machine/Settle.lean ====
section
/-! DEFINITION. What follows from the rest of the state at the end of every event: the call lamps (R174), the crosspoint
image and its line (R175, R176), and the radio line (R85); and the drives of a lamp line (R154). -/

namespace Sys2Proof.Machine

/-! ## Call lamps -/

/-- The call slot a port is party to (R166). -/
def Tbk.callOf (t : Tbk) (q : Fin 12) : Option CallRec :=
  (t.calls.toList.filterMap id).find? fun c => c.port == q

/-- The image of a port's call (R174). -/
def Tbk.callImage (t : Tbk) (q : Fin 12) : LampImage :=
  match t.callOf q with
  | none => LampImage.dark
  | some c =>
    match c.state with
    | .ringingOut => { colour := .amber, pattern := .fastFlash }
    | .ringingIn => { colour := .green, pattern := .fastFlash }
    | .connected => { colour := .green, pattern := .steady }

/-- The refusal indication overrides the image while its timer runs (R174). -/
def Tbk.portLamp (t : Tbk) (q : Fin 12) : LampImage :=
  match t.ports[q] with
  | none => LampImage.dark
  | some r => if r.indication.isSome then { colour := .amber, pattern := .steady } else t.callImage q

/-- Phases in which a CALL line shows its port (R174, R177): dark in LOADING and HALTED, OFF in LEAVING and SILENT. -/
def Phase.callLamps : Phase → Bool
  | .joining | .active => true
  | .loading | .halted | .leaving | .silent => false

/-- The image of a CALL lamp line: that of the port that names it. -/
def State.callLamp (s : State) (n : Fin 16) : LampImage :=
  if s.phase.callLamps && s.image.callLamps.getLsbD n then
    match (List.finRange 12).find? fun q => (s.tbk.ports[q]).any fun r => r.callLamp == some n with
    | some q => s.tbk.portLamp q
    | none => LampImage.dark
  else LampImage.dark

def State.settleLamps (s : State) : State :=
  { s with tbk := { s.tbk with lamps := Vector.ofFn fun n => s.callLamp n } }

/-! ## The crosspoint -/

/-- The set that holds one slot. -/
def slotBit (n : Nat) : BitVec 32 := (1 : BitVec 32) <<< n

/-- The slot of a party line (chapter 9). -/
def lineSlot (n : Fin 16) : Nat := n.val + 1

/-- The slot of a circuit. -/
def circuitSlot (c : Fin 15) : Nat := c.val + 17

/-- The circuit of a port's CONNECTED call. -/
def Tbk.connectedCircuit (t : Tbk) (q : Fin 12) : Option (Fin 15) :=
  (t.callOf q).bind fun c => if c.state = .connected then some c.circuit else none

/-- A port entry's listen set (R175). -/
def Tbk.listenSet (t : Tbk) (q : Fin 12) (r : TbPort) : BitVec 32 :=
  let lines := (r.members.filter fun m => m.listen).foldl (fun acc m => acc ||| slotBit (lineSlot m.line)) 0
  match t.connectedCircuit q with
  | some c => lines ||| slotBit (circuitSlot c)
  | none => lines

/-- A port entry's talk slot (R175). -/
def Tbk.talkSlot (t : Tbk) (q : Fin 12) (r : TbPort) : Option Nat :=
  if r.follow.isSome then some 0
  else match r.talk with
    | .talking n _ => some (lineSlot n)
    | .idle | .bumped _ _ => (t.connectedCircuit q).map circuitSlot

/-- A port entry (R175). -/
def Tbk.portEntry (t : Tbk) (q : Fin 12) : XEntry :=
  match t.ports[q] with
  | none => XEntry.empty
  | some r =>
    let listen := t.listenSet q r
    let talk := t.talkSlot q r
    { listen, talk, selfCancel := talk.any fun n => decide (1 ≤ n) && decide (n ≤ 16) && listen.getLsbD n }

/-- A link is a follow target (R165): of some entry of the follow list or some own follow state. -/
def State.followed (s : State) (l : Fin 8) : Bool :=
  (s.tbk.follows.any fun f => s.isFollowTarget f.layer f.input l)
    || (s.tbk.ports.toList.any fun p =>
          match p with
          | some r => (match r.follow with | some f => s.isFollowTarget f.layer f.input l | none => false)
          | none => false)

/-- A return entry (R175): return lines, and slot 0 while the link is a follow target. -/
def State.returnEntry (s : State) (l : Fin 8) : XEntry :=
  match s.link l with
  | none => XEntry.empty
  | some x =>
    if x.desc.kind = .camera then
      { XEntry.empty with
        listen := (x.desc.returnLines.zeroExtend 32 <<< 1) ||| (if s.followed l then slotBit 0 else 0) }
    else XEntry.empty

/-- The content of a crosspoint entry: ports 0 to 11, then return entries (R176). -/
def State.entryContent (s : State) (n : Fin 20) : XEntry :=
  if h : n.val < 12 then s.tbk.portEntry ⟨n.val, h⟩ else s.returnEntry ⟨n.val - 12, by omega⟩

/-- The contents of the entries as an event leaves them (R175), but in LOADING and HALTED, where none is computed. -/
def State.xpComputed (s : State) : Vector XEntry 20 :=
  match s.phase with
  | .loading | .halted => s.tbk.xp.computed
  | .joining | .active | .leaving | .silent => Vector.ofFn fun n => s.entryContent n

/-- The crosspoint image a phase calls for (R24, R27, R33, R175, R177; log 17). In SILENT an entry takes its content when an
event changes it, and else keeps what it has: an image cleared in LEAVING is not filled by the entry into SILENT. -/
def State.xpImage (s : State) : Vector XEntry 20 :=
  match s.phase with
  | .loading | .halted => s.tbk.xp.image
  | .leaving => Vector.replicate 20 XEntry.empty
  | .joining | .active => Vector.ofFn fun n => s.entryContent n
  | .silent => Vector.ofFn fun n : Fin 20 =>
      if s.tbk.xp.computed[n] = s.entryContent n then s.tbk.xp.image[n] else s.entryContent n

/-- A change of an entry's content (R176): it becomes pending, or keeps its place, or waits for the update being sent. -/
def Crosspoint.change (x : Crosspoint) (n : Fin 20) : Crosspoint :=
  if x.sending.any (fun u => u.1 == n) then { x with again := true }
  else if x.pending.contains n then x
  else { x with pending := x.pending ++ [n] }

/-- The image takes its new contents, the changed entries in entry order. -/
def Crosspoint.take (x : Crosspoint) (image computed : Vector XEntry 20) : Crosspoint :=
  { ((List.finRange 20).foldl (fun y n => if x.image[n] = image[n] then y else y.change n) x) with image, computed }

/-- A free line sends the oldest pending entry with its content as it stands (R176). -/
def Crosspoint.sendNext (x : Crosspoint) : Crosspoint :=
  match x.sending, x.pending with
  | none, n :: rest => { x with sending := some (n, x.image[n]), pending := rest, again := false }
  | _, _ => x

def State.settleXp (s : State) : State :=
  { s with tbk := { s.tbk with xp := (s.tbk.xp.take s.xpImage s.xpComputed).sendNext } }

/-- An update leaves the crosspoint line (R176): an entry changed meanwhile is pending again. -/
def State.updateSent (s : State) : State :=
  let x := s.tbk.xp
  match x.sending with
  | none => s
  | some u =>
    { s with tbk := { s.tbk with xp :=
        { x with sending := none, again := false, pending := if x.again then x.pending ++ [u.1] else x.pending } } }

/-! ## The end of an event -/

/-- What closes every event (logs 16 and 17). -/
def State.finish (s : State) : State := s.settleLamps.settleXp.settleRadio

/-- An event that changes the state and ends. -/
def done (s : State) : Host.Outcome State Fault Refusal := .next s.finish

/-! ## Lamp drives -/

/-- Whether a pattern lights its drives at a moment (R154, R174), the flashing lines being in step (log 3). -/
def Pattern.lit (p : Pattern) (now : Nat) : Bool :=
  match p with
  | .steady => true
  | .slowFlash => decide ((now + Config.flashPhase) % 1000000 < 500000)
  | .fastFlash => decide ((now + Config.flashPhase) % 250000 < 125000)

/-- The red and green drives of a lamp image at a moment (R154). -/
def LampImage.drives (x : LampImage) (now : Nat) : Bool × Bool :=
  let on := x.pattern.lit now
  match x.colour with
  | .off => (false, false)
  | .red => (on, false)
  | .green => (false, on)
  | .amber => (on, on)

/-- The image a lamp line shows: TBK's on a CALL line, TALLY's on the others (R154). -/
def State.lampLine (s : State) (n : Fin 16) : LampImage :=
  if s.image.callLamps.getLsbD n then s.tbk.lamps[n] else s.tally.lamps[n]

/-- The red and green drives of a lamp line. -/
def State.lampDrives (s : State) (n : Fin 16) : Bool × Bool := (s.lampLine n).drives s.now

end Sys2Proof.Machine
end

