-- ==== Sys2Proof/Machine/Relocation.lean ====
section
/-! DEFINITION. The relocation operation (chapter 7): search, claim, tune, cutover and return, the ways it ends, and what
overtakes it. LSUP's answers to what PLAN and RPORT tell it. -/

namespace Sys2Proof.Machine

/-! ## Codes of chapter 11 -/

def Cause.code : Cause → Nat
  | .acquire => 0 | .predicted => 1 | .lost => 2 | .preempted => 3 | .taskPin => 4 | .taskMove => 5

def RelocPhase.code : RelocPhase → Nat
  | .search => 0 | .waiting => 1 | .claiming => 2 | .tuning => 3 | .returning => 4

def FailCause.code : FailCause → Nat
  | .noCandidate => 0 | .busFault => 1 | .tuneFailed => 2 | .lostRank => 3 | .refused => 4

/-- A relocation ending with its failure cause (section 11.2). -/
def Ending.bytes : Ending → List Byte
  | .done => [0]
  | .failed c => [1, byte c.code]
  | .abandoned => [2]

/-! ## Requests to the front-end -/

/-- Change the relocation record of a link, if it has one. -/
def State.modReloc (l : Fin 8) (f : Reloc → Reloc) (s : State) : State :=
  s.modLink l fun x => { x with reloc := x.reloc.map f }

/-- The relocation record of a link. -/
def State.reloc (s : State) (l : Fin 8) : Option Reloc := (s.link l).bind (·.reloc)

/-- LSUP asks RPORT to mute a link's front-end, which clears the tune in flight flag (R90, R100). -/
def State.muteLink (l : Fin 8) (s : State) : State :=
  match s.link l with
  | some x => (s.mute x.desc.frontEnd).modLink l fun x => { x with tuneInFlight := false }
  | none => s

/-- The link's current span becomes absent if it is this one. -/
def State.leaveSpan (l : Fin 8) (sp : Span) (s : State) : State :=
  s.modLink l fun x => if x.current = some sp then { x with current := none } else x

/-- The front-end has left the span of any YIELDING entry of the link, by a mute or in muting itself (R80, R81, R133): the
entry is yielded, and the current span becomes absent if it was that one (log 38). -/
def State.leaveYielding (l : Fin 8) (s : State) : State :=
  let yielding := (s.owns.filter fun e => e.link == l && e.standing == .yielding).map (·.span)
  yielding.foldl (fun s sp => s.leaveSpan l sp) (s.yieldWhere l fun e => e.standing == .yielding)

/-- LSUP asks for a tune (R123), first muting a tune in flight, which takes the front-end off the span of a YIELDING entry
(R80); whether RPORT answered TAKEN. -/
def State.issueTune (l : Fin 8) (sp : Span) (s : State) : State × Bool :=
  match s.link l with
  | none => (s, false)
  | some x =>
    let s := if x.tuneInFlight then (s.muteLink l).leaveYielding l else s
    let r := s.tune x.desc.frontEnd sp
    if r.2 then (r.1.modLink l fun x => { x with tuneInFlight := true }, true) else (r.1, false)

/-! ## Ends -/

/-- The end of a long task's relocation (R181): the slot frees and the reply goes out. -/
def State.tellTask (l : Fin 8) (ending : Ending) (s : State) : State :=
  match s.mgmt.longTask with
  | some t =>
    let freed := { s with mgmt := { s.mgmt with longTask := none } }
    freed.reply false t.origin t.tag t.code.code (if ending = .done then .done else .refused)
      (byte l :: (ending.bytes ++ spanOptBytes ((s.link l).bind (·.current))))
  | none => s

/-- The record is removed, its outcome recorded, and a task waiting for it told (R117). -/
def State.endReloc (l : Fin 8) (r : Reloc) (ending : Ending) (s : State) : State :=
  let s := s.modLink l fun x => { x with reloc := none, lastOutcome := some (r.cause, ending) }
  if r.task then s.tellTask l ending else s

/-- On entering ACQUIRING (R128). -/
def LinkRec.acquiring (now : Nat) (x : LinkRec) : LinkRec :=
  { x with state := .acquiring, sampleTimer := none, sightingHoldOff := none, current := none, prediction := none,
           fades := 0, unlocked := 0, acquireRetry := some (now + sec 5) }

/-- The relocation hold-off timer starts at its interval. -/
def LinkRec.holdOff (now : Nat) (x : LinkRec) : LinkRec := { x with relocHoldOff := some (now + sec x.desc.holdOffS) }

/-- The link has an own HELD entry for its current span (R127). -/
def State.holdsCurrent (s : State) (l : Fin 8) : Bool :=
  match (s.link l).bind (·.current) with
  | some sp => decide (s.ownStanding l sp = some .held)
  | none => false

/-- A relocation fails (R127). `force` is a second failed tune, which R126 sends to step 3 whatever the old entry's
standing (log 15). -/
def State.relocFail (l : Fin 8) (cause : FailCause) (force : Bool) (s : State) : State :=
  match s.reloc l with
  | none => s
  | some r =>
    let s := s.count .relocationFailed none
    let s :=
      if s.holdsCurrent l && !force then
        (s.yieldWhere l fun e => (s.link l).bind (·.current) != some e.span).modLink l (LinkRec.holdOff s.now)
      else ((s.muteLink l).yieldWhere l fun _ => true).modLink l (LinkRec.acquiring s.now)
    s.endReloc l r (.failed cause)

/-- The cause a claim or search that cannot go on fails with: REFUSED for a pin (R120, R122, R131). -/
def Reloc.noWay (r : Reloc) : FailCause := if r.cause = .taskPin then .refused else .noCandidate

/-! ## Search and claim -/

/-- The relocation waits for the overfull condition to clear (R121, R122). -/
def Reloc.wait (r : Reloc) : Reloc :=
  { r with phase := .waiting, cand := if r.cause = .taskPin then r.cand else none }

/-- A span is lost: it joins the excluded list and attempts goes up by one (R122, R131). -/
def Reloc.lose (sp : Span) (r : Reloc) : Reloc :=
  { r with excluded := r.excluded ++ [sp], attempts := r.attempts + 1 }

/-- The answer of a pin check or a search start (R119, R120). -/
def State.askPlan (l : Fin 8) (x : LinkRec) (r : Reloc) (s : State) : SearchAnswer :=
  if r.cause = .taskPin then
    match r.cand with
    | some sp => s.pinCheck l sp
    | none => .none
  else s.searchStart x.desc x.pointer r.excluded

/-- SEARCH (R119, R120, R122). A claim lost at once sends a relocation other than a pin back to SEARCH, with one more
attempt behind it; a search never answers a span that is lost at once, so the bound is never used up. -/
def State.searchRun (l : Fin 8) : Nat → State → State
  | 0, s => s
  | n + 1, s =>
    match s.link l, s.reloc l with
    | some x, some r =>
      match s.askPlan l x r with
      | .full => s.modReloc l Reloc.wait
      | .none => s.relocFail l r.noWay false
      | .current => s.endReloc l r .done
      | .span sp =>
        let c := (s.modReloc l fun r => { r with phase := .claiming, cand := some sp }).claimStart l sp
        match c.2 with
        | .pending => c.1
        | .full => c.1.modReloc l Reloc.wait
        | .refused => c.1.relocFail l r.noWay false
        | .lostRank =>
          if r.cause = .taskPin then c.1.relocFail l .refused false
          else
            let s := c.1.modReloc l (Reloc.lose sp)
            if 4 ≤ r.attempts + 1 then s.relocFail l r.noWay false
            else State.searchRun l n (s.modReloc l fun r => { r with phase := .search })
    | _, _ => s

/-- The relocation enters SEARCH (R119). -/
def State.enterSearch (l : Fin 8) (s : State) : State :=
  State.searchRun l 5 (s.modReloc l fun r => { r with phase := .search })

/-- A relocation starts (R118), in ACTIVE, for a link with none. -/
def State.startReloc (l : Fin 8) (cause : Cause) (cand : Option Span) (task override : Bool) (s : State) : State :=
  match s.link l with
  | some x =>
    if s.phase = .active ∧ x.reloc = none then
      (s.setLink l { x with
        acquireRetry := none, pinned := x.pinned || decide (cause = .taskPin),
        reloc := some { cause, phase := .search, old := x.current, cand, excluded := [], attempts := 0, reason := none,
                        task, override } }).enterSearch l
    else s
  | none => s

/-! ## Tuning, cutover and return -/

/-- The span whose own entry is the relocation's old entry (R117), where that may still stand. An own entry keeps every
claim off its span (R63), so a candidate that is the old span again is claimed anew: the old entry has gone. -/
def Reloc.oldEntry (r : Reloc) : Option Span :=
  match r.phase with
  | .search | .waiting => r.old
  | .claiming | .tuning | .returning => if r.cand = r.old then none else r.old

/-- The old entry is still HELD. -/
def State.oldHeld (s : State) (l : Fin 8) (r : Reloc) : Bool :=
  match r.oldEntry with
  | some sp => decide (s.ownStanding l sp = some .held)
  | none => false

/-- RETURNING begins (R125, R131): the tune for the old span, and its second failure where RPORT refuses it (R126). -/
def State.startReturn (l : Fin 8) (old : Span) (reason : FailCause) (s : State) : State :=
  let t := (s.modReloc l fun r => { r with phase := .returning, reason := some reason }).issueTune l old
  if t.2 then t.1 else t.1.relocFail l .tuneFailed true

/-- The tune of a relocation in TUNING has failed (R125). -/
def State.tuneFailed (l : Fin 8) (s : State) : State :=
  match s.reloc l with
  | some r =>
    match r.old with
    | some sp => if s.oldHeld l r then s.startReturn l sp .tuneFailed else s.relocFail l .tuneFailed false
    | none => s.relocFail l .tuneFailed false
  | none => s

/-- The tune of R123 for the HELD candidate. -/
def State.tuneCandidate (l : Fin 8) (s : State) : State :=
  match (s.reloc l).bind (·.cand) with
  | some sp =>
    let t := (s.modReloc l fun r => { r with phase := .tuning }).issueTune l sp
    if t.2 then t.1 else t.1.tuneFailed l
  | none => s

/-- The search pointer after a move to a span (R60). -/
def LinkDesc.advance (d : LinkDesc) (pointer : Nat) (sp : Span) : Nat :=
  if d.winLow ≤ sp.low ∧ sp.low ≤ d.winHigh then
    if d.winHigh + 1 < sp.low + d.step + d.width then d.winLow else sp.low + d.step
  else pointer

/-- Supervision starts afresh (R115). -/
def LinkRec.afresh (now : Nat) (x : LinkRec) : LinkRec :=
  { x with fades := 0, unlocked := 0, previousBad := false, announcedBad := false, lastSeverity := 0,
           prediction := none, sightingHoldOff := none,
           sampleTimer := if x.sampleTimer.isSome then x.sampleTimer else some (now + ms x.sampleMs) }

/-- The cutover (R124). -/
def State.cutover (l : Fin 8) (r : Reloc) (sp : Span) (s : State) : State :=
  let s := match r.oldEntry with
    | some old => s.yieldRequest l old
    | none => s
  let s := s.modLink l fun x =>
    ((LinkRec.afresh s.now { x with current := some sp, state := .up, pointer := LinkDesc.advance x.desc x.pointer sp }).holdOff
      s.now)
  (s.count .relocationDone none).endReloc l r .done

/-- A return tune has reached the old span (R126). -/
def State.returned (l : Fin 8) (r : Reloc) (s : State) : State :=
  let s := match r.cand with
    | some sp => s.yieldRequest l sp
    | none => s
  (s.modLink l fun x => { x with state := .up }).relocFail l (r.reason.getD .tuneFailed) false

/-- The tune in flight flag clears (R100). -/
def State.landTune (l : Fin 8) (s : State) : State := s.modLink l fun x => { x with tuneInFlight := false }

/-- RPORT tells LSUP TUNED_OK (R116, R124, R126). -/
def State.tunedOk (l : Fin 8) (s : State) : State :=
  let s := s.landTune l
  match s.reloc l with
  | some r =>
    match r.phase with
    | .tuning => (match r.cand with | some sp => s.cutover l r sp | none => s)
    | .returning => s.returned l r
    | .search | .waiting | .claiming => s
  | none => s

/-- RPORT tells LSUP FAILED or TIMEOUT (R116, R125, R126). A restore tune that is lost leaves the front-end muted, off the
span of a YIELDING entry (R80). -/
def State.tuneLost (l : Fin 8) (s : State) : State :=
  let s := s.landTune l
  match s.reloc l with
  | some r =>
    match r.phase with
    | .tuning => s.tuneFailed l
    | .returning => s.relocFail l .tuneFailed true
    | .search | .waiting | .claiming => s.leaveYielding l
  | none => s.leaveYielding l

/-! ## What overtakes a relocation -/

/-- LSUP answers a claim lost to a higher rank (R122). -/
def State.hearLostRank (l : Fin 8) (sp : Span) (s : State) : State :=
  match s.reloc l with
  | some r =>
    if r.phase = .claiming ∧ r.cand = some sp then
      let s := s.modReloc l (Reloc.lose sp)
      if 4 ≤ r.attempts + 1 then s.relocFail l r.noWay false else s.enterSearch l
    else s
  | none => s

/-- LSUP answers a claim that could not be sent (R122). -/
def State.hearBusFault (l : Fin 8) (sp : Span) (s : State) : State :=
  match s.reloc l with
  | some r => if r.phase = .claiming ∧ r.cand = some sp then s.relocFail l .busFault false else s
  | none => s

/-- LSUP answers a claim that became HELD (R122). -/
def State.hearHeld (l : Fin 8) (sp : Span) (s : State) : State :=
  match s.reloc l with
  | some r => if r.phase = .claiming ∧ r.cand = some sp then s.tuneCandidate l else s
  | none => s

/-- The candidate of a relocation in TUNING is preempted (R131, log 29). Where the same bulletin has preempted the old entry
too, the mute takes the front-end off its span as well, and it is yielded with the candidate (R80). -/
def State.candidateLost (l : Fin 8) (r : Reloc) (sp : Span) (s : State) : State :=
  let s := (((s.muteLink l).yieldRequest l sp).leaveYielding l).modReloc l (Reloc.lose sp)
  if 4 ≤ r.attempts + 1 then s.relocFail l r.noWay false
  else
    let s := s.modReloc l fun r => { r with cand := if r.cause = .taskPin then r.cand else none }
    match r.old with
    | some old => if s.oldHeld l r then s.startReturn l old .lostRank else s.enterSearch l
    | none => s.enterSearch l

/-- LSUP answers PREEMPTED (R130, R131, R132). A candidate that is yielded in RETURNING stays in the record's field (DESIGN
CHOICE, log 41). -/
def State.hearPreempted (l : Fin 8) (sp : Span) (s : State) : State :=
  match s.link l with
  | none => s
  | some x =>
    match x.reloc with
    | some r =>
      if r.phase = .tuning ∧ r.cand = some sp then s.candidateLost l r sp
      else if r.phase = .returning ∧ r.cand = some sp then s.yieldRequest l sp
      else if r.phase = .returning ∧ r.old = some sp then s.relocFail l .tuneFailed false
      else s
    | none =>
      if x.current = some sp ∧ x.pinned = false then s.startReloc l .preempted none false false else s

/-- A loss relocation, where the link is LOST, not pinned, and has none under way (R103, R105). -/
def State.lossReloc (l : Fin 8) (s : State) : State :=
  match s.link l with
  | some x => if x.state = .lost ∧ x.pinned = false then s.startReloc l .lost none false false else s
  | none => s

/-- A link that was UP enters LOST, and LINK_LOST is counted; a loss relocation starts unless it is pinned or one is under
way (R103, R118, R132, log 35). -/
def State.loseLink (l : Fin 8) (s : State) : State :=
  match s.link l with
  | some x => if x.state = .up then ((s.setLink l { x with state := .lost }).count .linkLost none).lossReloc l else s
  | none => s

/-- LSUP answers ALLOWANCE_EXPIRED (R130, R132): the mute, then the yield. -/
def State.hearAllowance (l : Fin 8) (sp : Span) (s : State) : State :=
  match s.reloc l with
  | some r =>
    if r.old = some sp then
      let s := ((s.muteLink l).yieldRequest l sp).leaveSpan l sp
      if r.phase = .tuning then s.tuneCandidate l else s
    else s
  | none =>
    let held := (s.link l).bind (·.current) = some sp
    let s := ((s.muteLink l).yieldRequest l sp).leaveSpan l sp
    if held then s.loseLink l else s

/-- LSUP takes a report of PLAN. -/
def State.hear (s : State) (n : PlanNews) : State :=
  match n.report with
  | .held => s.hearHeld n.link n.span
  | .lostRank => s.hearLostRank n.link n.span
  | .busFault => s.hearBusFault n.link n.span
  | .preempted => s.hearPreempted n.link n.span
  | .yielded => s.leaveSpan n.link n.span
  | .allowanceExpired => s.hearAllowance n.link n.span

/-- PLAN's part of an event, then LSUP's answers to its reports in order (log 14). -/
def State.withNews (r : State × List PlanNews) : State := r.2.foldl State.hear r.1

/-- TALLY tells LSUP that a link's on-air mark has been set (R129). A relocation that started with no old span has no old
entry that could have been preempted. -/
def State.onAirSet (l : Fin 8) (s : State) : State :=
  match s.reloc l with
  | some r =>
    if (r.cause = .predicted ∨ (r.cause = .taskMove ∧ r.override = false)) ∧ (r.phase = .waiting ∨ r.phase = .claiming) then
      if r.old = none ∨ s.oldHeld l r = true then
        (s.yieldWhere l fun e => e.standing == .tentative).endReloc l r .abandoned
      else s.modReloc l fun r => { r with cause := .preempted }
    else s
  | none => s

/-- PLAN tells LSUP that the overfull condition has cleared (R121), link by link in link order. -/
def State.resumeWaiting (s : State) : State :=
  (List.finRange 8).foldl (fun s l =>
    if (s.reloc l).any (fun r => r.phase == .waiting) then s.enterSearch l else s) s

/-- The acquire retry timer runs out (R128). -/
def State.retryAcquire (l : Fin 8) (s : State) : State :=
  match s.link l with
  | some x =>
    let s := s.setLink l { x with acquireRetry := none }
    if x.state = .acquiring then s.startReloc l .acquire none false false else s
  | none => s

/-- The link a front-end serves. -/
def State.linkOf (s : State) (a : Fin 8) : Option (Fin 8) :=
  (List.finRange 8).find? fun l => (s.link l).any fun x => x.desc.frontEnd == a

/-- RPORT tells LSUP FAULT (R116, R133). -/
def State.hearFault (l : Fin 8) (s : State) : State := (s.landTune l).leaveYielding l

/-- RPORT tells LSUP RECOVERED (R116, R133): the restore tune. -/
def State.hearRecovered (l : Fin 8) (s : State) : State :=
  match s.link l with
  | none => s
  | some x =>
    let resting := match x.reloc with
      | none => true
      | some r => r.phase == .waiting || r.phase == .claiming
    match x.current with
    | some sp =>
      if (x.state = .up ∨ x.state = .lost) ∧ resting = true ∧ s.holdsCurrent l = true then (s.issueTune l sp).1 else s
    | none => s

/-- A link becomes DISABLED (R98). -/
def LinkRec.disabled (x : LinkRec) : LinkRec :=
  { x with state := .disabled, sampleTimer := none, sightingHoldOff := none, relocHoldOff := none, acquireRetry := none,
           tuneInFlight := false, prediction := none, fades := 0, unlocked := 0, current := none, reloc := none }

def State.disableLinks (s : State) : State :=
  { s with lsup := { s.lsup with links := s.lsup.links.map fun x => x.map LinkRec.disabled } }

end Sys2Proof.Machine
end

