-- ==== Sys2Proof/Machine/Tally.lean ====
section
/-! DEFINITION. The tally unit (chapter 8): layers, the source role, contact lines, and the evaluation of the tally map
with what it hands on. -/

namespace Sys2Proof.Machine

/-! ## Debounced lines -/

/-- Phases in which input lines are watched (R24, R27, R29, R141). -/
def Phase.watchesLines : Phase → Bool
  | .joining | .active | .leaving | .silent => true
  | .loading | .halted => false

/-- A change of level starts or restarts the debounce timer (R141, R156). -/
def DebouncedLine.stir (expiry : Nat) (x : DebouncedLine) : DebouncedLine := { x with timer := some expiry }

/-- The level present at the expiry becomes the accepted level (R141, R156). -/
def DebouncedLine.accept (level : Bool) : DebouncedLine := { accepted := level, timer := none }

/-! ## Layers -/

def State.layer (s : State) (k : Fin 8) : Layer := s.tally.layers[k]

def State.setLayer (k : Fin 8) (y : Layer) (s : State) : State :=
  { s with tally := { s.tally with layers := s.tally.layers.set k y } }

def State.source (s : State) (k : Fin 8) : Option Source := s.tally.sources[k]

def State.setSource (k : Fin 8) (x : Option Source) (s : State) : State :=
  { s with tally := { s.tally with sources := s.tally.sources.set k x } }

/-- The source check (R137). -/
def Layer.accepts (y : Layer) (origin : Nat) : Bool :=
  match y.state, y.source with
  | .live, some r => decide (origin ≤ r)
  | _, _ => true

/-- A layer record after an accepted publication (R137). -/
def publishedLayer (now origin : Nat) (b : TallyBody) : Layer :=
  { state := .live, source := some origin, refresh := some b.refresh, count := some b.count, inputs := b.inputs,
    staleTimer := some (now + 3 * tenths b.refresh), unsetTimer := none }

/-- A source layer that hears a lower-numbered source stands by (R144). -/
def State.standBy (k : Fin 8) (origin : Nat) (s : State) : State :=
  match s.source k with
  | some x =>
    if origin < s.station then s.setSource k (some { x with standby := true, refreshTimer := none }) else s
  | none => s

/-! ## Map evaluation -/

/-- The marks, colours and images an evaluation gives (R149, R150, R151) and the hit flags it sets (R152). -/
def Tally.evaluated (t : Tally) (img : Image) : Tally :=
  let rules := img.rules.toList
  { t with
    onAir := Vector.ofFn fun l => t.onAirMark rules l
    linkLamps := Vector.ofFn fun l => t.linkLamp rules l
    lamps := Vector.ofFn fun n => if img.callLamps.getLsbD n then LampImage.dark else t.lampImage rules n
    hits := Vector.ofFn fun k : Fin 32 => t.hits[k] || t.hit img.rules[k] }

/-- A changed on-air mark goes to PLAN and, where it is set, to LSUP (R78, R129, R148). -/
def State.handMark (before : Vector Bool 8) (s : State) (l : Fin 8) : State :=
  if before[l] = s.tally.onAir[l] then s
  else
    let s := s.onAirHolds l
    if s.tally.onAir[l] then s.onAirSet l else s

/-- A changed link lamp colour goes to RPORT (R91, R148). -/
def State.handLamp (before : Vector Colour 8) (s : State) (l : Fin 8) : State :=
  if before[l] = s.tally.linkLamps[l] then s
  else match s.link l with
    | some x => s.lamp x.desc.frontEnd s.tally.linkLamps[l]
    | none => s

/-- The map is evaluated and its changes are handed on (R148), in link order (log 22). -/
def State.evaluate (s : State) : State :=
  let marks := s.tally.onAir
  let lamps := s.tally.linkLamps
  let s := { s with tally := s.tally.evaluated s.image }
  let s := (List.finRange 8).foldl (State.handMark marks) s
  (List.finRange 8).foldl (State.handLamp lamps) s

/-! ## Publications -/

/-- A received publication that passes R136 (R137, R144): accepted, or discarded by the source check. -/
def State.takeLayer (origin : Nat) (b : TallyBody) (len : Nat) (s : State) : State × Disposition :=
  if (s.layer b.layer).accepts origin then
    (((s.setLayer b.layer (publishedLayer s.now origin b)).standBy b.layer origin).evaluate, .accepted)
  else (s.count .rxSourceCheckFail (some len), .sourceCheck)

/-- A contact that is closed and mapped to an input of a layer on a bus (R142). -/
def State.contactOn (s : State) (k : Fin 8) (input : Nat) (program : Bool) : Bool :=
  (List.finRange 32).any fun c =>
    s.tally.contacts[c].accepted && s.image.contacts[c] == some { layer := k, input, program }

/-- The content of a source layer from the accepted contact levels (R142). -/
def State.content (s : State) (k : Fin 8) : Vector InputState 64 :=
  let count := s.image.sourceCounts[k].getD 0
  Vector.ofFn fun i : Fin 64 =>
    if i.val + 1 ≤ count then
      if s.contactOn k (i.val + 1) true then .program
      else if s.contactOn k (i.val + 1) false then .preview
      else .off
    else .off

/-- A publication of a source layer (R143), less the evaluation that follows it. -/
def State.publish (urgent : Bool) (k : Fin 8) (s : State) : State :=
  match s.source k with
  | some x =>
    let content := s.content k
    let count := s.image.sourceCounts[k].getD 1
    let units := s.image.refreshUnits
    let s := s.offered { kind := .tallyState, urgent, target := 0,
                         body := [byte (layerNumber k), byte count, byte units] ++ contentBytes content,
                         key := some (.tally k), block := .tally, ticket := .none }
    let s := s.setLayer k (publishedLayer s.now s.station { layer := k, count, refresh := units, inputs := content })
    s.setSource k (some { x with refreshTimer := some (s.after (tenths units)), published := some content })
  | none => s

/-- A source layer publishes only while the station is ACTIVE and the layer is PUBLISHING (R143). -/
def State.publishes (s : State) (k : Fin 8) : Bool :=
  decide (s.phase = .active) && (s.source k).any fun x => !x.standby

/-- A change publication is due where the content differs from the content last published (R142). -/
def State.contactChanged (k : Fin 8) (s : State) : State :=
  if s.publishes k && (s.source k).any (fun x => x.published != some (s.content k)) then
    (s.publish true k).evaluate
  else s

/-- The first publications, at the entry into ACTIVE (R32 step 2, R143): offered in layer order, with one evaluation for the
event (log 21). -/
def State.startSources (s : State) : State :=
  ((List.finRange 8).foldl (fun s k => if s.publishes k then s.publish true k else s) s).evaluate

/-- Publication stops (R33, R145): every refresh timer stops. -/
def State.stopSources (s : State) : State :=
  { s with tally := { s.tally with
      sources := s.tally.sources.map fun x => x.map fun y => { y with refreshTimer := none } } }

/-- A standby source layer whose replica goes STALE becomes PUBLISHING, and publishes at once in ACTIVE (R144). -/
def State.resume (k : Fin 8) (s : State) : State :=
  match s.source k with
  | some x =>
    if x.standby then
      let awake := s.setSource k (some { x with standby := false })
      if s.phase = .active then awake.publish true k else awake
    else s
  | none => s

/-- The stale timer of a layer runs out (R138). -/
def State.stale (k : Fin 8) (s : State) : State :=
  let y := { s.layer k with
    state := .stale, staleTimer := none, unsetTimer := some (s.after (sec s.image.staleHoldS)) }
  ((s.setLayer k y).resume k).evaluate

/-- The unset timer of a layer runs out (R139). -/
def State.unset (k : Fin 8) (s : State) : State := (s.setLayer k Layer.reset).evaluate

/-- The refresh timer of a source layer runs out (R143). -/
def State.refreshSource (k : Fin 8) (s : State) : State :=
  if s.publishes k then (s.publish false k).evaluate
  else match s.source k with
    | some x => s.setSource k (some { x with refreshTimer := none })
    | none => s

/-- A contact line's level changes (R141). -/
def State.contactLevel (c : Fin 32) (closed : Bool) (s : State) : State :=
  if s.pins.contacts.getLsbD c = closed then s
  else
    let s' := { s with pins := { s.pins with contacts := s.pins.contacts ^^^ (1#32 <<< c.val) } }
    if s.phase.watchesLines then
      { s' with tally := { s'.tally with
          contacts := s'.tally.contacts.set c (s'.tally.contacts[c].stir (s.after (ms s.image.contactDebounceMs))) } }
    else s'

/-- A contact line's debounce timer runs out (R141, R142). -/
def State.contactSettled (c : Fin 32) (s : State) : State :=
  let level := s.pins.contacts.getLsbD c
  let before := s.tally.contacts[c].accepted
  let s := { s with tally := { s.tally with contacts := s.tally.contacts.set c (DebouncedLine.accept level) } }
  if level = before then s
  else match s.image.contacts[c] with
    | some m => s.contactChanged m.layer
    | none => s

/-- READ_TALLY's clear option (R152): a flag is set again where its rule has a match as the layers stand. -/
def State.clearHits (s : State) : State :=
  { s with tally := { s.tally with hits := Vector.ofFn fun k : Fin 32 => s.tally.hit s.image.rules[k] } }

/-- TALLY takes its sections at the end of LOADING (R29, R140): contact levels with no debounce, and a source record for
every source layer. The evaluation of that moment (R148), every layer being UNSET, gives every output its reset value. -/
def State.loadTally (s : State) : State :=
  { s with tally := { s.tally with
      contacts := Vector.ofFn fun c : Fin 32 => DebouncedLine.accept (s.pins.contacts.getLsbD c)
      sources := s.image.sourceCounts.map fun n =>
        n.map fun _ => { standby := false, refreshTimer := none, published := none } } }

end Sys2Proof.Machine
end

