-- ==== Sys2Proof/Machine/Talkback.lean ====
section
/-! DEFINITION. Ports, keys, lines, talk and follow talk (sections 9.1 to 9.4). Calls stand in Calls.lean. -/

namespace Sys2Proof.Machine

/-! ## Records -/

def State.tbPort (s : State) (q : Fin 12) : Option TbPort := s.tbk.ports[q]

def State.setTbPort (q : Fin 12) (r : TbPort) (s : State) : State :=
  { s with tbk := { s.tbk with ports := s.tbk.ports.set q (some r) } }

/-- Change a port record, if the port exists. -/
def State.modTbPort (q : Fin 12) (f : TbPort → TbPort) (s : State) : State :=
  match s.tbPort q with
  | some r => s.setTbPort q (f r)
  | none => s

def State.line (s : State) (n : Fin 16) : Line := s.tbk.lines[n]

def State.setLine (n : Fin 16) (x : Line) (s : State) : State :=
  { s with tbk := { s.tbk with lines := s.tbk.lines.set n x } }

/-- A port is occupied for talk (R157). -/
def TbPort.occupied (r : TbPort) : Bool := r.talk != .idle || r.follow.isSome

/-- A port's membership of a line. -/
def TbPort.member (r : TbPort) (n : Fin 16) : Option Membership := r.members.find? fun m => m.line == n

/-- The refusal indication is shown (R174); a port with no call lamp line shows nothing. -/
def State.indicate (q : Fin 12) (s : State) : State :=
  s.modTbPort q fun r => if r.callLamp.isSome then { r with indication := some (s.after (sec 2)) } else r

/-! ## Line rosters -/

/-- Roster order: station, then port (R158). -/
def Member.before (x y : Member) : Bool := decide (x.station < y.station) || (x.station == y.station && decide (x.port < y.port))

def Member.is (station port : Nat) (m : Member) : Bool := m.station == station && m.port == port

/-- Put a member in its place in the roster's order. -/
def insertRoster (x : Member) : List Member → List Member
  | [] => [x]
  | y :: ys => if x.before y then x :: y :: ys else y :: insertRoster x ys

def Line.hasMember (x : Line) (station port : Nat) : Bool := x.roster.any (Member.is station port)

/-- Remove a talker entry, if it is there. -/
def Line.dropTalker (station port : Nat) (x : Line) : Line :=
  { x with talkers := x.talkers.filter fun t => !(t.station == station && t.port == port) }

/-- The removal of members a test picks, with their talker entries (R158); the overfull flag clears when a removal
leaves fewer than 32. -/
def Line.removeMembers (p : Nat → Nat → Bool) (x : Line) : Line :=
  if x.roster.any fun m => p m.station m.port then
    let roster := x.roster.filter fun m => !p m.station m.port
    { roster, overfull := x.overfull && decide (32 ≤ roster.length),
      talkers := x.talkers.filter fun t => !p t.station t.port }
  else x

def Line.removeMember (station port : Nat) (x : Line) : Line := x.removeMembers fun st q => st == station && q == port

/-- A member joins or its flags are replaced; one without talk right loses its talker entry (R158, R159). -/
def Line.put (m : Member) (x : Line) : Line :=
  let y := { x with roster := insertRoster m (x.roster.filter fun y => !Member.is m.station m.port y) }
  if m.talk then y else y.dropTalker m.station m.port

/-- A peer member joins (R158, R159): a full roster does not store it and its line is overfull. -/
def Line.putPeer (m : Member) (x : Line) : Line :=
  if x.hasMember m.station m.port || decide (x.roster.length < 32) then x.put m else { x with overfull := true }

/-- An own member joins (R158): in a full roster it takes the place of the peer member last in order. -/
def Line.putOwn (m : Member) (x : Line) : Line :=
  if x.hasMember m.station m.port || decide (x.roster.length < 32) then x.put m
  else match x.roster.reverse.find? fun y => y.station != m.station with
    | some last => { (x.removeMember last.station last.port).put m with overfull := true }
    | none => { x with overfull := true }

/-! ## Talkers -/

/-- The ranking of talkers (R50, R161). -/
def Talker.outranks (x y : Talker) : Bool :=
  if x.cls ≠ y.cls then decide (y.cls < x.cls)
  else if x.station ≠ y.station then decide (x.station < y.station)
  else decide (x.port < y.port)

def insertTalker (x : Talker) : List Talker → List Talker
  | [] => [x]
  | y :: ys => if x.outranks y then x :: y :: ys else y :: insertTalker x ys

/-- A talker is put in its place in rank order, in place of its earlier entry (R161). -/
def Line.rank (t : Talker) (x : Line) : Line :=
  let y := x.dropTalker t.station t.port
  { y with talkers := insertTalker t y.talkers }

/-- A list that holds 9 entries loses the lowest-ranked (R161, log 18). -/
def Line.trim (x : Line) : Line := { x with talkers := x.talkers.take 8 }

/-- The position of a talker, from 0. -/
def Line.position (x : Line) (station port : Nat) : Option Nat :=
  x.talkers.findIdx? fun t => t.station == station && t.port == port

/-- A port of this station is ranked within the first cap entries of a line (R162, R163). -/
def State.within (s : State) (n : Fin 16) (q : Fin 12) : Bool :=
  ((s.line n).position s.station q).any fun k => decide (k < s.image.caps[n])

/-- Offer a TALK (R162). -/
def State.offerTalk (urgent on : Bool) (n : Fin 16) (q : Fin 12) (cls : Nat) (s : State) : State :=
  s.offered { kind := .talk, urgent, target := 0, body := [byte n, byte q, byte cls, flagByte on],
              key := some (.linePort .talk n q), block := .tbk, ticket := .none }

/-- A port stops talking on a line (R162, R163): the own entry goes, a TALK off is offered, the refresh timer stops, and
the port takes a talk state. -/
def State.endTalk (n : Fin 16) (q : Fin 12) (next : TalkState) (s : State) : State :=
  match s.tbPort q with
  | some r =>
    let s := s.setLine n ((s.line n).dropTalker s.station q)
    (s.offerTalk true false n q r.talkClass).setTbPort q { r with talk := next, talkRefresh := none }
  | none => s

/-- The cap evaluation of one port (R163). -/
def State.bumpPort (n : Fin 16) (s : State) (q : Fin 12) : State :=
  match s.tbPort q with
  | some r =>
    match r.talk with
    | .talking m key => if m = n ∧ s.within n q = false then s.endTalk n q (.bumped n key) else s
    | .idle | .bumped _ _ => s
  | none => s

/-- The cap evaluation of a line (R163), in port order. -/
def State.capEval (n : Fin 16) (s : State) : State := (List.finRange 12).foldl (State.bumpPort n) s

/-- A change of a line, followed by its cap evaluation. -/
def State.changeLine (n : Fin 16) (f : Line → Line) (s : State) : State := (s.setLine n (f (s.line n))).capEval n

/-- A TALK press (R162). Its own TALK on is offered before the TALK off of a port that it bumps (DESIGN CHOICE, log 37). -/
def State.pressTalk (q : Fin 12) (n : Fin 16) (key : KeyId) (s : State) : State :=
  match s.tbPort q with
  | some r =>
    if r.occupied || !((r.member n).any fun m => m.talk) then s
    else
      let ranked := s.setLine n ((s.line n).rank { station := s.station, port := q, cls := r.talkClass, expiry := none })
      if ranked.within n q then
        let s := (ranked.setLine n (ranked.line n).trim).setTbPort q
          { r with talk := .talking n key, talkRefresh := some (s.after (ms 500)) }
        (s.offerTalk true true n q r.talkClass).capEval n
      else s.setTbPort q { r with talk := .bumped n key }
  | none => s

/-- A talk refresh (R162). -/
def State.refreshTalk (q : Fin 12) (s : State) : State :=
  match s.tbPort q with
  | some r =>
    match r.talk with
    | .talking n _ =>
      (s.offerTalk false true n q r.talkClass).setTbPort q { r with talkRefresh := some (s.after (ms 500)) }
    | .idle | .bumped _ _ => s.setTbPort q { r with talkRefresh := none }
  | none => s

/-! ## Follow talk -/

def State.offerFollow (urgent on : Bool) (q : Fin 12) (f : FollowState) (s : State) : State :=
  s.offered { kind := .followTalk, urgent, target := 0,
              body := [byte (layerNumber f.layer), byte f.input, byte q, flagByte on], key := some (.follow q),
              block := .tbk, ticket := .none }

/-- A FOLLOW press (R164). -/
def State.pressFollow (q : Fin 12) (k : Fin 8) (key : KeyId) (s : State) : State :=
  match s.tbPort q with
  | some r =>
    if r.occupied then s
    else match (s.layer k).programInput with
      | none => s.indicate q
      | some input =>
        let f : FollowState := { layer := k, input, key }
        (s.offerFollow true true q f).setTbPort q
          { r with follow := some f, followRefresh := some (s.after (ms 500)) }
  | none => s

/-- A follow refresh (R164). -/
def State.refreshFollow (q : Fin 12) (s : State) : State :=
  match s.tbPort q with
  | some r =>
    match r.follow with
    | some f => (s.offerFollow false true q f).setTbPort q { r with followRefresh := some (s.after (ms 500)) }
    | none => s.setTbPort q { r with followRefresh := none }
  | none => s

/-- Follow talk ends (R164). -/
def State.endFollow (q : Fin 12) (f : FollowState) (s : State) : State :=
  (s.offerFollow true false q f).modTbPort q fun r => { r with follow := none, followRefresh := none }

/-- A release (R157, R162, R164): it ends what the same key started. -/
def State.release (q : Fin 12) (key : KeyId) (s : State) : State :=
  match s.tbPort q with
  | none => s
  | some r =>
    let s := match r.talk with
      | .talking n k => if k = key then (s.endTalk n q .idle).capEval n else s
      | .bumped _ k => if k = key then s.setTbPort q { r with talk := .idle } else s
      | .idle => s
    match r.follow with
    | some f => if f.key = key then s.endFollow q f else s
    | none => s

/-! ## What the bus brings -/

/-- A LINE_JOIN (R159). -/
def State.takeJoin (origin : Nat) (n : Fin 16) (port : Nat) (listen talk : Bool) (s : State) : State :=
  s.changeLine n fun x =>
    if listen || talk then x.putPeer { station := origin, port, listen, talk } else x.removeMember origin port

/-- A LINE_LEAVE (R159). -/
def State.takeLeave (origin : Nat) (n : Fin 16) (port : Nat) (s : State) : State :=
  s.changeLine n fun x => x.removeMember origin port

/-- One line agrees with an origin's membership list (R159): removals first, then the list's members (log 20). -/
def Line.agree (origin : Nat) (records : List PresenceRecord) (n : Fin 16) (x : Line) : Line :=
  let named := records.filter fun r => r.listen.getLsbD n || r.talk.getLsbD n
  let x := x.removeMembers fun st q => st == origin && !(named.any fun r => r.port == q)
  named.foldl (fun x r =>
    x.putPeer { station := origin, port := r.port, listen := r.listen.getLsbD n, talk := r.talk.getLsbD n }) x

/-- TBK is given a station's membership list (R18, R159). -/
def State.agreeMembers (origin : Nat) (records : List PresenceRecord) (s : State) : State :=
  (List.finRange 16).foldl (fun s n => s.changeLine n (Line.agree origin records n)) s

/-- A station's members leave every line (R159). -/
def State.dropStation (station : Nat) (s : State) : State :=
  (List.finRange 16).foldl (fun s n => s.changeLine n fun x => x.removeMembers fun st _ => st == station) s

/-- A TALK that passes its ranges (R161). -/
def State.takeTalk (origin : Nat) (n : Fin 16) (port cls : Nat) (on : Bool) (len : Nat) (s : State) :
    State × Disposition :=
  if on then
    if (s.line n).roster.any fun m => m.is origin port && m.talk then
      (s.changeLine n fun x =>
        (x.rank { station := origin, port, cls, expiry := some (s.after (ms 1500)) }).trim, .accepted)
    else (s.count .rxSourceCheckFail (some len), .sourceCheck)
  else (s.changeLine n fun x => x.dropTalker origin port, .accepted)

/-- The talker list entry of a station and port. -/
def State.talker (s : State) (n : Fin 16) (station port : Nat) : Option Talker :=
  (s.line n).talkers.find? fun t => t.station == station && t.port == port

/-- A peer talker's entry runs out (R161). -/
def State.talkerGone (n : Fin 16) (station port : Nat) (s : State) : State :=
  s.changeLine n fun x => x.dropTalker station port

def FollowEntry.is (origin port : Nat) (f : FollowEntry) : Bool := f.origin == origin && f.port == port

def State.setFollows (q : List FollowEntry) (s : State) : State := { s with tbk := { s.tbk with follows := q } }

/-- A FOLLOW_TALK that passes its ranges (R165). -/
def State.takeFollow (origin : Nat) (k : Fin 8) (input port : Nat) (on : Bool) (s : State) : State :=
  let entry : FollowEntry := { origin, port, layer := k, input, expiry := s.after (ms 1500) }
  if on then
    if s.tbk.follows.any (FollowEntry.is origin port) then
      s.setFollows (s.tbk.follows.map fun f => if f.is origin port then entry else f)
    else if s.tbk.follows.length < 4 then s.setFollows (s.tbk.follows ++ [entry])
    else s
  else s.setFollows (s.tbk.follows.filter fun f => !f.is origin port)

/-- A follow list entry runs out (R165). -/
def State.followGone (origin port : Nat) (s : State) : State :=
  s.setFollows (s.tbk.follows.filter fun f => !f.is origin port)

/-! ## Own memberships -/

/-- A LINE_JOIN of an own membership (R32, R160). -/
def joinOffer (q : Fin 12) (m : Membership) : Offer :=
  { kind := .lineJoin, urgent := false, target := 0,
    body := [byte m.line, byte q, byte ((if m.listen then 1 else 0) + (if m.talk then 2 else 0))],
    key := some (.linePort .lineJoin m.line q), block := .tbk, ticket := .none }

/-- A LINE_LEAVE of an own membership (R33, R160). -/
def leaveOffer (q : Fin 12) (n : Fin 16) : Offer :=
  { kind := .lineLeave, urgent := false, target := 0, body := [byte n, byte q],
    key := some (.linePort .lineLeave n q), block := .tbk, ticket := .none }

/-- Go through the own ports that exist, in port order. -/
def State.overPorts (f : Fin 12 → TbPort → State → State) (s : State) : State :=
  (List.finRange 12).foldl (fun s q => match s.tbPort q with | some r => f q r s | none => s) s

/-- A LINE_JOIN for every membership (R32 step 3). -/
def State.joinAll (s : State) : State :=
  s.overPorts fun q r s => r.members.foldl (fun s m => s.offered (joinOffer q m)) s

/-- A membership is set or changed (R160, R186): its LINE_JOIN before the TALK off of a talk that it ends (DESIGN CHOICE, log
40). -/
def State.putMembership (q : Fin 12) (m : Membership) (s : State) : State :=
  let s := s.modTbPort q fun r => { r with members := insertMember m r.members }
  let s := s.setLine m.line
    ((s.line m.line).putOwn { station := s.station, port := q, listen := m.listen, talk := m.talk })
  (s.offered (joinOffer q m)).capEval m.line

/-- A membership is removed (R160, R186): its LINE_LEAVE before the TALK off of a talk that it ends (DESIGN CHOICE, log 40). -/
def State.dropMembership (q : Fin 12) (n : Fin 16) (s : State) : State :=
  let s := s.modTbPort q fun r => { r with members := r.members.filter fun m => m.line != n }
  let s := s.setLine n ((s.line n).removeMember s.station q)
  (s.offered (leaveOffer q n)).capEval n

/-- The own members that the image gives a line (R158). -/
def ownMembers (station : Nat) (img : Image) (n : Fin 16) : List Member :=
  (List.finRange 12).filterMap fun q =>
    if portExists img.links q then
      (img.ports[q].members.find? fun m => m.line == n).map fun m =>
        { station, port := q, listen := m.listen, talk := m.talk }
    else none

/-- A port record at the end of LOADING (R155). -/
def newPort (c : PortCfg) : TbPort :=
  { talkClass := c.talkClass, answer := c.answer, callLamp := c.callLamp, members := c.members, talk := .idle,
    follow := none, talkRefresh := none, followRefresh := none, indication := none }

/-- TBK takes its sections at the end of LOADING (R29, R155, R156, R158). -/
def State.loadTbk (s : State) : State :=
  let img := s.image
  { s with tbk := { s.tbk with
      ports := Vector.ofFn fun q : Fin 12 => if portExists img.links q then some (newPort img.ports[q]) else none
      keys := Vector.ofFn fun k : Fin 16 => DebouncedLine.accept (s.pins.keys.getLsbD k)
      lines := Vector.ofFn fun n : Fin 16 =>
        { roster := ownMembers img.station img n, overfull := false, talkers := [] } } }

end Sys2Proof.Machine
end

