-- ==== Sys2Proof/Machine/Calls.lean ====
section
/-! DEFINITION. Calls and circuits (section 9.5), presses and keys (sections 9.1 and 9.6), and TBK's part in the phases
(section 9.8). -/

namespace Sys2Proof.Machine

/-! ## Slots and circuits -/

def State.call (s : State) (k : Fin 4) : Option CallRec := s.tbk.calls[k]

def State.setCall (k : Fin 4) (c : Option CallRec) (s : State) : State :=
  { s with tbk := { s.tbk with calls := s.tbk.calls.set k c } }

def State.setCircuit (c : Fin 15) (u : Option CircuitUse) (s : State) : State :=
  { s with tbk := { s.tbk with circuits := s.tbk.circuits.set c u } }

/-- The caller and the callee of a slot's call (R166). -/
def CallRec.callerOf (station : Nat) (c : CallRec) : Nat × Nat := if c.caller then (station, c.port) else c.peer

def CallRec.calleeOf (station : Nat) (c : CallRec) : Nat × Nat := if c.caller then c.peer else (station, c.port)

/-- Between two callers, the lower station outranks, then the lower port (R167). -/
def callerOutranks (x y : Nat × Nat) : Bool := if x.1 ≠ y.1 then decide (x.1 < y.1) else decide (x.2 < y.2)

/-- A circuit becomes USED by a caller, its expiry restarting (R167). -/
def State.useCircuit (c : Fin 15) (caller : Nat × Nat) (s : State) : State :=
  s.setCircuit c (some { caller, expiry := s.after (sec 6) })

/-- A circuit becomes FREE if it is USED by a caller (R167). -/
def State.freeCircuit (c : Fin 15) (caller : Nat × Nat) (s : State) : State :=
  if s.tbk.circuits[c].any fun u => u.caller == caller then s.setCircuit c none else s

/-- A received ring or keep takes a circuit, unless it is USED by a caller that outranks it (R167). -/
def State.takeCircuit (c : Fin 15) (caller : Nat × Nat) (s : State) : State :=
  match s.tbk.circuits[c] with
  | none => s.useCircuit c caller
  | some u => if u.caller = caller ∨ callerOutranks caller u.caller then s.useCircuit c caller else s

/-- The lowest-numbered FREE circuit (R168). -/
def State.freeCircuitOf (s : State) : Option (Fin 15) := (List.finRange 15).find? fun c => s.tbk.circuits[c].isNone

/-- The lowest-numbered IDLE slot (R168). -/
def State.idleSlot (s : State) : Option (Fin 4) := (List.finRange 4).find? fun k => (s.call k).isNone

/-- The slot a port is party to (R166). -/
def State.slotOf (s : State) (q : Fin 12) : Option (Fin 4) :=
  (List.finRange 4).find? fun k => (s.call k).any fun c => c.port == q

/-- The slot a bulletin concerns (R166): its call's fields match and its origin is the slot's peer station. -/
def State.concerned (origin : Nat) (b : CallBody) (s : State) : Option (Fin 4) :=
  (List.finRange 4).find? fun k => (s.call k).any fun c =>
    c.callerOf s.station == b.caller && c.calleeOf s.station == b.callee && c.peer.1 == origin

/-! ## Offers -/

/-- A call bulletin's body (section 11.1). -/
def callBytes (caller callee : Nat × Nat) (c : Fin 15) (reason : Nat) : List Byte :=
  [byte caller.1, byte caller.2, byte callee.1, byte callee.2, byte (circuitSlot c), byte reason]

/-- Offer a call bulletin of a slot number, with what an own offer does to the circuit table (R167). -/
def State.offerCall (k : Kind) (urgent : Bool) (slot : Nat) (caller callee : Nat × Nat) (c : Fin 15) (reason : Nat)
    (s : State) : State :=
  let s := s.offered { kind := k, urgent, target := 0, body := callBytes caller callee c reason,
                       key := some (.call k slot), block := .tbk, ticket := .none }
  match k with
  | .callRing | .callKeep => s.useCircuit c caller
  | .callEnd => s.freeCircuit c caller
  | _ => s

/-- Offer a bulletin for a slot's call. -/
def State.offerFor (k : Kind) (urgent : Bool) (slot : Fin 4) (x : CallRec) (reason : Nat) (s : State) : State :=
  s.offerCall k urgent slot (x.callerOf s.station) (x.calleeOf s.station) x.circuit reason

/-! ## Life of a call -/

/-- A call slot takes a call. Where it leaves IDLE, the port's indication ends (R174). -/
def State.openCall (k : Fin 4) (c : CallRec) (s : State) : State :=
  let opened := s.setCall k (some c)
  if (s.call k).isNone then opened.modTbPort c.port fun r => { r with indication := none } else opened

/-- The record of a call that is connected (R171). -/
def CallRec.connected (now : Nat) (c : CallRec) : CallRec :=
  { c with state := .connected, ringTimer := none, keepTimer := some (now + sec 2), callExpiry := some (now + sec 6) }

/-- The callee's slot becomes CONNECTED and answers (R171). -/
def State.answer (k : Fin 4) (c : CallRec) (s : State) : State :=
  (s.openCall k (CallRec.connected s.now c)).offerFor .callAnswer true k c 0

/-- A call ends (R172): the slot becomes IDLE, and the indication is shown for any reason but CLEARED (R174). -/
def State.closeCall (k : Fin 4) (c : CallRec) (reason : EndReason) (s : State) : State :=
  let s := s.setCall k none
  if reason = .cleared then s else s.indicate c.port

/-- A call ends with a CALL_END of this station's (R172). -/
def State.endCall (k : Fin 4) (c : CallRec) (reason : EndReason) (s : State) : State :=
  (s.closeCall k c reason).offerFor .callEnd true k c reason.code

/-- A CALL press (R168). -/
def State.pressCall (q : Fin 12) (station port : Nat) (s : State) : State :=
  let present := match finOf 127 station with | some n => s.biu.roster[n].isSome | none => false
  match s.idleSlot, s.freeCircuitOf with
  | some k, some circuit =>
    if present && (s.slotOf q).isNone then
      let c : CallRec :=
        { state := .ringingOut, caller := true, port := q, peer := (station, port), circuit,
          ringTimer := some (s.after (sec 20)), keepTimer := some (s.after (sec 2)), callExpiry := none }
      (s.openCall k c).offerFor .callRing true k c 0
    else s.indicate q
  | _, _ => s.indicate q

/-- An ANSWER/CLEAR press (R171, R172). -/
def State.pressAnswer (q : Fin 12) (s : State) : State :=
  match s.slotOf q with
  | none => s
  | some k =>
    match s.call k with
    | none => s
    | some c =>
      match c.state with
      | .ringingIn => s.answer k c
      | .ringingOut | .connected => s.endCall k c .cleared

/-- The keep timer of a slot runs out (R168, R171). -/
def State.keepCall (k : Fin 4) (s : State) : State :=
  match s.call k with
  | none => s
  | some c =>
    let s := s.setCall k (some { c with keepTimer := some (s.after (sec 2)) })
    match c.state with
    | .ringingOut => s.offerFor .callRing true k c 0
    | .connected => s.offerFor .callKeep false k c 0
    | .ringingIn => s.setCall k (some { c with keepTimer := none })

/-- A slot's call ends with a reason, at the expiry of its ring timer or its call expiry (R172). -/
def State.expireCall (k : Fin 4) (reason : EndReason) (s : State) : State :=
  match s.call k with
  | some c => s.endCall k c reason
  | none => s

/-- The calls with a station that has gone end with reason LOST (R19, R172). -/
def State.loseCalls (station : Nat) (s : State) : State :=
  (List.finRange 4).foldl (fun s k =>
    match s.call k with
    | some c => if c.peer.1 = station then s.closeCall k c .lost else s
    | none => s) s

/-- TBK is told that a station has gone (R19). -/
def State.stationGone (station : Nat) (s : State) : State := (s.dropStation station).loseCalls station

/-! ## Received call bulletins -/

/-- The checks of a received call bulletin (R166). -/
def State.readCall (isEnd : Bool) (origin : Nat) (body : List Byte) (len : Nat) (s : State) :
    Sum (State × Disposition) CallBody :=
  match readCallBody isEnd body with
  | none => .inl (s, .badBody)
  | some b =>
    if (origin = b.caller.1 ∨ origin = b.callee.1) ∧ b.caller.1 ≠ b.callee.1 then .inr b
    else .inl (s.count .rxSourceCheckFail (some len), .sourceCheck)

/-- One local slot in a circuit clash (R173). -/
def State.clashSlot (circuit : Fin 15) (caller : Nat × Nat) (s : State) (k : Fin 4) : State :=
  match s.call k with
  | none => s
  | some c =>
    let mine := c.callerOf s.station
    if c.circuit = circuit ∧ mine ≠ caller ∧ c.caller then
      let again (c : CallRec) (s : State) : State :=
        match c.state with
        | .connected => s.offerFor .callKeep true k c 0
        | .ringingOut | .ringingIn => s.offerFor .callRing true k c 0
      if callerOutranks mine caller then again c s
      else match s.freeCircuitOf with
        | some free => again { c with circuit := free } (s.setCall k (some { c with circuit := free }))
        | none => s.endCall k c .noCircuit
    else s

/-- A circuit clash (R173), slot by slot in slot order (log 26). -/
def State.clash (circuit : Fin 15) (caller : Nat × Nat) (s : State) : State :=
  (List.finRange 4).foldl (State.clashSlot circuit caller) s

/-- A ring in glare (R170). -/
def State.glare (k : Fin 4) (c : CallRec) (b : CallBody) (s : State) : State :=
  if s.station < b.caller.1 then s
  else
    let s := s.freeCircuit c.circuit (s.station, c.port)
    s.answer k { c with caller := false, circuit := b.circuit }

/-- The slot a ring meets in glare (R170). -/
def State.glareSlot (b : CallBody) (s : State) : Option (Fin 4) :=
  (List.finRange 4).find? fun k => (s.call k).any fun c =>
    c.state == .ringingOut && c.port.val == b.callee.2 && c.peer == b.caller

/-- A ring that concerns a slot (R169 step 1). -/
def State.ringAgain (k : Fin 4) (b : CallBody) (s : State) : State :=
  match s.call k with
  | none => s
  | some c =>
    let c := { c with circuit := b.circuit, callExpiry := some (s.after (sec 6)) }
    let s := s.setCall k (some c)
    match c.state with
    | .connected => s.offerFor .callAnswer true k c 0
    | .ringingIn | .ringingOut => s

/-- A new ring for a local port (R169 steps 3 and 4). -/
def State.newRing (b : CallBody) (s : State) : State :=
  let refuse := s.offerCall .callEnd true 4 b.caller b.callee b.circuit EndReason.busy.code
  match finOf 12 b.callee.2, s.idleSlot with
  | some q, some k =>
    match s.tbPort q with
    | none => refuse
    | some r =>
      let c : CallRec := { state := .ringingIn, caller := false, port := q, peer := b.caller, circuit := b.circuit,
                           ringTimer := none, keepTimer := none, callExpiry := some (s.after (sec 6)) }
      if (s.slotOf q).isSome then refuse
      else match r.answer with
        | .reject => refuse
        | .auto => s.answer k c
        | .manual => s.openCall k c
  | _, _ => refuse

/-- Any ring that concerns a CONNECTED slot restarts its call expiry (R171). -/
def CallRec.heard (now : Nat) (c : CallRec) : CallRec :=
  if c.state = .connected then { c with callExpiry := some (now + sec 6) } else c

/-- A ring for another station's port, which may still concern a slot of this station's (R171, R173). -/
def State.ringElsewhere (origin : Nat) (b : CallBody) (s : State) : State :=
  let s := match s.concerned origin b with
    | some k => s.setCall k ((s.call k).map (CallRec.heard s.now))
    | none => s
  s.clash b.circuit b.caller

/-- A CALL_RING that passes its checks (R167, R169, R170, R171, R173). -/
def State.takeRing (origin : Nat) (b : CallBody) (s : State) : State :=
  let s := s.takeCircuit b.circuit b.caller
  if s.phase ≠ .active then s
  else if b.callee.1 = s.station then
    match s.concerned origin b with
    | some k => (s.ringAgain k b).clash b.circuit b.caller
    | none =>
      match s.glareSlot b with
      | some k => (match s.call k with | some c => s.glare k c b | none => s)
      | none => (s.newRing b).clash b.circuit b.caller
  else s.ringElsewhere origin b

/-- The effect of an answer or a keep on the slot it concerns (R171). -/
def CallRec.kept (now : Nat) (newCircuit : Option (Fin 15)) (c : CallRec) : CallRec :=
  let c := match newCircuit with
    | some n => if c.caller then c else { c with circuit := n }
    | none => c
  match c.state with
  | .ringingOut => CallRec.connected now c
  | .connected => { c with callExpiry := some (now + sec 6) }
  | .ringingIn => c

/-- A CALL_ANSWER that passes its checks (R171). -/
def State.takeAnswer (origin : Nat) (b : CallBody) (s : State) : State :=
  match s.concerned origin b with
  | some k => s.setCall k ((s.call k).map (CallRec.kept s.now none))
  | none => s

/-- A CALL_KEEP that passes its checks (R167, R171, R173). -/
def State.takeKeep (origin : Nat) (b : CallBody) (s : State) : State :=
  let s := s.takeCircuit b.circuit b.caller
  let s := match s.concerned origin b with
    | some k => s.setCall k ((s.call k).map (CallRec.kept s.now (some b.circuit)))
    | none => s
  s.clash b.circuit b.caller

/-- A CALL_END that passes its checks (R167, R172). -/
def State.takeEnd (origin : Nat) (b : CallBody) (s : State) : State :=
  let s := s.freeCircuit b.circuit b.caller
  match s.concerned origin b with
  | some k => (match s.call k with | some c => s.closeCall k c b.reason | none => s)
  | none => s

/-! ## Keys -/

/-- A press of a key's function for a port, in ACTIVE (R156, R157). -/
def State.press (q : Fin 12) (fn : KeyFn) (key : KeyId) (s : State) : State :=
  if s.phase = .active then
    match fn with
    | .unmapped => s
    | .talk n => s.pressTalk q n key
    | .call station port => s.pressCall q station port
    | .follow k => s.pressFollow q k key
    | .answerClear => s.pressAnswer q
  else s

/-- A key of a port changes to held, a press, or to released, a release (R156). -/
def State.keyChange (q : Fin 12) (fn : KeyFn) (key : KeyId) (held : Bool) (s : State) : State :=
  if held then s.press q fn key else if s.phase = .active then s.release q key else s

/-- A key line's level changes (R156). -/
def State.keyLevel (k : Fin 16) (closed : Bool) (s : State) : State :=
  if s.pins.keys.getLsbD k = closed then s
  else
    let s' := { s with pins := { s.pins with keys := s.pins.keys ^^^ (1#16 <<< k.val) } }
    if s.phase.watchesLines then
      { s' with tbk := { s'.tbk with
          keys := s'.tbk.keys.set k (s'.tbk.keys[k].stir (s.after (ms s.image.keyDebounceMs))) } }
    else s'

/-- A key line's debounce timer runs out (R156). -/
def State.keySettled (k : Fin 16) (s : State) : State :=
  let level := s.pins.keys.getLsbD k
  let before := s.tbk.keys[k].accepted
  let s := { s with tbk := { s.tbk with keys := s.tbk.keys.set k (DebouncedLine.accept level) } }
  if level = before then s
  else
    let m := s.image.keys[k]
    match m.fn with
    | .unmapped => s
    | fn => s.keyChange m.port fn (.line k) level

/-- The talkback port of a link (R155). -/
def linkPort (l : Fin 8) : Fin 12 := ⟨l.val + 4, by omega⟩

/-- RPORT hands TBK new key bits of a front-end (R95, R156): each changed bit of a TALKBACK link, in bit order. -/
def State.beltpack (a : Fin 8) (old new : BitVec 4) (s : State) : State :=
  match s.linkOf a with
  | none => s
  | some l =>
    match s.link l with
    | none => s
    | some x =>
      if x.desc.kind = .talkback then
        (List.finRange 4).foldl (fun (s : State) (k : Fin 4) =>
          if old.getLsbD k = new.getLsbD k then s
          else s.keyChange (linkPort l) x.desc.keys[k] (.beltpack k) (new.getLsbD k)) s
      else s

/-- The indication of a port runs out (R174). -/
def State.endIndication (q : Fin 12) (s : State) : State := s.modTbPort q fun r => { r with indication := none }

/-! ## Phases -/

/-- A port record with every activity ended and every timer stopped (R33, R177). -/
def TbPort.quiet (r : TbPort) : TbPort :=
  { r with talk := .idle, follow := none, talkRefresh := none, followRefresh := none, indication := none }

/-- Slots, talk states and follow states go to idle (R33, R177), and own talker entries with them (log 19). -/
def State.quietTbk (s : State) : State :=
  { s with tbk := { s.tbk with
      calls := Vector.replicate 4 none
      ports := s.tbk.ports.map fun p => p.map TbPort.quiet
      lines := s.tbk.lines.map fun x => { x with talkers := x.talkers.filter fun t => t.station != s.station } } }

/-- TBK's offers at the entry into LEAVING (R33 step 6), those of follow talk in port order (DESIGN CHOICE, log 40). -/
def State.leaveTbk (s : State) : State :=
  let s := (List.finRange 4).foldl (fun s k =>
    match s.call k with
    | some c => s.offerFor .callEnd true k c EndReason.cleared.code
    | none => s) s
  let s := s.overPorts fun q r s =>
    match r.talk with
    | .talking n _ => s.offerTalk true false n q r.talkClass
    | .idle | .bumped _ _ => s
  let s := s.overPorts fun q r s => match r.follow with | some f => s.offerFollow true false q f | none => s
  let s := s.overPorts fun q r s => r.members.foldl (fun s m => s.offered (leaveOffer q m.line)) s
  s.quietTbk

end Sys2Proof.Machine
end

