-- ==== Sys2Proof/Machine/Supervision.lean ====
section
/-! DEFINITION. Link supervision (chapter 6): samples, loss and recovery, the fade predictor, the band histories and the
sightings. Outcomes are Bools, true for BAD; histories keep the newest entry as the most significant digit. -/

namespace Sys2Proof.Machine

/-! ## Histories and tables -/

/-- A history shifts, and the outcome enters as its newest entry (R102, R106). -/
def shiftIn (bad : Bool) (h : BitVec 8) : BitVec 8 := (h >>> 1) ||| (if bad then 0x80#8 else 0#8)

/-- A count from 0 to 255 goes up by one, saturating (R97). -/
def saturate (n : Nat) : Nat := min 255 (n + 1)

abbrev Table := Vector (Fin 4) 256

def entryAt (t : Table) (i : BitVec 8) : Fin 4 := t[i.toNat]'i.isLt

/-- A two-bit counter moves up or down by one, saturating (R108). -/
def nudge (up : Bool) (c : Fin 4) : Fin 4 :=
  if up then (if h : c.val + 1 < 4 then ⟨c.val + 1, h⟩ else c) else ⟨c.val - 1, by omega⟩

def nudgeAt (t : Table) (i : BitVec 8) (up : Bool) : Table := t.set i.toNat (nudge up (entryAt t i)) i.isLt

/-- A counter of 2 or more (R107). -/
def high (c : Fin 4) : Bool := decide (2 ≤ c.val)

/-- The pending prediction is resolved against an outcome (R108). -/
def Lsup.resolve (x : Lsup) (p : Prediction) (bad : Bool) : Lsup :=
  { x with
    localTable := nudgeAt x.localTable p.localIx bad
    globalTable := nudgeAt x.globalTable p.globalIx bad
    choiceTable := if p.localFade = p.globalFade then x.choiceTable else nudgeAt x.choiceTable p.globalIx (p.globalFade == bad) }

/-- A new prediction for a history and a band's history (R107). -/
def Lsup.predict (x : Lsup) (history globalIx : BitVec 8) : Prediction :=
  let localFade := high (entryAt x.localTable history)
  let globalFade := high (entryAt x.globalTable globalIx)
  { localIx := history, globalIx, localFade, globalFade,
    fade := if high (entryAt x.choiceTable globalIx) then globalFade else localFade }

/-- A sighting is folded into the global history of its band (R109). -/
def State.fold (sp : Span) (severity : Nat) (s : State) : State :=
  let k := sp.band.index
  { s with lsup := { s.lsup with histories := s.lsup.histories.set k (shiftIn (decide (1 ≤ severity)) s.lsup.histories[k]) } }

def State.setFilter (band : Band) (q : List CopyEntry) (s : State) : State :=
  { s with lsup := { s.lsup with filters := s.lsup.filters.set band.index q } }

/-- An entry of a copy filter matches a sighting (R110). -/
def CopyEntry.isCopy (origin : Nat) (sp : Span) (severity : Nat) (c : CopyEntry) : Bool :=
  c.origin == origin && c.span == sp && c.severity == severity

/-- A received sighting reaches the global history unless it is a copy (R109, R110). Entries are made with one interval,
so the first made is the nearest its expiry. -/
def State.foldReceived (origin : Nat) (sp : Span) (severity : Nat) (s : State) : State :=
  let filter := s.lsup.filters[sp.band.index]
  if filter.any (CopyEntry.isCopy origin sp severity) then s
  else
    let kept := if filter.length < 4 then filter else filter.drop 1
    (s.fold sp severity).setFilter sp.band
      (kept ++ [{ origin, span := sp, severity, expiry := s.after (ms 250) }])

/-! ## Sightings of the station's own -/

/-- A sighting is issued (R111); a refusal of its offer is taken when the issue is done (R113). -/
def State.issueSighting (l : Fin 8) (sp : Span) (bad : Bool) (severity : Nat) (s : State) : State :=
  let r := s.offer { kind := .sighting, urgent := false, target := 0, body := Span.bytes sp ++ [byte severity],
                     key := some (.sighting sp), block := .lsup, ticket := .sighting l sp bad }
  let s := ((r.1.takeSighting sp severity).fold sp severity).modLink l fun x =>
    { x with announcedBad := bad, sightingHoldOff := some (s.after (ms 500)) }
  if r.2.isSome then s else s.sightingRefused l sp bad

/-- The sighting test (R111, R112): the link is UP or LOST, has a current span, and the outcome differs from the state
last announced. -/
def LinkRec.sights (bad : Bool) (x : LinkRec) : Option Span :=
  if (x.state = .up ∨ x.state = .lost) ∧ bad ≠ x.announcedBad then x.current else none

/-! ## A sample -/

/-- The outcome of a counted sample: bad, unlocked, and severity (R101). -/
structure Sample where
  bad      : Bool
  unlocked : Bool
  severity : Nat
  deriving DecidableEq, Repr

/-- A mailbox as taken, classified against a bad threshold (R101). -/
def classify (threshold : Nat) (mailbox : Option Report) (fresh : Bool) : Sample :=
  match mailbox, fresh with
  | some r, true =>
    if r.lock then
      if r.quality < threshold then { bad := true, unlocked := false, severity := 15 - r.quality }
      else { bad := false, unlocked := false, severity := 0 }
    else { bad := true, unlocked := true, severity := 15 }
  | _, _ => { bad := true, unlocked := true, severity := 15 }

/-- Step 2 of R102. -/
def State.resolveStep (l : Fin 8) (m : Sample) (s : State) : State :=
  match (s.link l).bind (·.prediction) with
  | some p =>
    { s with lsup := s.lsup.resolve p m.bad }.modLink l fun x => { x with prediction := none }
  | none => s

/-- Steps 3 and 4 of R102, less the tests. -/
def LinkRec.tick (m : Sample) (x : LinkRec) : LinkRec :=
  { x with history := shiftIn m.bad x.history, unlocked := if m.unlocked then saturate x.unlocked else 0 }

/-- The loss test (R103) or the recovery test (R104). -/
def State.lossStep (l : Fin 8) (m : Sample) (s : State) : State :=
  match s.link l with
  | some x =>
    match x.state with
    | .up => if x.desc.lossSamples ≤ x.unlocked then s.loseLink l else s
    | .lost => if m.bad then s else s.setLink l { x with state := .up }
    | .disabled | .acquiring => s
  | none => s

/-- Step 5 of R102: the sighting test. -/
def State.sightStep (l : Fin 8) (m : Sample) (s : State) : State :=
  let s := s.modLink l fun x => { x with previousBad := m.bad, lastSeverity := m.severity }
  match s.link l with
  | some x =>
    match x.sights m.bad with
    | some sp => if x.sightingHoldOff.isSome then s else s.issueSighting l sp m.bad m.severity
    | none => s
  | none => s

/-- Step 6 of R102 (R107). -/
def State.predictStep (l : Fin 8) (s : State) : State :=
  s.modLink l fun x =>
    let p := s.lsup.predict x.history s.lsup.histories[x.desc.band.index]
    { x with prediction := some p, fades := if p.fade then saturate x.fades else 0 }

/-- Step 7 of R102: the predictive trigger (R114). -/
def State.triggerStep (l : Fin 8) (s : State) : State :=
  match s.link l with
  | some x =>
    if x.state = .up ∧ x.desc.fadeRun ≤ x.fades ∧ x.pinned = false ∧ s.tally.onAir[l] = false ∧ x.reloc = none
        ∧ x.relocHoldOff = none then
      (s.setLink l { x with fades := 0 }).startReloc l .predicted none false false
    else s
  | none => s

/-- A counted sample (R102). -/
def State.countedSample (l : Fin 8) (m : Sample) (s : State) : State :=
  let s := s.resolveStep l m
  let s := (s.modLink l (LinkRec.tick m)).lossStep l m
  ((s.sightStep l m).predictStep l).triggerStep l

/-- The sample timer of a link runs out (R99, R100, R101). -/
def State.sample (l : Fin 8) (s : State) : State :=
  match s.link l with
  | some x =>
    let s := s.setLink l { x with sampleTimer := some (s.after (ms x.sampleMs)) }
    let t := s.takeMailbox x.desc.frontEnd
    if x.tuneInFlight then t.1.modLink l fun x => { x with prediction := none, fades := 0 }
    else
      let fresh := t.2.1.isSome && t.2.2
      let s := if fresh then t.1 else t.1.count .reportMissed none
      s.countedSample l (classify x.desc.badThreshold t.2.1 t.2.2)
  | none => s

/-- The sighting hold-off of a link runs out (R112). -/
def State.endSightingHoldOff (l : Fin 8) (s : State) : State :=
  match s.link l with
  | some x =>
    let s := s.setLink l { x with sightingHoldOff := none }
    match x.sights x.previousBad with
    | some sp => s.issueSighting l sp x.previousBad x.lastSeverity
    | none => s
  | none => s

/-- The relocation hold-off of a link runs out (R105). -/
def State.endRelocHoldOff (l : Fin 8) (s : State) : State :=
  (s.modLink l fun x => { x with relocHoldOff := none }).lossReloc l

end Sys2Proof.Machine
end

