-- ==== Sys2Proof/Machine/Phases.lean ====
section
/-! DEFINITION. The station phases (chapter 2 and R20): the hard reset, LOADING, HALTED, JOINING, the entry into ACTIVE,
the orderly restart and SILENT. -/

namespace Sys2Proof.Machine

/-! ## Hard reset and LOADING -/

/-- A hard reset (R24). The levels outside, the clock and the waiting commands are not the part's to reset (log 32). -/
def State.hardReset (s : State) : State :=
  { State.reset with now := s.now, pins := s.pins, pending := s.pending }

/-- LOADING begins (R24, R25): the part is no longer held in reset, and the eight MUTE commands are queued. -/
def State.startLoading (s : State) : State := { s with resetHeld := false }.loadingMutes

/-- The hard reset that ends LEAVING (R36): the reset input is not asserted, so LOADING begins at once (log 5). -/
def State.restartPart (s : State) : State := s.hardReset.startLoading

/-- An image that fails a test (R27). -/
def State.enterHalted (s : State) : State := { s with phase := .halted, faultLine := true }

/-- A link record at the end of LOADING (R97). -/
def newLink (d : LinkDesc) : LinkRec :=
  { desc := d, cls := d.cls, sampleMs := d.sampleMs, pinned := false, pointer := d.prefLow, state := .disabled,
    current := none, tuneInFlight := false, sampleTimer := none, history := 0, previousBad := false, lastSeverity := 0,
    prediction := none, fades := 0, unlocked := 0, announcedBad := false, sightingHoldOff := none, relocHoldOff := none,
    acquireRetry := none, reloc := none, lastOutcome := none }

/-- LSUP and MGMT take their sections (R29, R97, R190). -/
def State.loadRest (s : State) : State :=
  { s with
    lsup := { s.lsup with links := s.image.links.map fun d => d.map newLink }
    mgmt := { s.mgmt with counters := Vector.ofFn fun k : Fin 8 =>
      { s.mgmt.counters[k] with mask := s.image.counters[k].mask, bytes := s.image.counters[k].bytes } } }

/-- A LAMP with colour OFF for the front-end of each configured link, in front-end address order (R91). -/
def State.darkenLinks (s : State) : State :=
  (List.finRange 8).foldl (fun s a => if (s.linkOf a).isSome then s.lamp a .off else s) s

/-- Every crosspoint entry becomes pending with the content computed from the configuration (R176). -/
def State.loadXp (s : State) : State :=
  { s with tbk := { s.tbk with xp := { s.tbk.xp with image := s.xpImage, pending := List.finRange 20 } } }

/-- The end of LOADING with a valid image (R29). -/
def State.loadingEnd (img : Image) (s : State) : State :=
  let s := { s with cfg := some img }
  let s := ((s.loadRest).loadTally).loadTbk
  let s := s.darkenLinks
  let s := { s with phase := .joining, biu := { s.biu with joinTimer := some (s.after (sec img.joinListenS)) } }
  s.loadXp

/-- The configuration read completes (R26), which it does in LOADING. -/
def State.configurationRead (memory : List Byte) (s : State) : State :=
  if s.phase = .loading ∧ s.resetHeld = false then
    match readImage memory with
    | some img => s.loadingEnd img
    | none => s.enterHalted
  else s

/-! ## PRESENCE -/

/-- A membership record of the station's own PRESENCE (R17). -/
def presenceRecord (q : Fin 12) (r : TbPort) : List Byte :=
  let lines (p : Membership → Bool) : Nat :=
    (r.members.filter p).foldl (fun acc m => acc + 2 ^ m.line.val) 0
  byte q :: (bytes16 (lines fun m => m.listen) ++ bytes16 (lines fun m => m.talk))

/-- The set of layers the station is configured to source, bit L − 1 for layer L. -/
def Image.sourceSet (img : Image) : Nat :=
  (List.finRange 8).foldl (fun acc k => if img.sourceCounts[k].isSome then acc + 2 ^ k.val else acc) 0

/-- The body of the station's own PRESENCE, gathered at the moment of queueing (R17, R192), its membership records in port
order (DESIGN CHOICE, log 39). -/
def State.presenceBody (s : State) : List Byte :=
  let records := (List.finRange 12).filterMap fun q =>
    match s.tbPort q with
    | some r => if r.members.isEmpty then none else some (presenceRecord q r)
    | none => none
  bytes16 s.image.serial ++
    [flagByte s.isBridge, byte (Image.sourceSet s.image), byte s.image.hold, byte records.length] ++ records.flatten

/-- A PRESENCE is queued and the presence timer runs (R17). -/
def State.sendPresence (s : State) : State :=
  let s := s.offered { kind := .presence, urgent := false, target := 0, body := s.presenceBody, key := some .presence,
                       block := .biu, ticket := .none }
  { s with biu := { s.biu with presenceTimer := some (s.after (sec 1)) } }

/-! ## ACTIVE -/

/-- Every configured link becomes ACQUIRING, and a relocation with cause ACQUIRE starts on each (R32 step 4). -/
def State.acquireLinks (s : State) : State :=
  let s := { s with lsup := { s.lsup with
    links := s.lsup.links.map fun x => x.map fun y => { y with state := .acquiring } } }
  (List.finRange 8).foldl (fun s l => s.startReloc l .acquire none false false) s

/-- The entry into ACTIVE (R32). -/
def State.enterActive (s : State) : State :=
  let s := { s with phase := .active, biu := { s.biu with joinTimer := none } }
  (((s.sendPresence).startSources).joinAll).acquireLinks

/-! ## LEAVING -/

/-- RPORT mutes every front-end whose record is not MUTED (R33 step 3). -/
def State.muteTuned (s : State) : State :=
  (List.finRange 8).foldl (fun s a => if (s.fe a).state = .muted then s else s.mute a) s

/-- PLAN removes every own entry with a yield, in slot order (R33 step 5). -/
def State.yieldAll (s : State) : State := (List.finRange 16).foldl (fun s i => s.removeOwn i) s

/-- Whether the offers of the entry into LEAVING are being made (log 13). -/
def State.setLeaveOffers (b : Bool) (s : State) : State := { s with biu := { s.biu with leaveOffers := b } }

/-- The entry into LEAVING (R33), the reply having been offered. -/
def State.enterLeaving (s : State) : State :=
  let s := { s with phase := .leaving,
                    biu := { s.biu with presenceTimer := none, leaveTimer := some (s.after (ms 500)), leaveOffers := true }
                    mgmt := { s.mgmt with longTask := none } }
  let s := ((s.muteTuned).disableLinks).yieldAll
  ((s.leaveTbk).stopSources).setLeaveOffers false

/-- The leave wait ends with the queue (R36): an entry has just left it. -/
def State.leaveIfEmpty (s : State) : State :=
  if s.phase = .leaving ∧ s.biu.queue = [] then s.restartPart else s

/-! ## SILENT -/

/-- A port that is sending an own bulletin stops (R20). -/
def PortState.silenced (st : PortState) : PortState :=
  match st with
  | .sending tx => (match tx.source with | .own _ _ => .idle | .forward => st)
  | .idle | .receiving | .backoff _ _ _ => st

/-- RPORT takes a MUTE request for each address, in address order (R20, R96). -/
def State.muteAll (s : State) : State := (List.finRange 8).foldl (fun s a => s.mute a) s

/-- The entry into SILENT (R20, R96, R98, R145, R177). -/
def State.enterSilent (s : State) : State :=
  let s := { s with
    phase := .silent, faultLine := true
    biu := { s.biu with queue := [], portA := s.biu.portA.silenced, portB := s.biu.portB.silenced,
                        presenceTimer := none, joinTimer := none, leaveTimer := none }
    plan := { s.plan with own := Vector.replicate 16 none }
    mgmt := { s.mgmt with longTask := none } }
  ((s.muteAll).disableLinks.stopSources).quietTbk

end Sys2Proof.Machine
end

