-- ==== Sys2Proof/Machine/Manage.lean ====
section
/-! DEFINITION. Management tasks (chapter 10): what each task checks, does and answers. Reply layouts follow section 11.2
(log 23). -/

namespace Sys2Proof.Machine

/-- A task as MGMT takes it: its origin, tag, code and parameters. -/
structure TaskIn where
  origin : Nat
  tag    : Nat
  code   : Byte
  params : List Byte
  deriving DecidableEq, Repr

/-- The reply to an immediate task (R180). -/
def State.answerTask (t : TaskIn) (ret : ReturnCode) (data : List Byte) (s : State) : State :=
  s.reply false t.origin t.tag t.code ret data

/-- A task answered with a return code other than DONE by its own checks (R178). -/
def State.rejectTask (t : TaskIn) (ret : ReturnCode) (s : State) : State := s.answerTask t ret []

/-! ## Codes of section 11.2 -/

def Phase.code : Phase → Nat
  | .loading => 0 | .halted => 1 | .joining => 2 | .active => 3 | .leaving => 4 | .silent => 5

def LinkState.code : LinkState → Nat
  | .disabled => 0 | .acquiring => 1 | .up => 2 | .lost => 3

def CmdState.code : CmdState → Nat
  | .muted => 0 | .tuning _ => 1 | .tuned _ => 2 | .fault => 3

def Standing.code : Standing → Nat
  | .tentative => 0 | .held => 1 | .yielding => 2

def LayerState.code : LayerState → Nat
  | .unset => 0 | .live => 1 | .stale => 2

def CaptureMode.code : CaptureMode → Nat
  | .off => 0 | .once => 1 | .count => 2

def CaptureMode.ofCode : Nat → Option CaptureMode
  | 0 => some .off | 1 => some .once | 2 => some .count | _ => none

def Delivery.code : Delivery → Nat
  | .queued => 0 | .sent => 1 | .abandoned => 2 | .refused => 3

def Disposition.code : Disposition → Nat
  | .accepted => 0 | .ownOrigin => 1 | .notAddressed => 2 | .phase => 3 | .unknownKind => 4 | .badBody => 5
  | .sourceCheck => 6

/-- A set of flags as a number, bit k for member k. -/
def flagSet {n : Nat} (v : Vector Bool n) : Nat :=
  (List.finRange n).foldl (fun acc k => if v[k] then acc + 2 ^ k.val else acc) 0

/-! ## Reading tasks -/

/-- The data of READ_STATION (R182). -/
def State.stationData (s : State) : List Byte :=
  [byte s.station, byte s.phase.code, flagByte s.image.bridgeFlag,
   byte (s.biu.roster.toList.filter Option.isSome).length, flagByte s.plan.overfull, byte s.biu.queue.length,
   byte s.biu.fwdA.length, byte s.biu.fwdB.length, byte s.owns.length, byte s.peers.length] ++
  (match s.mgmt.longTask with
   | some t => [1, t.code.code, byte t.tag]
   | none => [0])

def State.readStation (t : TaskIn) (s : State) : State := s.answerTask t .done s.stationData

/-- READ_LINK's relocation item (R121, R182). In WAITING the cause shown is PLAN_FULL, and the override flag beside it is
the record's own (DESIGN CHOICE, log 23). -/
def relocData : Option Reloc → List Byte
  | none => [0xFF]
  | some r =>
    [byte (if r.phase = .waiting then 6 else r.cause.code), flagByte r.override, byte r.phase.code] ++
      spanOptBytes r.cand ++ [byte r.attempts, byte r.excluded.length]

/-- READ_LINK's last relocation outcome (R117, R182). -/
def outcomeData : Option (Cause × Ending) → List Byte
  | none => [0xFF]
  | some (c, e) => byte c.code :: e.bytes

/-- The data of READ_LINK (R182). -/
def State.linkData (s : State) (l : Fin 8) (x : LinkRec) : List Byte :=
  let f := s.fe x.desc.frontEnd
  [byte (LinkKind.code x.desc.kind), byte x.desc.band.code, byte x.state.code, byte x.cls, flagByte s.tally.onAir[l],
   flagByte x.pinned] ++ spanOptBytes x.current ++ bytes16 x.pointer ++ bytes16 x.sampleMs ++
  [x.history, byte x.fades, byte x.unlocked] ++ relocData x.reloc ++
  [flagByte x.relocHoldOff.isSome, flagByte x.acquireRetry.isSome] ++ outcomeData x.lastOutcome ++
  [byte f.state.code, byte f.overwrites]

/-- The link a task names in its first parameter byte, with its record; BAD_PARAM outside 0 to 7, REFUSED for a link
with no descriptor (R182, R184, R185). -/
def State.taskLink (s : State) (t : TaskIn) : Sum ReturnCode (Fin 8 × LinkRec) :=
  match fin8 8 t.params 0 with
  | none => .inl .badParam
  | some l =>
    match s.link l with
    | none => .inl .refused
    | some x => .inr (l, x)

def State.readLink (t : TaskIn) (s : State) : State :=
  match s.taskLink t with
  | .inl ret => s.rejectTask t ret
  | .inr (l, x) => s.answerTask t .done (s.linkData l x)

/-- One slot of READ_PLAN (R182). An own entry reports no expiry: no byte stands in the expiry's place, nor the FFh of an
absent value (DESIGN CHOICE, log 23). -/
def State.slotData (s : State) (n : Nat) : List Byte :=
  byte n :: (
    match finOf 16 n with
    | some i =>
      (match s.ownEntry i with
       | some e => Span.bytes e.span ++ [byte s.station, byte e.link, byte e.cls, byte e.standing.code, byte e.hold]
       | none => [0xFF])
    | none =>
      match finOf 96 (n - 16) with
      | some j =>
        (match s.plan.peers[j] with
         | some e => Span.bytes e.span ++
             [byte e.holder, byte e.link, byte e.cls, byte (if e.held then 1 else 0), byte e.hold] ++
             bytes16 ((e.expiry - s.now) / 100000)
         | none => [0xFF])
      | none => [0xFF])

def State.readPlan (t : TaskIn) (s : State) : State :=
  match ranged 0 111 t.params 0, ranged 1 3 t.params 1 with
  | some start, some count =>
    s.answerTask t .done (((List.range count).filter fun k => decide (start + k ≤ 111)).flatMap fun k =>
      s.slotData (start + k))
  | _, _ => s.rejectTask t .badParam

/-- The data of READ_TALLY (R183). -/
def State.tallyData (s : State) : List Byte :=
  ((List.finRange 8).flatMap fun k => [byte (s.layer k).state.code, optByte (s.layer k).source]) ++
  ((List.finRange 8).filterMap fun k => (s.source k).map fun x => flagByte x.standby) ++
  [byte (flagSet s.tally.onAir)] ++ bytes32 (flagSet s.tally.hits)

def State.readTally (t : TaskIn) (s : State) : State :=
  match flagAt t.params 0 with
  | some clear => (if clear then s.clearHits else s).answerTask t .done s.tallyData
  | none => s.rejectTask t .badParam

/-- A roster member of READ_LINE, with its position in the talker list from 1, or FFh (R183). -/
def memberData (x : Line) (m : Member) : List Byte :=
  [byte m.station, byte m.port, flagByte m.listen, flagByte m.talk,
   optByte ((x.position m.station m.port).map (· + 1))]

def State.readLine (t : TaskIn) (s : State) : State :=
  match fin8 16 t.params 0, ranged 0 31 t.params 1, ranged 1 7 t.params 2 with
  | some n, some start, some count =>
    let x := s.line n
    s.answerTask t .done
      ([byte s.image.caps[n], flagByte x.overfull, byte x.roster.length, byte x.talkers.length] ++
        ((x.roster.drop start).take count).flatMap (memberData x))
  | _, _, _ => s.rejectTask t .badParam

/-- READ_COUNTERS (R191). -/
def State.readCounters (t : TaskIn) (s : State) : State :=
  match ranged 0 7 t.params 0, ranged 1 8 t.params 1 with
  | some first, some count =>
    if first + count ≤ 8 then
      s.answerTask t .done (((s.mgmt.counters.toList.drop first).take count).flatMap fun c => bytes32 c.value.toNat)
    else s.rejectTask t .badParam
  | _, _ => s.rejectTask t .badParam

/-! ## SET_COUNTER -/

/-- SET_COUNTER (R191): the reply data are taken first. -/
def State.setCounter (t : TaskIn) (s : State) : State :=
  match fin8 8 t.params 0, t.params[1]?, u16 t.params 2, ranged 0 1 t.params 4 with
  | some k, some options, some mask, some mode =>
    let c := s.mgmt.counters[k]
    let data := byte k :: (bytes16 c.mask.toNat ++ [flagByte c.bytes] ++ bytes32 c.value.toNat)
    let c := if options.getLsbD 0 then { c with mask := BitVec.ofNat 16 mask, bytes := decide (mode = 1) } else c
    let c := if options.getLsbD 1 then { c with value := 0 } else c
    { s with mgmt := { s.mgmt with counters := s.mgmt.counters.set k c } }.answerTask t .done data
  | _, _, _, _ => s.rejectTask t .badParam

/-! ## Tasks that change a link -/

/-- SET_CLASS (R184): the link is checked before the class. -/
def State.setClass (t : TaskIn) (s : State) : State :=
  match s.taskLink t with
  | .inl ret => s.rejectTask t ret
  | .inr (l, x) =>
    match ranged 0 3 t.params 1 with
    | some c => (s.setLink l { x with cls := c }).answerTask t .done []
    | none => s.rejectTask t .badParam

/-- UNPIN_LINK (R105, R184). -/
def State.unpinLink (t : TaskIn) (s : State) : State :=
  match s.taskLink t with
  | .inl ret => s.rejectTask t ret
  | .inr (l, x) =>
    let s := s.setLink l { x with pinned := false }
    (if x.pinned then s.lossReloc l else s).answerTask t .done []

/-- SET_SAMPLE (R184): the link is checked before the interval. -/
def State.setSample (t : TaskIn) (s : State) : State :=
  match s.taskLink t with
  | .inl ret => s.rejectTask t ret
  | .inr (l, x) =>
    match u16 t.params 1 with
    | some n =>
      if 50 ≤ n ∧ n ≤ 1000 then
        if x.reloc.isSome then s.rejectTask t .busy
        else (s.setLink l { x with sampleMs := n }).answerTask t .done []
      else s.rejectTask t .badParam
    | none => s.rejectTask t .badParam

/-- A long task occupies the slot and starts its relocation (R181). -/
def State.startLong (t : TaskIn) (c : TaskCode) (l : Fin 8) (cause : Cause) (cand : Option Span) (override : Bool)
    (s : State) : State :=
  let slot : LongTask := { origin := t.origin, tag := t.tag, code := c, link := l, timer := s.after (sec 10) }
  { s with mgmt := { s.mgmt with longTask := some slot } }.startReloc l cause cand true override

/-- PIN_LINK (R185): its checks in the order of the table. -/
def State.pinLink (t : TaskIn) (s : State) : State :=
  match spanAt t.params 1 with
  | none => s.rejectTask t .badParam
  | some sp =>
    match s.taskLink t with
    | .inl ret => s.rejectTask t ret
    | .inr (l, x) =>
      if sp.band ≠ x.desc.band ∨ Span.width sp ≠ x.desc.width then s.rejectTask t .refused
      else if s.mgmt.longTask.isSome ∨ x.reloc.isSome then s.rejectTask t .busy
      else s.startLong t .pinLink l .taskPin (some sp) false

/-- MOVE_LINK (R185): its checks in the order of the table, after the length of its parameters (log 36). -/
def State.moveLink (t : TaskIn) (s : State) : State :=
  match flagAt t.params 1, s.taskLink t with
  | none, _ => s.rejectTask t .badParam
  | some _, .inl ret => s.rejectTask t ret
  | some override, .inr (l, x) =>
    if s.mgmt.longTask.isSome ∨ x.reloc.isSome then s.rejectTask t .busy
    else if x.state ≠ .up ∨ x.pinned = true ∨ (s.tally.onAir[l] = true ∧ override = false) then
      s.rejectTask t .refused
    else s.startLong t .moveLink l .taskMove none override

/-! ## SET_MEMBERSHIP -/

/-- The number of own ports that hold memberships (R155, R186). -/
def State.membershipPorts (s : State) : Nat :=
  (s.tbk.ports.toList.filter fun p => p.any fun r => !r.members.isEmpty).length

/-- The reply data of a SET_MEMBERSHIP that is DONE (R186), the memberships in line order (DESIGN CHOICE, log 39). -/
def State.membershipData (s : State) (q : Fin 12) : List Byte :=
  match s.tbPort q with
  | some r => r.members.flatMap fun m => [byte m.line, flagByte m.listen, flagByte m.talk]
  | none => []

/-- SET_MEMBERSHIP on a port that exists (R186): the change, or the return code of its refusal. -/
def State.applyMembership (q : Fin 12) (r : TbPort) (n : Fin 16) (listen talk remove : Bool) (s : State) :
    Option State :=
  if remove || (!listen && !talk) then
    match r.member n with
    | some _ => some (s.dropMembership q n)
    | none => some s
  else
    let m : Membership := { line := n, listen, talk }
    match r.member n with
    | some old => if old = m then some s else some (s.putMembership q m)
    | none =>
      if 4 ≤ r.members.length then none
      else if r.members = [] ∧ 8 ≤ s.membershipPorts then none
      else some (s.putMembership q m)

def State.setMembership (t : TaskIn) (s : State) : State :=
  match fin8 12 t.params 0, fin8 16 t.params 1, t.params[2]? with
  | some q, some n, some flags =>
    match s.tbPort q with
    | none => s.rejectTask t .refused
    | some r =>
      match s.applyMembership q r n (flags.getLsbD 0) (flags.getLsbD 1) (flags.getLsbD 2) with
      | some s' => s'.answerTask t .done (s'.membershipData q)
      | none => s.rejectTask t .refused
  | _, _, _ => s.rejectTask t .badParam

/-! ## Capture rules -/

/-- A held capture as a reply carries it (R187, log 23). -/
def heldData : Option HeldCapture → List Byte
  | none => [0xFF]
  | some h => byte h.disposition.code :: (h.header ++ [byte h.delivery.code])

/-- A capture rule as a reply carries it (R187, log 23). -/
def CaptureRule.data (r : CaptureRule) : List Byte :=
  [byte r.mode.code, r.kindValue, r.kindMask, byte r.originValue.toNat, byte r.originMask.toNat] ++
  bytes16 r.subjectValue.toNat ++ bytes16 r.subjectMask.toNat ++ [optByte r.requester] ++ bytes32 r.hits.toNat ++
  [flagByte r.hitFlag] ++ heldData r.held

def State.setRule (k : Fin 4) (r : CaptureRule) (s : State) : State :=
  { s with mgmt := { s.mgmt with rules := s.mgmt.rules.set k r } }

/-- The key a task's parameters give a rule (R187, section 11.2). -/
def readKeyParams (l : List Byte) (requester : Nat) (mode : CaptureMode) : Option CaptureRule := do
  let kv ← l[1]?
  let km ← l[2]?
  let ov ← ranged 0 127 l 3
  let om ← ranged 0 127 l 4
  let sv ← u16 l 5
  let sm ← u16 l 7
  pure { mode, kindValue := kv, kindMask := km, originValue := BitVec.ofNat 7 ov, originMask := BitVec.ofNat 7 om,
         subjectValue := BitVec.ofNat 16 sv, subjectMask := BitVec.ofNat 16 sm, requester := some requester, hits := 0,
         hitFlag := false, held := none }

/-- ARM_CAPTURE (R187). -/
def State.armCapture (t : TaskIn) (s : State) : State :=
  match fin8 4 t.params 0, (u8 t.params 9).bind CaptureMode.ofCode with
  | some k, some mode =>
    match readKeyParams t.params t.origin mode with
    | some r =>
      let r := if mode = .off then { s.mgmt.rules[k] with mode := .off } else r
      (s.setRule k r).answerTask t .done r.data
    | none => s.rejectTask t .badParam
  | _, _ => s.rejectTask t .badParam

/-- READ_CAPTURE (R187). -/
def State.readCapture (t : TaskIn) (s : State) : State :=
  match fin8 4 t.params 0, flagAt t.params 1 with
  | some k, some clear =>
    let r := s.mgmt.rules[k]
    (if clear then s.setRule k { r with hits := 0, hitFlag := false } else s).answerTask t .done r.data
  | _, _ => s.rejectTask t .badParam

/-! ## RESTART and the task path -/

/-- RESTART (R33): the reply first, URGENT, then the entry into LEAVING. -/
def State.restartTask (t : TaskIn) (s : State) : State := (s.reply true t.origin t.tag t.code .done []).enterLeaving

/-- A task of a known code (section 10.1). -/
def State.runTask (c : TaskCode) (t : TaskIn) (s : State) : State :=
  match c with
  | .readStation => s.readStation t
  | .readLink => s.readLink t
  | .readPlan => s.readPlan t
  | .readTally => s.readTally t
  | .readLine => s.readLine t
  | .readCounters => s.readCounters t
  | .setCounter => s.setCounter t
  | .setClass => s.setClass t
  | .pinLink => s.pinLink t
  | .unpinLink => s.unpinLink t
  | .moveLink => s.moveLink t
  | .setMembership => s.setMembership t
  | .armCapture => s.armCapture t
  | .readCapture => s.readCapture t
  | .restart => s.restartTask t
  | .setSample => s.setSample t

/-- A task's entry in the recent-task list (R179); entries are made with one interval, so the first made is the nearest
its expiry. -/
def State.noteTask (t : TaskIn) (s : State) : State :=
  let q := s.mgmt.recent
  let kept := if q.length < 8 then q else q.drop 1
  let entry : RecentTask := { origin := t.origin, tag := t.tag, code := t.code.toNat, expiry := s.after (sec 1) }
  { s with mgmt := { s.mgmt with recent := kept ++ [entry] } }

/-- The recent-task list finds a task to be a copy (R179). -/
def State.isCopy (s : State) (t : TaskIn) : Bool :=
  s.mgmt.recent.any fun r => r.origin == t.origin && r.tag == t.tag && r.code == t.code.toNat

/-- MGMT takes a TASK (R178, R179): its code, and the copy check, before anything else. -/
def State.takeTask (t : TaskIn) (s : State) : State :=
  if s.isCopy t then s
  else
    let s := s.noteTask t
    match TaskCode.ofCode t.code with
    | some c => s.runTask c t
    | none => s.rejectTask t .unknownTask

/-- The task timer runs out (R134, R181). -/
def State.taskTimeout (s : State) : State :=
  match s.mgmt.longTask with
  | some t =>
    let s := { s with mgmt := { s.mgmt with longTask := none } }
    (s.modReloc t.link fun r => { r with task := false }).reply false t.origin t.tag t.code.code .timedOut []
  | none => s

end Sys2Proof.Machine
end

