-- ==== Sys2Proof/Machine/Receive.lean ====
section
/-! DEFINITION. The receive path (R6): origin learning, duplicate-station detection, forwarding, the capture hook, dispatch
by kind, and the captures. -/

namespace Sys2Proof.Machine

/-! ## Reception on a port -/

/-- A port is sending. -/
def PortState.isBusy : PortState → Bool
  | .sending _ => true
  | .idle | .receiving | .backoff _ _ _ => false

/-- A port receives (R1, R4). -/
def State.hears (s : State) (p : BusPort) : Bool := s.phase.onBus && s.enabled p && !(s.biu.port p).isBusy

/-- The first bit of another station's bulletin (R4). -/
def PortState.begun : PortState → PortState
  | .idle => .receiving
  | .backoff n e _ => .backoff n e true
  | .receiving => .receiving
  | .sending tx => .sending tx

/-- A reception ends (R4): the port returns to IDLE, or stays in BACKOFF. -/
def PortState.ended : PortState → PortState
  | .receiving => .idle
  | .backoff n e _ => .backoff n e false
  | .idle => .idle
  | .sending tx => .sending tx

/-! ## Bridging -/

/-- The bulletin's origin is the station's own number (R7). -/
def State.isOwn (s : State) (b : Bulletin) : Bool := b.origin.toNat == s.station

/-- The origin table's entry of a station. -/
def State.origin (s : State) (n : Nat) : Option Origin := (finOf 127 n).bind fun i => s.biu.origins[i]

def State.setOrigin (i : Fin 127) (o : Option Origin) (s : State) : State :=
  { s with biu := { s.biu with origins := s.biu.origins.set i o } }

/-- Origin learning (R13). -/
def State.learn (p : BusPort) (b : Bulletin) (s : State) : State :=
  if s.isBridge && !s.isOwn b then
    match finOf 127 b.origin.toNat with
    | some i =>
      match s.biu.origins[i] with
      | none => s.setOrigin i (some { port := p, expiry := s.after (sec 10) })
      | some o => if o.port = p then s.setOrigin i (some { port := p, expiry := s.after (sec 10) }) else s
    | none => s
  else s

/-- The copy a bridge forwards (R14): every field but the hop budget, which is one less. -/
def Bulletin.copy (b : Bulletin) : Bulletin := { b with hopPrio := b.hopPrio - 1 }

/-- A copy is offered to a forward queue (R15). -/
def State.forwardTo (p : BusPort) (b : Bulletin) (s : State) : State :=
  if (s.biu.fwd p).length < 8 then s.setFwd p (s.biu.fwd p ++ [{ bulletin := b, attempts := 0 }])
  else s.count .txQueueRefused (some b.length)

/-- Forwarding consideration (R14). -/
def State.forward (p : BusPort) (b : Bulletin) (s : State) : State :=
  if s.isBridge && !s.isOwn b then
    if (s.origin b.origin.toNat).any fun o => o.port == p then
      if b.hops = 0 then s.count .rxHopExpired (some b.length) else s.forwardTo (BusPort.other p) b.copy
    else s.count .rxOriginMismatch (some b.length)
  else s

/-! ## Duplicate stations and the roster -/

/-- The duplicate-station step (R20, R192). -/
def State.detectDuplicate (b : Bulletin) (s : State) : State :=
  if s.isOwn b && b.kind == Kind.presence.code then
    match readPresenceBody b.body with
    | some (serial, _) => if serial ≠ s.image.serial ∧ s.phase ≠ .silent then s.enterSilent else s
    | none => s
  else s

def State.setRoster (i : Fin 127) (e : Option RosterEntry) (s : State) : State :=
  { s with biu := { s.biu with roster := s.biu.roster.set i e } }

/-- A PRESENCE of another station (R18). -/
def State.takePresence (origin serial : Nat) (records : List PresenceRecord) (s : State) : State :=
  match finOf 127 origin with
  | none => s
  | some i =>
    let s := match s.biu.roster[i] with
      | some e => if e.serial = serial then s else (s.setRoster i none).stationGone origin
      | none => s
    (s.setRoster i (some { serial, expiry := s.after (sec 4) })).agreeMembers origin records

/-! ## Dispatch -/

/-- A kind's bulletin at its receiving block (R22), from an origin other than the station's own. -/
def State.deliver (k : Kind) (b : Bulletin) (s : State) : State × Disposition :=
  let origin := b.origin.toNat
  let bad : State × Disposition := (s, .badBody)
  match k with
  | .presence =>
    match readPresenceBody b.body with
    | some (serial, records) => (s.takePresence origin serial records, .accepted)
    | none => bad
  | .planClaim =>
    match readPlanBody b.body with
    | some x => (State.withNews (s.planArrival false origin x b.length), .accepted)
    | none => bad
  | .planHold =>
    match readPlanBody b.body with
    | some x => (State.withNews (s.planArrival true origin x b.length), .accepted)
    | none => bad
  | .planYield =>
    match readYieldBody b.body with
    | some (sp, link) => (State.withNews (s.planYielded origin link sp), .accepted)
    | none => bad
  | .sighting =>
    match readSightingBody b.body with
    | some (sp, severity) => ((s.takeSighting sp severity).foldReceived origin sp severity, .accepted)
    | none => bad
  | .tallyState =>
    match readTallyBody b.body with
    | some x => s.takeLayer origin x b.length
    | none => bad
  | .lineJoin =>
    match readJoinBody b.body with
    | some (n, port, listen, talk) => (s.takeJoin origin n port listen talk, .accepted)
    | none => bad
  | .lineLeave =>
    match readLeaveBody b.body with
    | some (n, port) => (s.takeLeave origin n port, .accepted)
    | none => bad
  | .talk =>
    match readTalkBody b.body with
    | some (n, port, cls, on) => s.takeTalk origin n port cls on b.length
    | none => bad
  | .followTalk =>
    match readFollowBody b.body with
    | some (layer, input, port, on) => (s.takeFollow origin layer input port on, .accepted)
    | none => bad
  | .callRing =>
    match s.readCall false origin b.body b.length with
    | .inl r => r
    | .inr c => (s.takeRing origin c, .accepted)
  | .callAnswer =>
    match s.readCall false origin b.body b.length with
    | .inl r => r
    | .inr c => (s.takeAnswer origin c, .accepted)
  | .callEnd =>
    match s.readCall true origin b.body b.length with
    | .inl r => r
    | .inr c => (s.takeEnd origin c, .accepted)
  | .callKeep =>
    match s.readCall false origin b.body b.length with
    | .inl r => r
    | .inr c => (s.takeKeep origin c, .accepted)
  | .task =>
    if s.phase ≠ .active then (s, .phase)
    else if b.target = 0 then bad
    else match b.body with
      | tag :: code :: params => (s.takeTask { origin, tag := tag.toNat, code, params }, .accepted)
      | _ => bad
  | .taskReply | .capture => (s, .accepted)

/-- Dispatch (R7, R22), and the bulletin's disposition (R23). An own-origin PRESENCE that R192 discards for its body is
OWN_ORIGIN and counted like every other own-origin bulletin (DESIGN CHOICE, log 42). -/
def State.dispatch (b : Bulletin) (s : State) : State × Disposition :=
  if s.isOwn b then (s.count .rxOriginMismatch (some b.length), .ownOrigin)
  else if b.target ≠ 0 ∧ b.target.toNat ≠ s.station then (s, .notAddressed)
  else match Kind.ofCode b.kind with
    | some k => s.deliver k b
    | none => (s, .unknownKind)

/-! ## Captures -/

/-- The body of a CAPTURE (section 11.1, R189). -/
def captureBody (k : Fin 4) (d : Disposition) (b : Bulletin) : List Byte :=
  [byte k, byte d.code] ++ b.header ++ b.body.take 38

/-- A ONCE match makes its capture (R189), for the rule as the dispatch has left it (DESIGN CHOICE, log 25). -/
def State.makeCapture (b : Bulletin) (d : Disposition) (s : State) (k : Fin 4) : State :=
  let r := s.mgmt.rules[k]
  let offer := s.offer { kind := .capture, urgent := false, target := r.requester.getD 0, body := captureBody k d b,
                         key := none, block := .mgmt, ticket := .capture k }
  let held : HeldCapture := { disposition := d, header := b.header, age := offer.2,
                              delivery := if offer.2.isSome then .queued else .refused }
  offer.1.setRule k { r with held := some held }

/-- The receive path of an accepted bulletin (R6). -/
def State.receivePath (p : BusPort) (b : Bulletin) (s : State) : State :=
  let s := ((s.learn p b).detectDuplicate b).forward p b
  let once := s.onceHits b
  let r := (s.captureHook b).dispatch b
  once.foldl (State.makeCapture b r.2) r.1

/-- A reception that a port hears ends: an accepted bulletin, or a run of `len` bytes that is discarded (R5). -/
def State.heardRun (p : BusPort) (len : Nat) (b : Option Bulletin) (s : State) : State :=
  if s.hears p then
    let s := s.setPort p (s.biu.port p).ended
    match b with
    | some b => (s.count .rxAccepted (some b.length)).receivePath p b
    | none => s.count .rxBadCheck (some len)
  else s

/-- A bulletin of a kind arrives with this header and body (log 8). -/
def State.receive (p : BusPort) (k : Kind) (rx : Rx) (s : State) : State :=
  s.heardRun p (7 + rx.body.length) (rx.accept k)

end Sys2Proof.Machine
end

