-- ==== Sys2Proof/Machine/Bulletins.lean ====
section
/-! DEFINITION. The commands that are received bulletins, kind by kind: each goes through the receive path (R6) to the
block that takes its kind (R22). -/

namespace Sys2Proof.Machine

/-- PRESENCE (R17 to R20, R192). -/
def execPresence (p : BusPort) (rx : Rx) (s : State) : Host.Outcome State Fault Refusal := done (s.receive p .presence rx)

/-- PLAN_CLAIM (R38, R40, R44 to R46, R68 to R71, R79, R83). -/
def execPlanClaim (p : BusPort) (rx : Rx) (s : State) : Host.Outcome State Fault Refusal := done (s.receive p .planClaim rx)

/-- PLAN_HOLD (R38, R41, R44 to R46, R68 to R71, R79, R83). -/
def execPlanHold (p : BusPort) (rx : Rx) (s : State) : Host.Outcome State Fault Refusal := done (s.receive p .planHold rx)

/-- PLAN_YIELD (R38, R42, R71). -/
def execPlanYield (p : BusPort) (rx : Rx) (s : State) : Host.Outcome State Fault Refusal := done (s.receive p .planYield rx)

/-- SIGHTING (R38, R52, R53, R109, R110). -/
def execSighting (p : BusPort) (rx : Rx) (s : State) : Host.Outcome State Fault Refusal := done (s.receive p .sighting rx)

/-- TALLY_STATE (R136, R137, R144, R148). -/
def execTallyState (p : BusPort) (rx : Rx) (s : State) : Host.Outcome State Fault Refusal := done (s.receive p .tallyState rx)

/-- LINE_JOIN (R159, R163). -/
def execLineJoin (p : BusPort) (rx : Rx) (s : State) : Host.Outcome State Fault Refusal := done (s.receive p .lineJoin rx)

/-- LINE_LEAVE (R159, R163). -/
def execLineLeave (p : BusPort) (rx : Rx) (s : State) : Host.Outcome State Fault Refusal := done (s.receive p .lineLeave rx)

/-- TALK (R161, R163). -/
def execTalk (p : BusPort) (rx : Rx) (s : State) : Host.Outcome State Fault Refusal := done (s.receive p .talk rx)

/-- FOLLOW_TALK (R165). -/
def execFollowTalk (p : BusPort) (rx : Rx) (s : State) : Host.Outcome State Fault Refusal := done (s.receive p .followTalk rx)

/-- CALL_RING (R166, R167, R169, R170, R173). -/
def execCallRing (p : BusPort) (rx : Rx) (s : State) : Host.Outcome State Fault Refusal := done (s.receive p .callRing rx)

/-- CALL_ANSWER (R166, R171). -/
def execCallAnswer (p : BusPort) (rx : Rx) (s : State) : Host.Outcome State Fault Refusal := done (s.receive p .callAnswer rx)

/-- CALL_END (R166, R167, R172). -/
def execCallEnd (p : BusPort) (rx : Rx) (s : State) : Host.Outcome State Fault Refusal := done (s.receive p .callEnd rx)

/-- CALL_KEEP (R166, R167, R171, R173). -/
def execCallKeep (p : BusPort) (rx : Rx) (s : State) : Host.Outcome State Fault Refusal := done (s.receive p .callKeep rx)

/-- TASK_REPLY (R22). -/
def execTaskReply (p : BusPort) (rx : Rx) (s : State) : Host.Outcome State Fault Refusal := done (s.receive p .taskReply rx)

/-- CAPTURE (R22). -/
def execCapture (p : BusPort) (rx : Rx) (s : State) : Host.Outcome State Fault Refusal := done (s.receive p .capture rx)

end Sys2Proof.Machine
end

