-- ==== Sys2Proof/Machine/Bus.lean ====
section
/-! DEFINITION. The bus ports' senders (R2, R3, R10, R12, R15) and the commands of reset and start-up and of the ports. -/

namespace Sys2Proof.Machine

/-! ## The sender -/

/-- The oldest entry of a priority whose ports pending set holds a port; entries stand in order of age. -/
def State.oldest (s : State) (p : BusPort) (urgent : Bool) : Option QueueEntry :=
  s.biu.queue.find? fun e => e.urgent == urgent && e.pending.has p

/-- The copy of an own entry that an attempt sends (R12). -/
def QueueEntry.tx (e : QueueEntry) (p : BusPort) : Tx :=
  { source := .own e.age e.version, bulletin := e.bulletin, attempts := e.attempts p }

def FwdEntry.tx (e : FwdEntry) : Tx := { source := .forward, bulletin := e.bulletin, attempts := e.attempts }

/-- The sender's choice (R12); own bulletins are sent in ACTIVE and LEAVING alone (R1). -/
def State.choose (s : State) (p : BusPort) : Option Tx :=
  let own (urgent : Bool) : Option Tx := if s.phase.sendsOwn then (s.oldest p urgent).map fun e => e.tx p else none
  match own true with
  | some tx => some tx
  | none =>
    match (s.biu.fwd p).head? with
    | some e => some e.tx
    | none => own false

/-- The wire has been quiet for the minimum gap (R2). -/
def State.startAttempt (p : BusPort) (s : State) : State :=
  if s.phase.onBus && s.enabled p && s.biu.port p == .idle then
    match s.choose p with
    | some tx => s.setPort p (.sending tx)
    | none => s
  else s

/-! ## Completion -/

/-- The queued entry a transmission still belongs to: its entry, with the content it was copied from (R10). -/
def State.liveEntry (s : State) (age version : Nat) : Option QueueEntry :=
  s.biu.queue.find? fun e => e.age == age && e.version == version

/-- The completion report of an own entry (R10). -/
def State.report (e : QueueEntry) (sent : Bool) (s : State) : State :=
  match e.ticket with
  | .claim l sp => if sent then s.claimSent l sp else State.withNews (s.claimAbandoned l sp)
  | .capture k => s.captureReport k e.age (if sent then .sent else .abandoned)
  | .sighting _ _ _ | .none => s

/-- A port has dealt with an own entry (R10); the entry leaves the queue when no port is pending, and in LEAVING the
last one ends the leave wait (R36). -/
def State.settlePort (p : BusPort) (sent : Bool) (e : QueueEntry) (s : State) : State :=
  let e := { e with pending := e.pending.erase p, sent := if sent then e.sent.insert p else e.sent }
  if e.pending.isEmpty then ((s.removeQueued e.age).report e (!e.sent.isEmpty)).leaveIfEmpty
  else s.setQueue (s.biu.queue.map fun x =>
    if x.age = e.age then { x with pending := e.pending, sent := e.sent } else x)

/-- The head of a forward queue leaves it (R15). -/
def State.dropHead (p : BusPort) (s : State) : State := s.setFwd p ((s.biu.fwd p).drop 1)

/-- A port is done with the bulletin it was sending: sent, or abandoned (R2, R3, R10, R15). -/
def State.finishTx (p : BusPort) (sent : Bool) (tx : Tx) (s : State) : State :=
  match tx.source with
  | .own age version =>
    match s.liveEntry age version with
    | some e => s.settlePort p sent e
    | none => s
  | .forward => s.dropHead p

/-- A transmission succeeds (R2). -/
def State.txSuccess (p : BusPort) (s : State) : State :=
  match s.biu.port p with
  | .sending tx => ((s.setPort p .idle).count .txSent (some tx.bulletin.length)).finishTx p true tx
  | .idle | .receiving | .backoff _ _ _ => s

/-- Backoff, in slots, of station `n` after its `k`th failure (R3). -/
def backoffSlots (n k : Nat) : Nat := (n + k * 37) % 16 + 1

/-- The slot time is 128 µs. -/
def slotMicros : Nat := 128

/-- The attempt count is kept in the entry that holds the bulletin (R3, log 10). -/
def State.noteFailure (p : BusPort) (k : Nat) (tx : Tx) (s : State) : State :=
  match tx.source with
  | .own age version =>
    s.setQueue (s.biu.queue.map fun e => if e.age = age ∧ e.version = version then e.setAttempts p k else e)
  | .forward =>
    match s.biu.fwd p with
    | e :: rest => s.setFwd p ({ e with attempts := k } :: rest)
    | [] => s

/-- A collision (R3). -/
def State.txCollision (p : BusPort) (s : State) : State :=
  match s.biu.port p with
  | .sending tx =>
    let k := tx.attempts + 1
    let len := some tx.bulletin.length
    let s := (s.count .txCollision len).noteFailure p k tx
    if k < 8 then
      let slots := backoffSlots s.station k
      s.setPort p (.backoff slots (s.after (slots * slotMicros)) false)
    else ((s.setPort p .idle).count .txAbandoned len).finishTx p false tx
  | .idle | .receiving | .backoff _ _ _ => s

/-- The backoff of a port runs out (R3, R4). -/
def State.endBackoff (p : BusPort) (s : State) : State :=
  match s.biu.port p with
  | .backoff _ expiry receiving => (s.reach expiry).setPort p (if receiving then .receiving else .idle)
  | .idle | .receiving | .sending _ => s

/-! ## Commands: reset and start-up -/

/-- HARD_RESET (R24). -/
def execHardReset (s : State) : Host.Outcome State Fault Refusal := done s.hardReset

/-- RESET_RELEASE (R24, R25). -/
def execResetRelease (s : State) : Host.Outcome State Fault Refusal :=
  done (if s.resetHeld then s.startLoading else s)

/-- CONFIGURATION_READ (R26, R27, R29). -/
def execConfigurationRead (memory : List Byte) (s : State) : Host.Outcome State Fault Refusal :=
  done (s.configurationRead memory)

/-! ## Commands: the ports -/

/-- SEND_ATTEMPT_START (R2, R12). -/
def execSendAttemptStart (p : BusPort) (s : State) : Host.Outcome State Fault Refusal := done (s.startAttempt p)

/-- RECEPTION_START (R4). -/
def execReceptionStart (p : BusPort) (s : State) : Host.Outcome State Fault Refusal :=
  done (if s.hears p then s.setPort p (s.biu.port p).begun else s)

/-- TRANSMISSION_SUCCESS (R2, R10, R15, R36). -/
def execTransmissionSuccess (p : BusPort) (s : State) : Host.Outcome State Fault Refusal := done (s.txSuccess p)

/-- COLLISION (R3, R10, R15). -/
def execCollision (p : BusPort) (s : State) : Host.Outcome State Fault Refusal := done (s.txCollision p)

/-- BACKOFF_EXPIRY (R3, R4). -/
def execBackoffExpiry (p : BusPort) (s : State) : Host.Outcome State Fault Refusal := done (s.endBackoff p)

/-- RECEPTION_END (R5): the run is tested, and one that passes goes through the receive path (log 7). -/
def execReceptionEnd (p : BusPort) (run : List Byte) (s : State) : Host.Outcome State Fault Refusal :=
  done (s.heardRun p run.length (acceptRun run))

end Sys2Proof.Machine
end

