-- ==== Sys2Proof/Machine/BusTimers.lean ====
section
/-! DEFINITION. The timers of the BIU: origin ages, PRESENCE, the roster, the join and the leave timer. -/

namespace Sys2Proof.Machine

/-- A learned entry's age runs out (R13). -/
def State.forgetOrigin (n : Fin 127) (s : State) : State := s.setOrigin n none

/-- A roster entry runs out (R19): TBK is told that the station has gone. -/
def State.rosterGone (n : Fin 127) (s : State) : State := (s.setRoster n none).stationGone n

/-- The leave timer runs out (R36). -/
def State.leaveOver (s : State) : State := if s.phase = .leaving then s.restartPart else s

/-- ORIGIN_AGE_EXPIRY (R13). -/
def execOriginAgeExpiry (n : Fin 127) (s : State) : Host.Outcome State Fault Refusal :=
  done (s.onExpiry (s.biu.origins[n].map (·.expiry)) (State.forgetOrigin n))

/-- PRESENCE_TIMER_EXPIRY (R17). -/
def execPresenceTimerExpiry (s : State) : Host.Outcome State Fault Refusal :=
  done (s.onExpiry s.biu.presenceTimer State.sendPresence)

/-- ROSTER_EXPIRY (R19). -/
def execRosterExpiry (n : Fin 127) (s : State) : Host.Outcome State Fault Refusal :=
  done (s.onExpiry (s.biu.roster[n].map (·.expiry)) (State.rosterGone n))

/-- JOIN_TIMER_EXPIRY (R32). -/
def execJoinTimerExpiry (s : State) : Host.Outcome State Fault Refusal :=
  done (s.onExpiry s.biu.joinTimer State.enterActive)

/-- LEAVE_TIMER_EXPIRY (R36). -/
def execLeaveTimerExpiry (s : State) : Host.Outcome State Fault Refusal :=
  done (s.onExpiry s.biu.leaveTimer State.leaveOver)

end Sys2Proof.Machine
end

