-- ==== Sys2Proof/Machine/FrontEnd.lean ====
section
/-! DEFINITION. What the front-ends bring (sections 5.3 to 5.9): the end of a command frame, tune outcomes, the tune timer,
reports, faults and beltpack keys. -/

namespace Sys2Proof.Machine

/-- Phases in which key bits are handed on (R95). -/
def Phase.takesKeys : Phase → Bool
  | .joining | .active | .leaving | .silent => true
  | .loading | .halted => false

/-- RPORT tells LSUP of a front-end's event, where it serves a configured link (R94, R116). -/
def State.tellLink (a : Fin 8) (f : Fin 8 → State → State) (s : State) : State :=
  match s.linkOf a with
  | some l => f l s
  | none => s

/-- A tune outcome frame (R88). -/
def State.tuneAnswered (a : Fin 8) (number : Byte) (ok : Bool) (s : State) : State :=
  let r := s.fe a
  match r.state with
  | .tuning sp =>
    if r.sent && r.tuneNo == number.toNat then
      let s := s.setFe a { r with state := if ok then .tuned sp else .muted, sent := false, tuneTimer := none }
      s.tellLink a fun l s => if ok then s.tunedOk l else s.tuneLost l
    else s
  | .muted | .tuned _ | .fault => s

/-- The tune timer of a front-end runs out (R89). -/
def State.tuneTimedOut (a : Fin 8) (s : State) : State :=
  let r := s.fe a
  match r.state with
  | .tuning _ =>
    ((s.setFe a { r with state := .muted, sent := false, tuneTimer := none }).queueMute a).tellLink a
      fun l s => s.tuneLost l
  | .muted | .tuned _ | .fault => s.setFe a { r with tuneTimer := none }

/-- A report as the mailbox stores it (R92). -/
def storedReport (lock : Bool) (quality : Fin 16) (keys : BitVec 4) (fault : Bool) : Report :=
  { lock := lock && !fault, quality, keys, fault }

/-- A report goes into the mailbox; a fresh one it covers is an overwrite (R92). -/
def FrontEnd.store (m : Report) (r : FrontEnd) : FrontEnd :=
  { r with mailbox := some m, fresh := true, overwrites := if r.fresh then saturate r.overwrites else r.overwrites }

/-- A record enters FAULT (R94). -/
def State.enterFault (a : Fin 8) (s : State) : State :=
  let r := s.fe a
  let faulted := s.setFe a { r with state := .fault, sent := false, tuneTimer := none }
  match r.state with
  | .tuning _ => ((faulted.withdrawTune a).tellLink a fun l s => s.tuneLost l).tellLink a fun l s => s.hearFault l
  | .muted | .tuned _ => faulted.tellLink a fun l s => s.hearFault l
  | .fault => s

/-- A record leaves FAULT at a report with status OK (R94). -/
def State.leaveFault (a : Fin 8) (s : State) : State :=
  let r := s.fe a
  match r.state with
  | .fault => (s.setFe a { r with state := .muted }).tellLink a fun l s => s.hearRecovered l
  | .muted | .tuning _ | .tuned _ => s

/-- The key bits of a report against those last handed on (R95). -/
def State.reportKeys (a : Fin 8) (keys : BitVec 4) (s : State) : State :=
  let old := (s.fe a).lastKeys
  if s.phase.takesKeys && old != keys then (s.setFe a { s.fe a with lastKeys := keys }).beltpack a old keys else s

/-- A report frame (R92, R94, R95), in any phase from the start of LOADING. -/
def State.takeReport (a : Fin 8) (m : Report) (s : State) : State :=
  if s.resetHeld then s
  else
    let s := s.setFe a ((s.fe a).store m)
    let s := if m.fault then s.enterFault a else s.leaveFault a
    s.reportKeys a (if m.fault then 0 else m.keys)

/-- COMMAND_FRAME_SENT (R85, R87). -/
def execCommandFrameSent (s : State) : Host.Outcome State Fault Refusal := done s.commandSent

/-- TUNE_OUTCOME (R88, R116). -/
def execTuneOutcome (a : Fin 8) (number : Byte) (ok : Bool) (s : State) : Host.Outcome State Fault Refusal :=
  done (s.tuneAnswered a number ok)

/-- TUNE_TIMER_EXPIRY (R89). -/
def execTuneTimerExpiry (a : Fin 8) (s : State) : Host.Outcome State Fault Refusal :=
  done (s.onExpiry (s.fe a).tuneTimer (State.tuneTimedOut a))

/-- REPORT (R92, R94, R95). -/
def execReport (a : Fin 8) (lock : Bool) (quality : Fin 16) (keys : BitVec 4) (fault : Bool) (s : State) :
    Host.Outcome State Fault Refusal :=
  done (s.takeReport a (storedReport lock quality keys fault))

end Sys2Proof.Machine
end

