-- ==== Sys2Proof/Machine/LinkTimers.lean ====
section
/-! DEFINITION. The timers of LSUP: samples, hold-offs, the sighting copy filters and the acquire retry. -/

namespace Sys2Proof.Machine

/-- A timer of a link record. -/
def State.linkTimer (s : State) (l : Fin 8) (t : LinkRec → Timer) : Timer := (s.link l).bind t

/-- The entry of a band's copy filter with these fields. -/
def State.copyEntry (s : State) (origin : Nat) (sp : Span) (severity : Nat) : Option CopyEntry :=
  s.lsup.filters[sp.band.index].find? (CopyEntry.isCopy origin sp severity)

/-- A copy filter entry runs out (R110). -/
def State.copyOver (origin : Nat) (sp : Span) (severity : Nat) (s : State) : State :=
  s.setFilter sp.band (s.lsup.filters[sp.band.index].filter fun c => !c.isCopy origin sp severity)

/-- SAMPLE_TIMER_EXPIRY (R99 to R104, R107, R108, R111, R114). -/
def execSampleTimerExpiry (l : Fin 8) (s : State) : Host.Outcome State Fault Refusal :=
  done (s.onExpiry (s.linkTimer l (·.sampleTimer)) (State.sample l))

/-- RELOCATION_HOLD_OFF_EXPIRY (R105). -/
def execRelocationHoldOffExpiry (l : Fin 8) (s : State) : Host.Outcome State Fault Refusal :=
  done (s.onExpiry (s.linkTimer l (·.relocHoldOff)) (State.endRelocHoldOff l))

/-- COPY_FILTER_EXPIRY (R110). -/
def execCopyFilterExpiry (origin : Nat) (sp : Span) (severity : Nat) (s : State) : Host.Outcome State Fault Refusal :=
  done (s.onExpiry ((s.copyEntry origin sp severity).map (·.expiry)) (State.copyOver origin sp severity))

/-- SIGHTING_HOLD_OFF_EXPIRY (R112). -/
def execSightingHoldOffExpiry (l : Fin 8) (s : State) : Host.Outcome State Fault Refusal :=
  done (s.onExpiry (s.linkTimer l (·.sightingHoldOff)) (State.endSightingHoldOff l))

/-- ACQUIRE_RETRY_EXPIRY (R128). -/
def execAcquireRetryExpiry (l : Fin 8) (s : State) : Host.Outcome State Fault Refusal :=
  done (s.onExpiry (s.linkTimer l (·.acquireRetry)) (State.retryAcquire l))

end Sys2Proof.Machine
end

