-- ==== Sys2Proof/Machine/MgmtTimers.lean ====
section
/-! DEFINITION. The timers of MGMT. -/

namespace Sys2Proof.Machine

/-- An entry of the recent-task list by its three fields. -/
def RecentTask.is (origin tag code : Nat) (r : RecentTask) : Bool := r.origin == origin && r.tag == tag && r.code == code

/-- The recent-task entry of an origin, tag and code. -/
def State.recentTask (s : State) (origin tag code : Nat) : Option RecentTask :=
  s.mgmt.recent.find? (RecentTask.is origin tag code)

/-- A recent-task entry runs out (R179). -/
def State.recentOver (origin tag code : Nat) (s : State) : State :=
  { s with mgmt := { s.mgmt with recent := s.mgmt.recent.filter fun r => !r.is origin tag code } }

/-- RECENT_TASK_EXPIRY (R179). -/
def execRecentTaskExpiry (origin tag code : Nat) (s : State) : Host.Outcome State Fault Refusal :=
  done (s.onExpiry ((s.recentTask origin tag code).map (·.expiry)) (State.recentOver origin tag code))

/-- TASK_TIMER_EXPIRY (R134, R181). -/
def execTaskTimerExpiry (s : State) : Host.Outcome State Fault Refusal :=
  done (s.onExpiry (s.mgmt.longTask.map (·.timer)) State.taskTimeout)

end Sys2Proof.Machine
end

