-- ==== Sys2Proof/Machine/PlanTimers.lean ====
section
/-! DEFINITION. The timers of PLAN: peer entries, the overfull condition, quarantine, and the own entries. An own entry's
window timer is its retry wait while its claim is not sent (R67), and its claim window after (R66, R72). -/

namespace Sys2Proof.Machine

/-- A peer entry's expiry runs out (R43, R71). -/
def State.peerGone (j : Fin 96) (s : State) : State :=
  match s.plan.peers[j] with
  | some e => State.withNews ((s.setPeer j none).pairRemoved e.holder e.link)
  | none => s

/-- The overfull condition clears (R47, R121). -/
def State.overfullOver (s : State) : State :=
  { s with plan := { s.plan with overfull := false, overfullTimer := none } }.resumeWaiting

/-- The quarantine entry of a span. -/
def State.quarantineEntry (s : State) (sp : Span) : Option QuarantineEntry :=
  s.plan.quarantine.find? fun q => q.span == sp

/-- A quarantine entry runs out (R54). -/
def State.quarantineOver (sp : Span) (s : State) : State :=
  { s with plan := { s.plan with quarantine := s.plan.quarantine.filter fun q => q.span != sp } }

/-- A timer of an own entry of one standing, where the entry passes a test. -/
def State.ownTimer (s : State) (i : Fin 16) (standing : Standing) (p : OwnEntry → Bool) (t : OwnEntry → Timer) : Timer :=
  match s.ownEntry i with
  | some e => if e.standing == standing && p e then t e else none
  | none => none

/-- PEER_ENTRY_EXPIRY (R43). -/
def execPeerEntryExpiry (j : Fin 96) (s : State) : Host.Outcome State Fault Refusal :=
  done (s.onExpiry (s.plan.peers[j].map (·.expiry)) (State.peerGone j))

/-- OVERFULL_TIMER_EXPIRY (R47, R121). -/
def execOverfullTimerExpiry (s : State) : Host.Outcome State Fault Refusal :=
  done (s.onExpiry s.plan.overfullTimer State.overfullOver)

/-- QUARANTINE_EXPIRY (R54). -/
def execQuarantineExpiry (sp : Span) (s : State) : Host.Outcome State Fault Refusal :=
  done (s.onExpiry ((s.quarantineEntry sp).map (·.expiry)) (State.quarantineOver sp))

/-- CLAIM_RETRY_WAIT_EXPIRY (R67). -/
def execClaimRetryWaitExpiry (i : Fin 16) (s : State) : Host.Outcome State Fault Refusal :=
  done (s.onExpiry (s.ownTimer i .tentative (fun e => !e.sent) (·.window)) fun s => State.withNews (s.retryClaim i))

/-- CLAIM_WINDOW_EXPIRY (R72). -/
def execClaimWindowExpiry (i : Fin 16) (s : State) : Host.Outcome State Fault Refusal :=
  done (s.onExpiry (s.ownTimer i .tentative (·.sent) (·.window)) fun s => State.withNews (s.closeWindow i))

/-- TENTATIVE_ALLOWANCE_EXPIRY (R73). -/
def execTentativeAllowanceExpiry (i : Fin 16) (s : State) : Host.Outcome State Fault Refusal :=
  done (s.onExpiry (s.ownTimer i .tentative (fun _ => true) (·.allowance)) fun s => State.withNews (s.endAllowance i))

/-- CLAIM_REFRESH_EXPIRY (R74). -/
def execClaimRefreshExpiry (i : Fin 16) (s : State) : Host.Outcome State Fault Refusal :=
  done (s.onExpiry (s.ownTimer i .tentative (fun _ => true) (·.refresh)) (State.refreshClaim i))

/-- DEFEND_HOLD_OFF_EXPIRY (R76). -/
def execDefendHoldOffExpiry (i : Fin 16) (s : State) : Host.Outcome State Fault Refusal :=
  done (s.onExpiry ((s.ownEntry i).bind (·.defend)) (State.endHoldOff i))

/-- HOLD_REFRESH_EXPIRY (R77). -/
def execHoldRefreshExpiry (i : Fin 16) (s : State) : Host.Outcome State Fault Refusal :=
  done (s.onExpiry (s.ownTimer i .held (fun _ => true) (·.refresh)) (State.refreshHold i))

/-- YIELDING_ALLOWANCE_EXPIRY (R80, R130, R132). -/
def execYieldingAllowanceExpiry (i : Fin 16) (s : State) : Host.Outcome State Fault Refusal :=
  done (s.onExpiry (s.ownTimer i .yielding (fun _ => true) (·.allowance)) fun s => State.withNews (s.allowanceOver i))

end Sys2Proof.Machine
end

