-- ==== Sys2Proof/Machine/TalkEvents.lean ====
section
/-! DEFINITION. The timers and key lines of TBK, and its crosspoint line. -/

namespace Sys2Proof.Machine

/-- A circuit's usage runs out (R167). -/
def State.circuitOver (c : Fin 15) (s : State) : State := s.setCircuit c none

/-- The follow list entry of an origin and port. -/
def State.followOf (s : State) (origin port : Nat) : Option FollowEntry := s.tbk.follows.find? (FollowEntry.is origin port)

/-- KEY_LEVEL_CHANGE (R156). -/
def execKeyLevelChange (k : Fin 16) (closed : Bool) (s : State) : Host.Outcome State Fault Refusal :=
  done (s.keyLevel k closed)

/-- KEY_DEBOUNCE_EXPIRY (R156, R157). -/
def execKeyDebounceExpiry (k : Fin 16) (s : State) : Host.Outcome State Fault Refusal :=
  done (s.onExpiry s.tbk.keys[k].timer (State.keySettled k))

/-- TALKER_ENTRY_EXPIRY (R161, R163): an own entry has no expiry. -/
def execTalkerEntryExpiry (n : Fin 16) (station port : Nat) (s : State) : Host.Outcome State Fault Refusal :=
  done (s.onExpiry ((s.talker n station port).bind (·.expiry)) (State.talkerGone n station port))

/-- TALK_REFRESH_EXPIRY (R162). -/
def execTalkRefreshExpiry (q : Fin 12) (s : State) : Host.Outcome State Fault Refusal :=
  done (s.onExpiry ((s.tbPort q).bind (·.talkRefresh)) (State.refreshTalk q))

/-- FOLLOW_REFRESH_EXPIRY (R164). -/
def execFollowRefreshExpiry (q : Fin 12) (s : State) : Host.Outcome State Fault Refusal :=
  done (s.onExpiry ((s.tbPort q).bind (·.followRefresh)) (State.refreshFollow q))

/-- FOLLOW_ENTRY_EXPIRY (R165). -/
def execFollowEntryExpiry (origin port : Nat) (s : State) : Host.Outcome State Fault Refusal :=
  done (s.onExpiry ((s.followOf origin port).map (·.expiry)) (State.followGone origin port))

/-- CIRCUIT_EXPIRY (R167). -/
def execCircuitExpiry (c : Fin 15) (s : State) : Host.Outcome State Fault Refusal :=
  done (s.onExpiry (s.tbk.circuits[c].map (·.expiry)) (State.circuitOver c))

/-- RING_TIMER_EXPIRY (R172, R174). -/
def execRingTimerExpiry (k : Fin 4) (s : State) : Host.Outcome State Fault Refusal :=
  done (s.onExpiry ((s.call k).bind (·.ringTimer)) (State.expireCall k .noAnswer))

/-- KEEP_TIMER_EXPIRY (R168, R171). -/
def execKeepTimerExpiry (k : Fin 4) (s : State) : Host.Outcome State Fault Refusal :=
  done (s.onExpiry ((s.call k).bind (·.keepTimer)) (State.keepCall k))

/-- CALL_EXPIRY (R172, R174). -/
def execCallExpiry (k : Fin 4) (s : State) : Host.Outcome State Fault Refusal :=
  done (s.onExpiry ((s.call k).bind (·.callExpiry)) (State.expireCall k .lost))

/-- INDICATION_TIMER_EXPIRY (R174). -/
def execIndicationTimerExpiry (q : Fin 12) (s : State) : Host.Outcome State Fault Refusal :=
  done (s.onExpiry ((s.tbPort q).bind (·.indication)) (State.endIndication q))

/-- CROSSPOINT_UPDATE_SENT (R176). -/
def execCrosspointUpdateSent (s : State) : Host.Outcome State Fault Refusal := done s.updateSent

end Sys2Proof.Machine
end

