-- ==== Sys2Proof/Machine/TallyEvents.lean ====
section
/-! DEFINITION. The timers and contact lines of TALLY. -/

namespace Sys2Proof.Machine

/-- STALE_TIMER_EXPIRY (R138, R144, R148). -/
def execStaleTimerExpiry (k : Fin 8) (s : State) : Host.Outcome State Fault Refusal :=
  done (s.onExpiry (s.layer k).staleTimer (State.stale k))

/-- UNSET_TIMER_EXPIRY (R139, R148). -/
def execUnsetTimerExpiry (k : Fin 8) (s : State) : Host.Outcome State Fault Refusal :=
  done (s.onExpiry (s.layer k).unsetTimer (State.unset k))

/-- CONTACT_LEVEL_CHANGE (R141). -/
def execContactLevelChange (c : Fin 32) (closed : Bool) (s : State) : Host.Outcome State Fault Refusal :=
  done (s.contactLevel c closed)

/-- CONTACT_DEBOUNCE_EXPIRY (R141, R142). -/
def execContactDebounceExpiry (c : Fin 32) (s : State) : Host.Outcome State Fault Refusal :=
  done (s.onExpiry s.tally.contacts[c].timer (State.contactSettled c))

/-- SOURCE_REFRESH_EXPIRY (R143). -/
def execSourceRefreshExpiry (k : Fin 8) (s : State) : Host.Outcome State Fault Refusal :=
  done (s.onExpiry ((s.source k).bind (·.refreshTimer)) (State.refreshSource k))

end Sys2Proof.Machine
end

