-- ==== Sys2Proof/Machine/Tasks.lean ====
section
/-! DEFINITION. The commands that are TASK bulletins, task code by task code: each goes through the receive path (R6), and
MGMT takes it in ACTIVE (R178, R179). -/

namespace Sys2Proof.Machine

/-- READ_STATION (R182). -/
def execReadStation (p : BusPort) (t : TaskRx) (s : State) : Host.Outcome State Fault Refusal :=
  done (s.receive p .task (TaskRx.rx .readStation t))

/-- READ_LINK (R182). -/
def execReadLink (p : BusPort) (t : TaskRx) (s : State) : Host.Outcome State Fault Refusal :=
  done (s.receive p .task (TaskRx.rx .readLink t))

/-- READ_PLAN (R182). -/
def execReadPlan (p : BusPort) (t : TaskRx) (s : State) : Host.Outcome State Fault Refusal :=
  done (s.receive p .task (TaskRx.rx .readPlan t))

/-- READ_TALLY (R152, R183). -/
def execReadTally (p : BusPort) (t : TaskRx) (s : State) : Host.Outcome State Fault Refusal :=
  done (s.receive p .task (TaskRx.rx .readTally t))

/-- READ_LINE (R183). -/
def execReadLine (p : BusPort) (t : TaskRx) (s : State) : Host.Outcome State Fault Refusal :=
  done (s.receive p .task (TaskRx.rx .readLine t))

/-- READ_COUNTERS (R191). -/
def execReadCounters (p : BusPort) (t : TaskRx) (s : State) : Host.Outcome State Fault Refusal :=
  done (s.receive p .task (TaskRx.rx .readCounters t))

/-- SET_COUNTER (R191). -/
def execSetCounter (p : BusPort) (t : TaskRx) (s : State) : Host.Outcome State Fault Refusal :=
  done (s.receive p .task (TaskRx.rx .setCounter t))

/-- SET_CLASS (R184). -/
def execSetClass (p : BusPort) (t : TaskRx) (s : State) : Host.Outcome State Fault Refusal :=
  done (s.receive p .task (TaskRx.rx .setClass t))

/-- PIN_LINK (R61, R181, R185). -/
def execPinLink (p : BusPort) (t : TaskRx) (s : State) : Host.Outcome State Fault Refusal :=
  done (s.receive p .task (TaskRx.rx .pinLink t))

/-- UNPIN_LINK (R105, R184). -/
def execUnpinLink (p : BusPort) (t : TaskRx) (s : State) : Host.Outcome State Fault Refusal :=
  done (s.receive p .task (TaskRx.rx .unpinLink t))

/-- MOVE_LINK (R181, R185). -/
def execMoveLink (p : BusPort) (t : TaskRx) (s : State) : Host.Outcome State Fault Refusal :=
  done (s.receive p .task (TaskRx.rx .moveLink t))

/-- SET_MEMBERSHIP (R160, R186). -/
def execSetMembership (p : BusPort) (t : TaskRx) (s : State) : Host.Outcome State Fault Refusal :=
  done (s.receive p .task (TaskRx.rx .setMembership t))

/-- ARM_CAPTURE (R187). -/
def execArmCapture (p : BusPort) (t : TaskRx) (s : State) : Host.Outcome State Fault Refusal :=
  done (s.receive p .task (TaskRx.rx .armCapture t))

/-- READ_CAPTURE (R187). -/
def execReadCapture (p : BusPort) (t : TaskRx) (s : State) : Host.Outcome State Fault Refusal :=
  done (s.receive p .task (TaskRx.rx .readCapture t))

/-- RESTART (R33, R35). -/
def execRestart (p : BusPort) (t : TaskRx) (s : State) : Host.Outcome State Fault Refusal :=
  done (s.receive p .task (TaskRx.rx .restart t))

/-- SET_SAMPLE (R184). -/
def execSetSample (p : BusPort) (t : TaskRx) (s : State) : Host.Outcome State Fault Refusal :=
  done (s.receive p .task (TaskRx.rx .setSample t))

/-- UNKNOWN_TASK (R178). -/
def execUnknownTask (p : BusPort) (rx : Rx) (s : State) : Host.Outcome State Fault Refusal :=
  done (s.receive p .task rx)

end Sys2Proof.Machine
end

