-- ==== Sys2Proof/Machine/Dispatch.lean ====
section
/-! DEFINITION. The effect of each command on everything but the queue of waiting commands: one arm for each row. -/

namespace Sys2Proof.Machine

def exec (i : Instr) (s : State) : Host.Outcome State Fault Refusal :=
  match i with
  | .hardReset => Sys2Proof.Machine.execHardReset s
  | .resetRelease => Sys2Proof.Machine.execResetRelease s
  | .configurationRead memory => Sys2Proof.Machine.execConfigurationRead memory s
  | .sendAttemptStart p => Sys2Proof.Machine.execSendAttemptStart p s
  | .receptionStart p => Sys2Proof.Machine.execReceptionStart p s
  | .transmissionSuccess p => Sys2Proof.Machine.execTransmissionSuccess p s
  | .collision p => Sys2Proof.Machine.execCollision p s
  | .backoffExpiry p => Sys2Proof.Machine.execBackoffExpiry p s
  | .receptionEnd p run => Sys2Proof.Machine.execReceptionEnd p run s
  | .presence p rx => Sys2Proof.Machine.execPresence p rx s
  | .planClaim p rx => Sys2Proof.Machine.execPlanClaim p rx s
  | .planHold p rx => Sys2Proof.Machine.execPlanHold p rx s
  | .planYield p rx => Sys2Proof.Machine.execPlanYield p rx s
  | .sighting p rx => Sys2Proof.Machine.execSighting p rx s
  | .tallyState p rx => Sys2Proof.Machine.execTallyState p rx s
  | .lineJoin p rx => Sys2Proof.Machine.execLineJoin p rx s
  | .lineLeave p rx => Sys2Proof.Machine.execLineLeave p rx s
  | .talk p rx => Sys2Proof.Machine.execTalk p rx s
  | .followTalk p rx => Sys2Proof.Machine.execFollowTalk p rx s
  | .callRing p rx => Sys2Proof.Machine.execCallRing p rx s
  | .callAnswer p rx => Sys2Proof.Machine.execCallAnswer p rx s
  | .callEnd p rx => Sys2Proof.Machine.execCallEnd p rx s
  | .callKeep p rx => Sys2Proof.Machine.execCallKeep p rx s
  | .taskReply p rx => Sys2Proof.Machine.execTaskReply p rx s
  | .capture p rx => Sys2Proof.Machine.execCapture p rx s
  | .readStation p t => Sys2Proof.Machine.execReadStation p t s
  | .readLink p t => Sys2Proof.Machine.execReadLink p t s
  | .readPlan p t => Sys2Proof.Machine.execReadPlan p t s
  | .readTally p t => Sys2Proof.Machine.execReadTally p t s
  | .readLine p t => Sys2Proof.Machine.execReadLine p t s
  | .readCounters p t => Sys2Proof.Machine.execReadCounters p t s
  | .setCounter p t => Sys2Proof.Machine.execSetCounter p t s
  | .setClass p t => Sys2Proof.Machine.execSetClass p t s
  | .pinLink p t => Sys2Proof.Machine.execPinLink p t s
  | .unpinLink p t => Sys2Proof.Machine.execUnpinLink p t s
  | .moveLink p t => Sys2Proof.Machine.execMoveLink p t s
  | .setMembership p t => Sys2Proof.Machine.execSetMembership p t s
  | .armCapture p t => Sys2Proof.Machine.execArmCapture p t s
  | .readCapture p t => Sys2Proof.Machine.execReadCapture p t s
  | .restart p t => Sys2Proof.Machine.execRestart p t s
  | .setSample p t => Sys2Proof.Machine.execSetSample p t s
  | .unknownTask p rx => Sys2Proof.Machine.execUnknownTask p rx s
  | .originAgeExpiry station => Sys2Proof.Machine.execOriginAgeExpiry station s
  | .presenceTimerExpiry => Sys2Proof.Machine.execPresenceTimerExpiry s
  | .rosterExpiry station => Sys2Proof.Machine.execRosterExpiry station s
  | .joinTimerExpiry => Sys2Proof.Machine.execJoinTimerExpiry s
  | .leaveTimerExpiry => Sys2Proof.Machine.execLeaveTimerExpiry s
  | .peerEntryExpiry peer => Sys2Proof.Machine.execPeerEntryExpiry peer s
  | .overfullTimerExpiry => Sys2Proof.Machine.execOverfullTimerExpiry s
  | .quarantineExpiry span => Sys2Proof.Machine.execQuarantineExpiry span s
  | .claimRetryWaitExpiry slot => Sys2Proof.Machine.execClaimRetryWaitExpiry slot s
  | .claimWindowExpiry slot => Sys2Proof.Machine.execClaimWindowExpiry slot s
  | .tentativeAllowanceExpiry slot => Sys2Proof.Machine.execTentativeAllowanceExpiry slot s
  | .claimRefreshExpiry slot => Sys2Proof.Machine.execClaimRefreshExpiry slot s
  | .defendHoldOffExpiry slot => Sys2Proof.Machine.execDefendHoldOffExpiry slot s
  | .holdRefreshExpiry slot => Sys2Proof.Machine.execHoldRefreshExpiry slot s
  | .yieldingAllowanceExpiry slot => Sys2Proof.Machine.execYieldingAllowanceExpiry slot s
  | .commandFrameSent => Sys2Proof.Machine.execCommandFrameSent s
  | .tuneOutcome addr number ok => Sys2Proof.Machine.execTuneOutcome addr number ok s
  | .tuneTimerExpiry addr => Sys2Proof.Machine.execTuneTimerExpiry addr s
  | .report addr lock quality keys fault => Sys2Proof.Machine.execReport addr lock quality keys fault s
  | .sampleTimerExpiry link => Sys2Proof.Machine.execSampleTimerExpiry link s
  | .relocationHoldOffExpiry link => Sys2Proof.Machine.execRelocationHoldOffExpiry link s
  | .copyFilterExpiry origin span severity => Sys2Proof.Machine.execCopyFilterExpiry origin span severity s
  | .sightingHoldOffExpiry link => Sys2Proof.Machine.execSightingHoldOffExpiry link s
  | .acquireRetryExpiry link => Sys2Proof.Machine.execAcquireRetryExpiry link s
  | .staleTimerExpiry layer => Sys2Proof.Machine.execStaleTimerExpiry layer s
  | .unsetTimerExpiry layer => Sys2Proof.Machine.execUnsetTimerExpiry layer s
  | .contactLevelChange line closed => Sys2Proof.Machine.execContactLevelChange line closed s
  | .contactDebounceExpiry line => Sys2Proof.Machine.execContactDebounceExpiry line s
  | .sourceRefreshExpiry layer => Sys2Proof.Machine.execSourceRefreshExpiry layer s
  | .keyLevelChange line closed => Sys2Proof.Machine.execKeyLevelChange line closed s
  | .keyDebounceExpiry line => Sys2Proof.Machine.execKeyDebounceExpiry line s
  | .talkerEntryExpiry line station port => Sys2Proof.Machine.execTalkerEntryExpiry line station port s
  | .talkRefreshExpiry port => Sys2Proof.Machine.execTalkRefreshExpiry port s
  | .followRefreshExpiry port => Sys2Proof.Machine.execFollowRefreshExpiry port s
  | .followEntryExpiry origin port => Sys2Proof.Machine.execFollowEntryExpiry origin port s
  | .circuitExpiry circuit => Sys2Proof.Machine.execCircuitExpiry circuit s
  | .ringTimerExpiry slot => Sys2Proof.Machine.execRingTimerExpiry slot s
  | .keepTimerExpiry slot => Sys2Proof.Machine.execKeepTimerExpiry slot s
  | .callExpiry slot => Sys2Proof.Machine.execCallExpiry slot s
  | .indicationTimerExpiry port => Sys2Proof.Machine.execIndicationTimerExpiry port s
  | .crosspointUpdateSent => Sys2Proof.Machine.execCrosspointUpdateSent s
  | .recentTaskExpiry origin tag code => Sys2Proof.Machine.execRecentTaskExpiry origin tag code s
  | .taskTimerExpiry => Sys2Proof.Machine.execTaskTimerExpiry s

end Sys2Proof.Machine
end

