-- ==== Sys2Proof/Machine/Step.lean ====
section
/-! DEFINITION. One step: the command at the front of the queue is taken and carried out whole. -/

namespace Sys2Proof.Machine

/-- One bit time of the bus, the unit the idle clock moves by (section 1.1, log 1). -/
def bitMicros : Nat := 2

/-- One step. On an empty queue nothing reaches the part: the clock alone moves on (log 1). -/
def step (s : State) : Host.Outcome State Fault Refusal :=
  match s.pending with
  | [] => .next { s with now := s.now + bitMicros }
  | c :: rest => exec c { s with pending := rest }

/-- The command a word spells goes to the front of the queue; the table gives no row bits, so no word spells one. -/
def State.withFetchWord (s : State) (nbits w : Nat) : State :=
  match decodeTableWord nbits w with
  | some c => { s with pending := c :: s.pending }
  | none => s

end Sys2Proof.Machine
end

