-- ==== Sys2Proof/Safety.lean ====
section
/-! DEFINITION. What holds of the station between events, as rules of the spec say it: the invariant that every step
keeps, part by part. -/

namespace Sys2Proof.Machine

/-- A command state that no tune can have left (R86, R96). -/
def CmdState.off : CmdState → Bool
  | .muted | .fault => true
  | .tuning _ | .tuned _ => false

/-- The fault line is asserted in HALTED and SILENT and negated in every other phase (R28). -/
def State.FaultLineRight (s : State) : Prop := s.faultLine = true ↔ s.phase = .halted ∨ s.phase = .silent

/-- No own plan entry, no front-end tuned or being tuned, no relocation (R62, R86, R118). -/
def State.Quiet (s : State) : Prop :=
  (∀ i : Fin 16, s.plan.own[i] = none) ∧ (∀ a : Fin 8, s.rport.fe[a].state.off = true)
    ∧ ∀ l : Fin 8, (s.lsup.links[l]).bind (·.reloc) = none

/-- The station is quiet in every phase but ACTIVE (R62, R86, R118, R20, R33). -/
def State.QuietOutsideActive (s : State) : Prop := s.phase ≠ .active → s.Quiet

/-- The transmit queue holds entries in ACTIVE and LEAVING alone (R8, R20), and never more than 16 (section 1.3). -/
def State.QueueRight (s : State) : Prop :=
  s.biu.queue.length ≤ 16 ∧ (s.phase.sendsOwn = false → s.biu.queue = [])

/-- The transmit queue stands in order of age, every age below the next one, and never holds two entries with one subject
key (section 1.3, R8, R9). -/
def Biu.LineRight (x : Biu) : Prop :=
  x.queue.Pairwise (fun e f => e.age < f.age) ∧ (∀ e ∈ x.queue, e.age < x.nextAge)
    ∧ x.queue.Pairwise fun e f => e.key.isSome = true → e.key ≠ f.key

/-- The law of R63: a link has at most two own plan entries, at most one TENTATIVE and at most one YIELDING; and no two
own entries conflict hard with each other. -/
def State.OwnLaw (s : State) : Prop :=
  (∀ i j k : Fin 16, ∀ e f g : OwnEntry, s.ownEntry i = some e → s.ownEntry j = some f → s.ownEntry k = some g →
      e.link = f.link → f.link = g.link → i = j ∨ j = k ∨ i = k)
    ∧ (∀ i j : Fin 16, ∀ e f : OwnEntry, s.ownEntry i = some e → s.ownEntry j = some f → e.link = f.link →
        e.standing = f.standing → e.standing = .tentative ∨ e.standing = .yielding → i = j)
    ∧ ∀ i j : Fin 16, ∀ e f : OwnEntry, s.ownEntry i = some e → s.ownEntry j = some f →
        s.conflicts e.span f.span = true → i = j

/-- A forward queue holds at most 8 entries (R15). -/
def State.ForwardRight (s : State) : Prop := ∀ p, (s.biu.fwd p).length ≤ 8

/-- The join timer runs in JOINING alone (R29, R32, R20), and the part is held in reset in LOADING alone (R24). -/
def State.StartUpRight (s : State) : Prop :=
  (s.biu.joinTimer.isSome = true → s.phase = .joining) ∧ (s.resetHeld = true → s.phase = .loading)

/-- What the model keeps for the length of one event is clear between events (logs 13 and 16). -/
def State.EventOver (s : State) : Prop := s.biu.leaveOffers = false ∧ s.rport.fresh = []

/-- The invariant of the station. -/
structure State.Inv (s : State) : Prop where
  faultLine : s.FaultLineRight
  quiet     : s.QuietOutsideActive
  queue     : s.QueueRight
  line      : s.biu.LineRight
  ownLaw    : s.OwnLaw
  forward   : s.ForwardRight
  startUp   : s.StartUpRight
  eventOver : s.EventOver

end Sys2Proof.Machine
end

