-- ==== Sys2Proof/Certificates/Slice0/Obligations.lean ====
section
/-! DEFINITION. The statements for the provers. Every statement about a command is an equation or an existence of its next
state; what the statements share stands first. Every command ends with the same settling of the outputs (logs 16 and 17),
State.finish, of which EventEndAndOffers says all that it changes; a statement that gives the next state as the finish of a
state therefore gives every other field of it. Three conventions of the model run through all of them: at the expiry of a
timer the clock is the later of its moment and the timer's (max s.now d), and a stopped timer's expiry has no effect (both
DEDUCED, log 2); an event commanded where it cannot occur has no effect (DESIGN CHOICE, log 9). -/

namespace Sys2Proof.Says

open Sys2Proof.Machine

/-! ## Frames -/

/-- The station's own part is as it was. -/
def stationKept (s t : State) : Prop :=
  t.phase = s.phase ∧ t.resetHeld = s.resetHeld ∧ t.faultLine = s.faultLine ∧ t.pins = s.pins ∧ t.cfg = s.cfg ∧
    t.pending = s.pending

/-- The commands of the radio line, the one being sent first, then the pending ones by age. -/
def commands (x : Rport) : List RadioCmd := x.sending.toList ++ x.pending ++ byAddress x.fresh

/-- The front-end records and the commands of the radio line are as they were. -/
def radioKept (s t : State) : Prop := t.rport.fe = s.rport.fe ∧ commands t.rport = commands s.rport

/-- TBK's records are as they were: all of TBK but its lamp images and the crosspoint, which
EventEndAndOffers gives. -/
def talkKept (s t : State) : Prop :=
  t.tbk.ports = s.tbk.ports ∧ t.tbk.keys = s.tbk.keys ∧ t.tbk.lines = s.tbk.lines ∧ t.tbk.follows = s.tbk.follows ∧
    t.tbk.calls = s.tbk.calls ∧ t.tbk.circuits = s.tbk.circuits

/-- The records of the roster, the plan, the links, the layers, the lines, the calls and the front-ends are as they were. -/
def recordsKept (s t : State) : Prop :=
  t.biu.roster = s.biu.roster ∧ t.plan = s.plan ∧ t.lsup = s.lsup ∧ t.tally = s.tally ∧ talkKept s t ∧ radioKept s t

/-- The radio port at the start of LOADING: every record MUTED, the MUTE of address 0 going out, the others waiting in
address order (R25, R85). -/
def loadingRport : Rport :=
  { fe := Rport.reset.fe, sending := some { addr := 0, kind := .mute }, fresh := [],
    pending := [{ addr := 1, kind := .mute }, { addr := 2, kind := .mute }, { addr := 3, kind := .mute },
      { addr := 4, kind := .mute }, { addr := 5, kind := .mute }, { addr := 6, kind := .mute },
      { addr := 7, kind := .mute }] }

/-! ## The commands that are bulletins -/

/-- The command that is the arrival of a bulletin of a kind; a TASK by its own row for what names no task. -/
def arrival (k : Kind) (p : BusPort) (rx : Rx) : Instr :=
  match k with
  | .presence => .presence p rx
  | .planClaim => .planClaim p rx
  | .planHold => .planHold p rx
  | .planYield => .planYield p rx
  | .sighting => .sighting p rx
  | .tallyState => .tallyState p rx
  | .lineJoin => .lineJoin p rx
  | .lineLeave => .lineLeave p rx
  | .talk => .talk p rx
  | .followTalk => .followTalk p rx
  | .callRing => .callRing p rx
  | .callAnswer => .callAnswer p rx
  | .callEnd => .callEnd p rx
  | .callKeep => .callKeep p rx
  | .task => .unknownTask p rx
  | .taskReply => .taskReply p rx
  | .capture => .capture p rx

/-- The command that is the arrival of a task. -/
def taskArrival (c : TaskCode) (p : BusPort) (x : TaskRx) : Instr :=
  match c with
  | .readStation => .readStation p x
  | .readLink => .readLink p x
  | .readPlan => .readPlan p x
  | .readTally => .readTally p x
  | .readLine => .readLine p x
  | .readCounters => .readCounters p x
  | .setCounter => .setCounter p x
  | .setClass => .setClass p x
  | .pinLink => .pinLink p x
  | .unpinLink => .unpinLink p x
  | .moveLink => .moveLink p x
  | .setMembership => .setMembership p x
  | .armCapture => .armCapture p x
  | .readCapture => .readCapture p x
  | .restart => .restart p x
  | .setSample => .setSample p x

/-- A command is the arrival of a bulletin of a kind with a header and body, by whichever row it has. -/
def arrives (c : Instr) (k : Kind) (p : BusPort) (rx : Rx) : Prop :=
  c = arrival k p rx ∨ ∃ (code : TaskCode) (x : TaskRx), c = taskArrival code p x ∧ k = .task ∧ rx = TaskRx.rx code x

/-- A port hears a bulletin of another station that passes acceptance (R4, R5). -/
abbrev heard (p : BusPort) (rx : Rx) (s : State) : Prop :=
  s.hears p = true ∧ rx.acceptable = true ∧ rx.origin.toNat ≠ s.station

/-- It is for every station, or for this one (R22). -/
abbrev received (p : BusPort) (rx : Rx) (s : State) : Prop :=
  heard p rx s ∧ (rx.target = 0 ∨ rx.target.toNat = s.station)

/-- A task as MGMT takes it. -/
abbrev task (c : TaskCode) (x : TaskRx) : TaskIn :=
  { origin := x.origin.toNat, tag := x.tag.toNat, code := c.code, params := x.params }

/-- A task for this station that MGMT takes: in ACTIVE, and not a copy of a recent one (R22, R178, R179). -/
abbrev tasked (c : TaskCode) (p : BusPort) (x : TaskRx) (s : State) : Prop :=
  s.phase = .active ∧ heard p (TaskRx.rx c x) s ∧ x.target ≠ 0 ∧ x.target.toNat = s.station ∧ s.isCopy (task c x) = false

/-- A TASK_REPLY waits in the queue: to the task's origin, with its tag, its code, a return code and data (R180). -/
def answered (urgent : Bool) (c : TaskCode) (x : TaskRx) (ret : ReturnCode) (data : List Byte) (s t : State) : Prop :=
  ∃ e ∈ t.biu.queue, e.urgent = urgent ∧
    e.bulletin = { kind := 0x41, origin := byte s.station, target := x.origin,
                   hopPrio := byte (s.image.hops + if urgent then 128 else 0),
                   body := x.tag :: c.code :: ret.code :: data }

/-- A bulletin of the station's own waits in the queue for every station; in an URGENT entry where it is offered so. -/
def waits (urgent : Bool) (k : Kind) (body : List Byte) (s t : State) : Prop :=
  ∃ e ∈ t.biu.queue, (urgent = true → e.urgent = true) ∧ e.bulletin.kind = k.code ∧
    e.bulletin.origin = byte s.station ∧ e.bulletin.target = 0 ∧ e.bulletin.body = body

/-- No capture rule is armed. -/
abbrev noneArmed (s : State) : Prop := ∀ i : Fin 4, s.mgmt.rules[i].mode = .off

/-- A TASK that MGMT does not take leaves the records, its lists and, with no capture rule armed, the queue as they were. -/
def untaken (s t : State) : Prop :=
  stationKept s t ∧ recordsKept s t ∧ t.mgmt.recent = s.mgmt.recent ∧ t.mgmt.longTask = s.mgmt.longTask ∧
    (noneArmed s → t.biu.queue = s.biu.queue)

/-- A counter after the acceptance of a task's bulletin (R6, R190). -/
def taskCounted (c : TaskCode) (x : TaskRx) : Counter → Counter :=
  Counter.bump .rxAccepted (some (7 + (TaskRx.rx c x).body.length))

/-- A rule makes a capture of a task's own bulletin (R188, R189). -/
def makesCapture (c : TaskCode) (x : TaskRx) (s : State) (k : Fin 4) : Bool :=
  s.mgmt.rules[k].hitBy ((TaskRx.rx c x).bulletin .task) && s.mgmt.rules[k].mode == .once

/-- The entry of the queue that a new bulletin gets (R8): the next age, every enabled port pending. -/
def newEntry (s : State) (o : Offer) : QueueEntry :=
  { bulletin := { kind := o.kind.code, origin := byte s.station, target := byte o.target,
                  hopPrio := byte (s.image.hops + if o.urgent then 128 else 0), body := o.body },
    version := 0, urgent := o.urgent, key := o.key, age := s.biu.nextAge, block := o.block, ticket := o.ticket,
    pending := { a := s.image.portA, b := s.image.portB }, sent := { a := false, b := false }, attemptsA := 0,
    attemptsB := 0 }

/-- A queued entry whose content a new bulletin replaces (R9): it keeps its age and its priority. -/
def replaced (s : State) (o : Offer) (e : QueueEntry) : QueueEntry :=
  { newEntry s o with
    bulletin := { kind := o.kind.code, origin := byte s.station, target := byte o.target,
                  hopPrio := byte (s.image.hops + if e.urgent then 128 else 0), body := o.body }
    version := e.version + 1, urgent := e.urgent, key := e.key, age := e.age }

/-- An offer has no claim or hold in the queue to remove: it is no PLAN_YIELD, or none is queued for its entry (R9). -/
def removesNone (s : State) (o : Offer) : Prop :=
  ∀ (l : Fin 8) (sp : Span), o.key = some (.plan .planYield l sp) →
    ∀ e ∈ s.biu.queue, e.key ≠ some (.plan .planClaim l sp) ∧ e.key ≠ some (.plan .planHold l sp)

/-- The youngest NORMAL entry of the queue that no port is sending (R11). -/
def youngestNormal (s : State) : Option QueueEntry :=
  (s.biu.queue.filter fun e => !e.urgent && !s.biu.portA.isSending e && !s.biu.portB.isSending e).getLast?

/-- The crosspoint entries that are pending at the end of an event (R176): those that were, then, in entry order, those
whose content the event has changed, but for the one that is being sent. -/
def pendingEntries (u : State) : List (Fin 20) :=
  u.tbk.xp.pending ++ (List.finRange 20).filter fun n =>
    decide (u.tbk.xp.image[n] ≠ u.xpImage[n]) && !(u.tbk.xp.sending.any fun x => x.1 == n) && !u.tbk.xp.pending.contains n

/-- The entry a received claim or hold gives its peer slot (R40, R41). -/
def peerEntry (s : State) (held : Bool) (holder : Nat) (b : PlanBody) : PeerEntry :=
  { span := b.span, holder := holder, link := b.link, cls := b.cls, held := held, hold := b.hold,
    expiry := s.now + 3 * (b.hold * 100000) }

/-- The body of a claim or hold of an own entry at a class (section 11.1). -/
def planBody (e : OwnEntry) (cls : Nat) : List Byte := Span.bytes e.span ++ [byte e.link, byte cls, byte e.hold]

/-- The content of a layer under this station's own number from a moment on (R137, R143). -/
def ownLayer (s : State) (now : Nat) (inputs : Vector InputState 64) (k : Fin 8) : Layer :=
  { state := .live, source := some s.station, refresh := some s.image.refreshUnits,
    count := some ((s.image.sourceCounts[k]).getD 1), inputs := inputs,
    staleTimer := some (now + 3 * (s.image.refreshUnits * 100000)), unsetTimer := none }

/-- The body of a call bulletin about a received bulletin's call, with a reason (R166, section 11.1). -/
def callBodyOf (b : CallBody) (reason : Byte) : List Byte :=
  [byte b.caller.1, byte b.caller.2, byte b.callee.1, byte b.callee.2, byte (b.circuit.val + 17), reason]

/-- A bulletin's origin has no talker entry on a line for a port of its own. -/
def noTalker (rx : Rx) (port : Nat) (t : State) (n : Fin 16) : Prop :=
  ∀ x ∈ t.tbk.lines[n].talkers, ¬(x.station = rx.origin.toNat ∧ x.port = port)

/-- The member that a bulletin names leaves its line's roster with its talker entry, and a roster that falls below 32
members is not overfull (R158). -/
def memberOut (rx : Rx) (port : Nat) (n : Fin 16) (s t : State) : Prop :=
  t.tbk.lines[n].roster = (s.line n).roster.filter (fun m => !(m.station == rx.origin.toNat && m.port == port)) ∧
  ((s.line n).hasMember rx.origin.toNat port = true → noTalker rx port t n ∧
    t.tbk.lines[n].overfull = ((s.line n).overfull && decide (32 ≤ t.tbk.lines[n].roster.length)))

/-- No talker joins a line, and those of other stations stay, but for the one a bulletin names. -/
def othersTalk (rx : Rx) (port : Nat) (n : Fin 16) (s t : State) : Prop :=
  (∀ x ∈ t.tbk.lines[n].talkers, x ∈ (s.line n).talkers) ∧
  ∀ x ∈ (s.line n).talkers, x.station ≠ s.station → ¬(x.station = rx.origin.toNat ∧ x.port = port) →
    x ∈ t.tbk.lines[n].talkers

/-- The body of a TALLY_STATE of a layer with a content (R143, section 11.1). -/
def tallyBody (s : State) (k : Fin 8) (content : Vector InputState 64) : List Byte :=
  [byte (k.val + 1), byte ((s.image.sourceCounts[k]).getD 1), byte s.image.refreshUnits] ++ contentBytes content

/-- The lowest-numbered rule that names a lamp line and has a match of a kind. -/
def winner (s t : State) (n : Fin 16) (k : Fin 32) (st : InputState) : Prop :=
  s.image.rules[k].lamp = some n ∧ t.tally.matches s.image.rules[k] st = true ∧
    ∀ j : Fin 32, j < k → s.image.rules[j].lamp = some n → t.tally.matches s.image.rules[j] st = false

/-- A rule that names a link, with its link lamp flag set, has a match of a kind. -/
def lightsLink (s t : State) (l : Fin 8) (st : InputState) : Prop :=
  ∃ k : Fin 32, s.image.rules[k].link = some l ∧ s.image.rules[k].linkLamp = true ∧
    t.tally.matches s.image.rules[k] st = true

/-- The map has been evaluated over the layers as they stand: the on-air marks (R150), the images of the TALLY lamp lines
(R149), the link lamps (R151), of which RPORT takes each change (R91, R148), and the hit flags (R152). -/
def evaluated (s t : State) : Prop :=
  (∀ l : Fin 8, t.tally.onAir[l] = true ↔ ∃ k : Fin 32, s.image.rules[k].link = some l ∧ s.image.rules[k].onAir = true ∧
    t.tally.matches s.image.rules[k] .program = true) ∧
  (∀ n : Fin 16, s.image.callLamps.getLsbD n = false →
    (∀ k : Fin 32, winner s t n k .program → t.tally.lamps[n] =
      { colour := s.image.rules[k].programColour,
        pattern := if t.tally.matchIn s.image.rules[k] .program .live then .steady else .slowFlash }) ∧
    ((∀ k : Fin 32, s.image.rules[k].lamp = some n → t.tally.matches s.image.rules[k] .program = false) →
      (∀ k : Fin 32, winner s t n k .preview → t.tally.lamps[n] =
        { colour := s.image.rules[k].previewColour,
          pattern := if t.tally.matchIn s.image.rules[k] .preview .live then .steady else .slowFlash }) ∧
      ((∀ k : Fin 32, s.image.rules[k].lamp = some n → t.tally.matches s.image.rules[k] .preview = false) →
        t.tally.lamps[n] = { colour := .off, pattern := .steady }))) ∧
  (∀ l : Fin 8, (t.tally.linkLamps[l] = .red ↔ t.tally.onAir[l] = true ∨ lightsLink s t l .program) ∧
    (t.tally.linkLamps[l] = .green ↔
      t.tally.onAir[l] = false ∧ ¬lightsLink s t l .program ∧ lightsLink s t l .preview) ∧
    t.tally.linkLamps[l] ≠ .amber) ∧
  (∀ (l : Fin 8) (x : LinkRec), s.link l = some x → t.tally.linkLamps[l] ≠ s.tally.linkLamps[l] →
    (∀ (j : Fin 8) (y : LinkRec), s.link j = some y → y.desc.frontEnd = x.desc.frontEnd → j = l) →
    { addr := x.desc.frontEnd, kind := .lamp t.tally.linkLamps[l] } ∈ commands t.rport) ∧
  (∀ k : Fin 32, t.tally.hits[k] = (s.tally.hits[k] || t.tally.matches s.image.rules[k] .program ||
    t.tally.matches s.image.rules[k] .preview))

/-- How many bulletins the entry into LEAVING offers, the reply to RESTART with them (R33). -/
def leaveCount (s : State) : Nat :=
  1 + s.owns.length + (s.tbk.calls.toList.filterMap id).length +
    ((s.tbk.ports.toList.filterMap id).map fun r =>
      (match r.talk with | .talking _ _ => 1 | .idle | .bumped _ _ => 0) + (if r.follow.isSome then 1 else 0) +
        r.members.length).sum

/-- A bound on the bulletins that the entry into ACTIVE offers (R32): the PRESENCE, a TALLY_STATE for every source layer that
is PUBLISHING, a LINE_JOIN for every membership, and a PLAN_CLAIM for every configured link. -/
def joinCount (s : State) : Nat :=
  1 + (s.tally.sources.toList.filter fun x => x.any fun y => !y.standby).length +
    ((s.tbk.ports.toList.filterMap id).map fun r => r.members.length).sum + (s.lsup.links.toList.filterMap id).length

/-- What a bridge does with another station's bulletin (R13, R14, R15): it learns or keeps the arrival port of the origin,
and a copy with one hop less goes to the other port's forward queue where the arrival port is the one learned, the hop
budget is at least 1 and the queue has room. -/
def bridged (p : BusPort) (b : Bulletin) (i : Fin 127) (s t : State) : Prop :=
  t.biu.fwd p = s.biu.fwd p ∧ (∀ j : Fin 127, j ≠ i → t.biu.origins[j] = s.biu.origins[j]) ∧
  (∀ o : Origin, s.biu.origins[i] = some o → o.port ≠ p →
    t.biu.origins[i] = some o ∧ t.biu.fwd (BusPort.other p) = s.biu.fwd (BusPort.other p)) ∧
  ((s.biu.origins[i]).all (fun o => o.port == p) = true →
    t.biu.origins[i] = some { port := p, expiry := s.now + 10000000 } ∧
    (1 ≤ b.hopPrio.toNat % 4 → (s.biu.fwd (BusPort.other p)).length < 8 → t.biu.fwd (BusPort.other p) =
      s.biu.fwd (BusPort.other p) ++ [{ bulletin := { b with hopPrio := b.hopPrio - 1 }, attempts := 0 }]) ∧
    ((b.hopPrio.toNat % 4 = 0 ∨ 8 ≤ (s.biu.fwd (BusPort.other p)).length) →
      t.biu.fwd (BusPort.other p) = s.biu.fwd (BusPort.other p)))

/-- A HELD own entry as a preemption leaves it (R79). -/
def preempted (e : OwnEntry) (s : State) : OwnEntry :=
  { e with standing := .yielding, refresh := none, defend := none, owed := false, allowance := some (s.now + 2000000) }

/-- The table in which the relocation of a preempted entry searches: the arrival is stored in the replica (R40, R41), the
entry is YIELDING, and an older YIELDING entry of its link has gone (R79). -/
def afterPreemption (isHold : Bool) (rx : Rx) (b : PlanBody) (i : Fin 16) (e : OwnEntry) (s : State) : State :=
  let u := (s.storePeer isHold rx.origin.toNat b (7 + rx.body.length)).1.setOwn i (some (preempted e s))
  match s.olderYielding i e.link with
  | some (j, _) => u.setOwn j none
  | none => u

/-- The table in which the relocation of a lost claim searches: the arrival is stored in the replica (R40, R41), and the
claim's entry has gone (R68). -/
def afterLoss (isHold : Bool) (rx : Rx) (b : PlanBody) (i : Fin 16) (s : State) : State :=
  (s.storePeer isHold rx.origin.toNat b (7 + rx.body.length)).1.setOwn i none

/-- A link's claim for a span stands in an own slot, not yet sent (R65). -/
def claimStands (k : Fin 16) (l : Fin 8) (sp : Span) (s t : State) : Prop :=
  ∃ e : OwnEntry, t.plan.own[k] = some e ∧ e.span = sp ∧ e.link = l ∧ e.cls = s.effectiveClass l ∧
    e.standing = .tentative ∧ e.hold = s.image.hold ∧ e.sent = false

/-- The body of a link's new claim for a span (section 11.1). -/
def claimBody (l : Fin 8) (sp : Span) (s : State) : List Byte :=
  Span.bytes sp ++ [byte l, byte (s.effectiveClass l), byte s.image.hold]

/-- A link's relocation has failed with its front-end muted, its own entries given up and the link in ACQUIRING (R127 step
3, R128). -/
def failedOff (l : Fin 8) (x : LinkRec) (cause : Cause) (why : FailCause) (s t : State) : Prop :=
  (∀ i : Fin 16, t.plan.own[i] = (s.ownEntry i).filter fun e => e.link != l) ∧
  (t.rport.fe[x.desc.frontEnd].state = .muted ∨ t.rport.fe[x.desc.frontEnd].state = .fault) ∧
  ∃ z : LinkRec, t.lsup.links[l] = some z ∧ z.state = .acquiring ∧ z.current = none ∧ z.reloc = none ∧
    z.tuneInFlight = false ∧ z.sampleTimer = none ∧ z.sightingHoldOff = none ∧ z.prediction = none ∧ z.fades = 0 ∧
    z.unlocked = 0 ∧ z.acquireRetry = some (t.now + 5000000) ∧ z.lastOutcome = some (cause, .failed why)

/-- A received claim or hold concerns an own entry neither by a conflict nor by a pair that the entry waits for. -/
def apart (s : State) (o : OwnEntry) (rx : Rx) (b : PlanBody) : Prop :=
  s.conflicts o.span b.span = false ∧ (rx.origin.toNat, b.link) ∉ o.pendingYield

/-- What becomes of a claim that stands and of the relocation that made it (R72, R123): the entry is HELD with its hold
refresh running, and LSUP tunes the link's front-end to its span. -/
def heldAndTuned (i : Fin 16) (e : OwnEntry) (x : LinkRec) (r : Reloc) (d : Nat) (s t : State) : Prop :=
  stationKept s t ∧ t.now = max s.now d ∧
  (∃ e' : OwnEntry, t.plan.own[i] = some e' ∧ e'.standing = .held ∧ e'.span = e.span ∧ e'.link = e.link ∧
    e'.window = none ∧ e'.allowance = none ∧ e'.pendingYield = [] ∧
    e'.refresh = some (max s.now d + e.hold * 100000) ∧
    (s.biu.queue.length < 16 → e'.cls = s.effectiveClass e.link ∧
      waits false .planHold (planBody e (s.effectiveClass e.link)) s t)) ∧
  (∀ j : Fin 16, j ≠ i → t.plan.own[j] = s.plan.own[j]) ∧
  t.lsup = { s.lsup with
    links := s.lsup.links.set e.link
      (some { x with tuneInFlight := true, reloc := some { r with phase := .tuning } }) } ∧
  t.rport.fe = s.rport.fe.set x.desc.frontEnd { s.rport.fe[x.desc.frontEnd] with
    state := .tuning e.span, sent := false, tuneNo := (s.rport.fe[x.desc.frontEnd].tuneNo + 1) % 256 } ∧
  { addr := x.desc.frontEnd, kind := .tune e.span ((s.rport.fe[x.desc.frontEnd].tuneNo + 1) % 256) } ∈
    commands t.rport ∧
  t.tally = s.tally ∧ talkKept s t

/-- The YIELDING own entry of a link, in a slot: the link has no other (R79). -/
def yieldingAt (i : Fin 16) (e : OwnEntry) (l : Fin 8) (s : State) : Prop :=
  s.ownEntry i = some e ∧ e.link = l ∧ e.standing = .yielding ∧
    ∀ (j : Fin 16) (o : OwnEntry), j ≠ i → s.ownEntry j = some o → o.link = l → o.standing ≠ .yielding

/-- A link's current span once a span has been left. -/
def currentLess (x : LinkRec) (sp : Span) : Option Span := if x.current = some sp then none else x.current

/-- The relocation that a link's start gives it while the replica is overfull (R118, R121). -/
def waiting (cause : Cause) (x : LinkRec) (cand : Option Span) (task override : Bool) : Reloc :=
  { cause := cause, phase := .waiting, old := x.current, cand := cand, excluded := [], attempts := 0, reason := none,
    task := task, override := override }

end Sys2Proof.Says

open Sys2Proof Sys2Proof.Machine Sys2Proof.Says

/-! ## The machine -/

/-- A step takes the command at the front of the queue and carries it out on the state with the queue's rest. -/
def Obligations.StepRunsTheFrontCommand : Prop :=
  ∀ (c : Instr) (rest : List Instr) (s : State), s.pending = c :: rest → step s = exec c { s with pending := rest }

/-- MODEL'S CHOICE (log 1): on an empty queue the clock alone moves, by one bit time of 2 µs. -/
def Obligations.EmptyQueueMovesTheClockAlone : Prop :=
  ∀ s : State, s.pending = [] → step s = .next { s with now := s.now + 2 }

/-- Every command has a next state in every state, with the event's end behind it, the queue of commands as it was and the
clock not turned back. It says nothing of any command's own effect, and it rests on the model's choices: a command that
cannot occur has a next state too (DESIGN CHOICE, log 9), and an expiry sets the clock forward (DEDUCED, log 2). -/
def Obligations.EveryCommandCompletes : Prop :=
  ∀ (c : Instr) (s : State), ∃ u : State, exec c s = .next u.finish ∧ u.pending = s.pending ∧ s.now ≤ u.now

/-- What the end of an event does, and all it does (R85, R174, R175, R176, R177, logs 16 and 17): the call lamps are what
the state calls for; in JOINING and ACTIVE the crosspoint image is the entries' contents, in LEAVING it is cleared, and in
SILENT an entry takes its content where the event has changed it and else keeps what it has (DEDUCED, log 17); the entries
of the image that the event has changed become pending in entry order behind those that were, a change of the entry being
sent waiting for its update; a free line sends the oldest pending entry with its content as it stands; and nothing else
changes. And what the transmit queue does with an offer, and all it does (R8, R9, R11): it refuses one outside ACTIVE, with
nothing counted (between events in LEAVING too, log 13); a PLAN_YIELD first removes the claim and the hold of its own entry;
an entry of the same subject key takes the new content in its place, keeping its age and its priority (log 12), but a NORMAL
one gives way to an URGENT offer; else the offer is a new entry where there is room, an URGENT one in a full queue takes the
place of the youngest NORMAL entry that no port is sending (log 11), whose block is told, and any other is refused and
counted. -/
def Obligations.EventEndAndOffers : Prop :=
  (∀ u : State, stationKept u u.finish ∧ u.finish.now = u.now ∧ u.finish.biu = u.biu ∧ u.finish.plan = u.plan ∧
    u.finish.lsup = u.lsup ∧ u.finish.tally = u.tally ∧ u.finish.mgmt = u.mgmt ∧ talkKept u u.finish ∧
    radioKept u u.finish ∧ u.finish.rport.fresh = [] ∧ (u.finish.rport.sending = none → u.finish.rport.pending = []) ∧
    (∀ n : Fin 16, u.finish.tbk.lamps[n] = u.callLamp n) ∧
    (∀ n : Fin 20,
      (u.phase = .joining ∨ u.phase = .active → u.finish.tbk.xp.image[n] = u.entryContent n) ∧
      (u.phase = .leaving → u.finish.tbk.xp.image[n] = XEntry.empty) ∧
      (u.phase = .silent → u.tbk.xp.computed[n] ≠ u.entryContent n → u.finish.tbk.xp.image[n] = u.entryContent n) ∧
      (u.phase = .silent → u.tbk.xp.computed[n] = u.entryContent n → u.finish.tbk.xp.image[n] = u.tbk.xp.image[n]) ∧
      (u.phase ≠ .loading → u.phase ≠ .halted → u.finish.tbk.xp.computed[n] = u.entryContent n)) ∧
    (∀ x : Fin 20 × XEntry, u.tbk.xp.sending = some x → u.finish.tbk.xp = {
      image := u.xpImage, computed := u.xpComputed, pending := pendingEntries u, sending := some x,
      again := u.tbk.xp.again || decide (u.tbk.xp.image[x.1] ≠ u.xpImage[x.1]) }) ∧
    (u.tbk.xp.sending = none →
      (pendingEntries u = [] → u.finish.tbk.xp = {
        image := u.xpImage, computed := u.xpComputed, pending := [], sending := none, again := u.tbk.xp.again }) ∧
      ∀ (n : Fin 20) (rest : List (Fin 20)), pendingEntries u = n :: rest → u.finish.tbk.xp = {
        image := u.xpImage, computed := u.xpComputed, pending := rest, sending := some (n, u.xpImage[n]), again := false })) ∧
  (∀ (o : Offer) (s : State), s.phase ≠ .active → (s.phase = .leaving → s.biu.leaveOffers = false) →
    s.offer o = (s, none)) ∧
  (∀ (o : Offer) (l : Fin 8) (sp : Span) (s : State), s.phase = .active → o.key = some (.plan .planYield l sp) →
    s.offer o = State.offer o { s with biu := { s.biu with queue := s.biu.queue.filter fun e =>
      !(e.key == some (.plan .planClaim l sp)) && !(e.key == some (.plan .planHold l sp)) } }) ∧
  (∀ (o : Offer) (k : SubjectKey) (e : QueueEntry) (s : State), s.phase = .active → removesNone s o → o.key = some k →
    s.biu.queue.find? (fun e => e.key == some k) = some e →
    (o.urgent = false ∨ e.urgent = true → s.offer o = ({ s with biu := { s.biu with
      queue := s.biu.queue.map fun x => if x.age = e.age then replaced s o x else x } }, some e.age)) ∧
    (o.urgent = true → e.urgent = false → s.biu.queue.length ≤ 16 → s.offer o = ({ s with biu := { s.biu with
      queue := (s.biu.queue.filter fun x => x.age != e.age) ++ [newEntry s o], nextAge := s.biu.nextAge + 1 } },
      some s.biu.nextAge))) ∧
  (∀ (o : Offer) (s : State), s.phase = .active → removesNone s o →
    (o.key = none ∨ ∀ e ∈ s.biu.queue, e.key ≠ o.key) →
    (s.biu.queue.length < 16 → s.offer o = ({ s with biu := { s.biu with
      queue := s.biu.queue ++ [newEntry s o], nextAge := s.biu.nextAge + 1 } }, some s.biu.nextAge)) ∧
    (16 ≤ s.biu.queue.length → o.urgent = false ∨ youngestNormal s = none → s.offer o = ({ s with mgmt := { s.mgmt with
      counters := s.mgmt.counters.map (Counter.bump .txQueueRefused (some (7 + o.body.length))) } }, none)) ∧
    (∀ v : QueueEntry, 16 ≤ s.biu.queue.length → o.urgent = true → youngestNormal s = some v →
      ∃ t : State, s.offer o = (t, some s.biu.nextAge) ∧
        t.biu = { s.biu with queue := (s.biu.queue.filter fun x => x.age != v.age) ++ [newEntry s o],
                             nextAge := s.biu.nextAge + 1 } ∧
        t.mgmt.counters =
          s.mgmt.counters.map (Counter.bump .txQueueRefused (some (7 + v.bulletin.body.length))) ∧
        (∀ k : Fin 4, t.mgmt.rules[k] = match s.mgmt.rules[k].held with
          | some h => if v.ticket = .capture k ∧ h.age = some v.age then { s.mgmt.rules[k] with held := some { h with
              delivery := if v.sent.isEmpty then .refused else .sent } } else s.mgmt.rules[k]
          | none => s.mgmt.rules[k]) ∧
        (∀ l : Fin 8, t.lsup.links[l] = match s.lsup.links[l] with
          | some x => if (x.current.any fun sp => v.ticket == .sighting l sp x.announcedBad) ∧ v.sent.isEmpty = true
              then some { x with announcedBad := !x.announcedBad } else some x
          | none => none) ∧
        t.mgmt.longTask = s.mgmt.longTask ∧ t.mgmt.recent = s.mgmt.recent ∧ stationKept s t ∧ t.now = s.now ∧
        t.plan = s.plan ∧ t.rport = s.rport ∧ t.tally = s.tally ∧ t.tbk = s.tbk))

/-- The invariant of the station holds right after a hard reset. -/
def Obligations.InvariantAtReset : Prop := State.reset.Inv

/-- Every step keeps the invariant: the fault line follows the phase (R28), the station holds nothing outside ACTIVE (R20,
R33, R62), the transmit queue stands in order of age with one entry to a subject (R8, R9), the law of own plan entries
(R63), the bounds of the queues, and the parts of start-up. -/
def Obligations.EveryStepKeepsTheInvariant : Prop :=
  ∀ s t : State, s.Inv → step s = .next t → t.Inv

/-- R28: the fault line is asserted exactly in HALTED and SILENT, negated by every hard reset, and nothing but a hard reset
takes the station out of either phase. -/
def Obligations.FaultLineFollowsThePhase : Prop :=
  ∀ (c : Instr) (s : State), s.Inv → ∃ t : State, exec c s = .next t ∧
    (t.faultLine = true ↔ t.phase = .halted ∨ t.phase = .silent) ∧
    (c = .hardReset → t.faultLine = false) ∧
    ((s.phase = .halted ∨ s.phase = .silent) → c ≠ .hardReset → t.phase = s.phase)

/-! ## Reset and start-up -/

/-- HARD_RESET, in any phase and at once (R24): every block takes its value after a hard reset, the values the chapters
give. MODEL'S CHOICE (log 32): the clock, the levels outside and the waiting commands are not the part's to reset. -/
def Obligations.HardResetRestoresEverything : Prop :=
  (∀ s : State, exec .hardReset s = .next { State.reset with now := s.now, pins := s.pins, pending := s.pending }) ∧
  State.reset.phase = .loading ∧ State.reset.faultLine = false ∧ State.reset.cfg = none ∧
  State.reset.biu.portA = .idle ∧ State.reset.biu.portB = .idle ∧ State.reset.biu.queue = [] ∧
  State.reset.biu.fwdA = [] ∧ State.reset.biu.fwdB = [] ∧ State.reset.biu.presenceTimer = none ∧
  (∀ n : Fin 127, State.reset.biu.origins[n] = none ∧ State.reset.biu.roster[n] = none) ∧
  (∀ i : Fin 16, State.reset.plan.own[i] = none) ∧ (∀ j : Fin 96, State.reset.plan.peers[j] = none) ∧
  State.reset.plan.quarantine = [] ∧ State.reset.plan.overfull = false ∧ State.reset.plan.overfullTimer = none ∧
  (∀ a : Fin 8, State.reset.rport.fe[a].state = .muted ∧ State.reset.rport.fe[a].mailbox = none ∧
    State.reset.rport.fe[a].tuneTimer = none ∧ State.reset.rport.fe[a].lastKeys = 0) ∧
  State.reset.rport.pending = [] ∧ State.reset.rport.sending = none ∧
  (∀ l : Fin 8, State.reset.lsup.links[l] = none) ∧
  (∀ k : Fin 3, State.reset.lsup.histories[k] = 0 ∧ State.reset.lsup.filters[k] = []) ∧
  (∀ k : Fin 8, State.reset.tally.layers[k].state = .unset ∧ State.reset.tally.onAir[k] = false ∧
    State.reset.tally.linkLamps[k] = .off) ∧
  (∀ n : Fin 16, State.reset.tally.lamps[n].colour = .off ∧ State.reset.tbk.lamps[n].colour = .off ∧
    State.reset.tbk.lines[n] = { roster := [], overfull := false, talkers := [] }) ∧
  State.reset.tbk.follows = [] ∧ (∀ k : Fin 4, State.reset.tbk.calls[k] = none) ∧
  (∀ c : Fin 15, State.reset.tbk.circuits[c] = none) ∧
  State.reset.tbk.xp.pending = [] ∧ State.reset.tbk.xp.sending = none ∧
  State.reset.mgmt.longTask = none ∧ State.reset.mgmt.recent = [] ∧
  (∀ k : Fin 4, State.reset.mgmt.rules[k].mode = .off) ∧ (∀ k : Fin 8, State.reset.mgmt.counters[k].value = 0)

/-- RESET_RELEASE: LOADING begins, and RPORT queues MUTE for the eight addresses in address order, the first going out at
once (R24, R25, R85). While the reset input stays asserted the part is held in reset (R24): no other command moves
anything but the clock and the levels outside. Outside reset there is nothing to release (log 9). -/
def Obligations.ReleaseBeginsLoading : Prop :=
  (∀ (now : Nat) (pins : Pins) (q : List Instr),
    exec .resetRelease { State.reset with now := now, pins := pins, pending := q } =
      .next { State.reset with now := now, pins := pins, pending := q, resetHeld := false, rport := loadingRport }) ∧
  (∀ (c : Instr) (now : Nat) (pins : Pins) (q : List Instr), c ≠ .resetRelease →
    ∃ (now' : Nat) (pins' : Pins), exec c { State.reset with now := now, pins := pins, pending := q } =
      .next { State.reset with now := now', pins := pins', pending := q }) ∧
  (∀ s : State, s.resetHeld = false → exec .resetRelease s = .next s.finish)

/-- CONFIGURATION_READ with an image that passes the four tests (R26, R29): the blocks take their sections, input lines are
taken without debounce, the phase becomes JOINING with the join timer running, the link lamps are darkened (R91) and
every crosspoint entry is pending, the first going out (R176). -/
def Obligations.ValidImageBeginsJoining : Prop :=
  ∀ (m : List Byte) (img : Image) (s : State), s.phase = .loading → s.resetHeld = false → readImage m = some img →
    s.tbk.xp.sending = none →
    ∃ t : State, exec (.configurationRead m) s = .next t ∧ t.phase = .joining ∧ t.cfg = some img ∧ t.now = s.now ∧
      t.faultLine = s.faultLine ∧ t.resetHeld = false ∧ t.pins = s.pins ∧ t.pending = s.pending ∧
      t.biu = { s.biu with joinTimer := some (s.now + img.joinListenS * 1000000) } ∧ t.plan = s.plan ∧
      t.lsup = { s.lsup with links := img.links.map fun d => d.map newLink } ∧
      t.mgmt.rules = s.mgmt.rules ∧
      (∀ k : Fin 8, t.mgmt.counters[k] =
        { value := s.mgmt.counters[k].value, mask := img.counters[k].mask, bytes := img.counters[k].bytes }) ∧
      (∀ c : Fin 32, t.tally.contacts[c] = { accepted := s.pins.contacts.getLsbD c, timer := none }) ∧
      (∀ k : Fin 16, t.tbk.keys[k] = { accepted := s.pins.keys.getLsbD k, timer := none }) ∧
      (∀ q : Fin 12, (t.tbk.ports[q]).map (·.members) =
        if portExists img.links q then some img.ports[q].members else none) ∧
      (∀ k : Fin 8, (t.tally.sources[k]).isSome = (img.sourceCounts[k]).isSome) ∧
      t.rport.fe = s.rport.fe ∧
      (∀ (l : Fin 8) (d : LinkDesc), img.links[l] = some d →
        { addr := d.frontEnd, kind := .lamp .off } ∈ commands t.rport) ∧
      t.tbk.xp.sending = some (0, t.tbk.xp.image[(0 : Fin 20)]) ∧ t.tbk.xp.pending = (List.finRange 20).tail

/-- CONFIGURATION_READ with an image that fails a test (R26, R27): the station enters HALTED, the fault line is asserted,
and nothing of the image is used. A memory without the format mark fails, and so does one that reads as all ones. -/
def Obligations.FailingImageHalts : Prop :=
  (∀ (m : List Byte) (s : State), s.phase = .loading → s.resetHeld = false → readImage m = none →
    exec (.configurationRead m) s = .next { s with phase := .halted, faultLine := true }.finish) ∧
  (∀ m : List Byte, m.take 2 ≠ [0x6B, 0x14] → readImage m = none) ∧
  (∀ m : List Byte, (∀ b ∈ m, b = 0xFF) → readImage m = none)

/-- JOIN_TIMER_EXPIRY (R32): the station enters ACTIVE, its presence timer runs, every configured link is ACQUIRING with a
relocation under way or its retry timer running, every source layer that is PUBLISHING is LIVE under the station's own
number with its refresh timer running, and the roster, the replica and the other layers are as they were. The relocation of
a link has cause ACQUIRE, or has failed with that cause as the link's last outcome (R32 step 4, R127). A TALLY_STATE of
every such layer waits in the queue, URGENT (step 2), and, where the queue had room for all of them, the first PRESENCE
(step 1) and a LINE_JOIN for every membership (step 3) of a port, whose memberships name distinct lines (DEDUCED, log 24),
wait in it. The order of the membership records in the PRESENCE is the model's choice (DESIGN CHOICE, log 39). -/
def Obligations.JoinListenEndsInActive : Prop :=
  ∀ (d : Nat) (s : State), s.Inv → s.biu.joinTimer = some d →
    ∃ t : State, exec .joinTimerExpiry s = .next t ∧ t.phase = .active ∧ t.now = max s.now d ∧
      t.faultLine = s.faultLine ∧ t.cfg = s.cfg ∧ t.pins = s.pins ∧ t.pending = s.pending ∧
      t.biu.joinTimer = none ∧ t.biu.presenceTimer = some (t.now + 1000000) ∧ t.biu.roster = s.biu.roster ∧
      t.biu.origins = s.biu.origins ∧ t.biu.fwdA = s.biu.fwdA ∧ t.biu.fwdB = s.biu.fwdB ∧
      t.plan.peers = s.plan.peers ∧ t.plan.quarantine = s.plan.quarantine ∧ t.plan.overfull = s.plan.overfull ∧
      (∀ l : Fin 8, (t.lsup.links[l]).isSome = (s.lsup.links[l]).isSome) ∧
      (∀ (l : Fin 8) (x : LinkRec), t.lsup.links[l] = some x →
        x.state = .acquiring ∧ (x.reloc.isSome = true ∨ x.acquireRetry.isSome = true) ∧
        (∀ r : Reloc, x.reloc = some r → r.cause = .acquire) ∧
        (x.reloc = none → ∃ why : FailCause, x.lastOutcome = some (.acquire, .failed why))) ∧
      (∀ k : Fin 8, (s.source k).all (·.standby) = true → t.tally.layers[k] = s.tally.layers[k]) ∧
      (∀ (k : Fin 8) (x : Source), s.source k = some x → x.standby = false →
        t.tally.layers[k].state = .live ∧ t.tally.layers[k].source = some s.station ∧
        t.tally.layers[k].inputs = s.content k ∧
        t.tally.sources[k] = some { standby := false, published := some (s.content k),
                                    refreshTimer := some (t.now + s.image.refreshUnits * 100000) } ∧
        waits true .tallyState (tallyBody s k (s.content k)) s t) ∧
      (joinCount s ≤ 16 → waits false .presence s.presenceBody s t ∧
        ∀ (q : Fin 12) (r : TbPort), s.tbPort q = some r → (r.members.map (·.line)).Nodup → ∀ m ∈ r.members,
          waits false .lineJoin [byte m.line, byte q, byte ((if m.listen then 1 else 0) + if m.talk then 2 else 0)] s t) ∧
      t.mgmt.longTask = s.mgmt.longTask ∧ t.mgmt.recent = s.mgmt.recent ∧ talkKept s t

/-- RESTART (R33, R35): the station enters LEAVING with the leave timer at 500 ms and the presence timer stopped; the long
task goes without a reply, every front-end is off, every link is DISABLED without a relocation, no own plan entry, call,
talk or follow talk is left, publication stops, and the reply DONE, URGENT, waits in the queue where it had room. Where the
queue had room for all of them, the bulletins of R33 wait in it too: a PLAN_YIELD for every own entry, a CALL_END with
reason CLEARED for every call, TALK off for every port TALKING, FOLLOW_TALK off for every port that follows, and a
LINE_LEAVE for every membership. -/
def Obligations.RestartEntersLeaving : Prop :=
  ∀ (p : BusPort) (x : TaskRx) (s : State), s.Inv → tasked .restart p x s →
    ∃ t : State, exec (.restart p x) s = .next t ∧ t.phase = .leaving ∧ t.now = s.now ∧ t.faultLine = s.faultLine ∧
      t.cfg = s.cfg ∧ t.pins = s.pins ∧ t.pending = s.pending ∧
      t.biu.leaveTimer = some (s.now + 500000) ∧ t.biu.presenceTimer = none ∧ t.biu.roster = s.biu.roster ∧
      t.mgmt.longTask = none ∧
      (∀ a : Fin 8, t.rport.fe[a].state = .muted ∨ t.rport.fe[a].state = .fault) ∧
      (∀ l : Fin 8, (t.lsup.links[l]).isSome = (s.lsup.links[l]).isSome) ∧
      (∀ (l : Fin 8) (y : LinkRec), t.lsup.links[l] = some y → y.state = .disabled ∧ y.reloc = none ∧ y.current = none) ∧
      (∀ i : Fin 16, t.plan.own[i] = none) ∧ t.plan.peers = s.plan.peers ∧
      (∀ k : Fin 4, t.tbk.calls[k] = none) ∧
      (∀ (q : Fin 12) (r : TbPort), t.tbk.ports[q] = some r → r.talk = .idle ∧ r.follow = none) ∧
      (∀ (k : Fin 8) (y : Source), t.tally.sources[k] = some y → y.refreshTimer = none) ∧
      t.tally.layers = s.tally.layers ∧ t.tbk.xp.image = Vector.replicate 20 XEntry.empty ∧
      (s.biu.queue.length < 16 → answered true .restart x .done [] s t) ∧
      (s.biu.queue.length + leaveCount s ≤ 16 →
        (∀ (i : Fin 16) (e : OwnEntry), s.ownEntry i = some e →
          waits true .planYield (Span.bytes e.span ++ [byte e.link]) s t) ∧
        (∀ (k : Fin 4) (c : CallRec), s.call k = some c → waits true .callEnd
          [byte (c.callerOf s.station).1, byte (c.callerOf s.station).2, byte (c.calleeOf s.station).1,
           byte (c.calleeOf s.station).2, byte (c.circuit.val + 17), 1] s t) ∧
        ∀ (q : Fin 12) (r : TbPort), s.tbPort q = some r →
          (∀ (n : Fin 16) (key : KeyId), r.talk = .talking n key →
            waits true .talk [byte n, byte q, byte r.talkClass, 0] s t) ∧
          (∀ f : FollowState, r.follow = some f →
            waits true .followTalk [byte (f.layer.val + 1), byte f.input, byte q, 0] s t) ∧
          ∀ m ∈ r.members, waits false .lineLeave [byte m.line, byte q] s t)

/-- The leave wait ends (R36), at the expiry of the leave timer (LEAVE_TIMER_EXPIRY) or with the last entry leaving the
queue (TRANSMISSION_SUCCESS on the one port it waits for): a hard reset. MODEL'S CHOICE (log 5): the reset input not being
asserted, LOADING begins at once, with its eight MUTE commands. -/
def Obligations.LeaveWaitEndsInHardReset : Prop :=
  (∀ (d : Nat) (s : State), s.phase = .leaving → s.biu.leaveTimer = some d →
    exec .leaveTimerExpiry s = .next
      { State.reset with now := max s.now d, pins := s.pins, pending := s.pending, resetHeld := false,
                         rport := loadingRport }) ∧
  (∀ (p : BusPort) (e : QueueEntry) (s : State), s.Inv → s.phase = .leaving → s.biu.queue = [e] →
    s.biu.port p = .sending (e.tx p) → e.pending = PortSet.empty.insert p →
    exec (.transmissionSuccess p) s = .next
      { State.reset with now := s.now, pins := s.pins, pending := s.pending, resetHeld := false,
                         rport := loadingRport })

/-! ## The ports -/

/-- SEND_ATTEMPT_START on a port that is IDLE (R2, R12): the oldest URGENT own entry waiting for the port goes first, then
the head of the port's forward queue, then the oldest NORMAL own entry; the port sends a copy of its bulletin. With none
the port stays IDLE. Own entries are sent in ACTIVE and LEAVING (R1); entries stand in order of age. -/
def Obligations.SenderTakesUrgentThenForwardedThenNormal : Prop :=
  ∀ (p : BusPort) (s : State), s.phase.onBus = true → s.enabled p = true → s.biu.port p = .idle →
    (∀ e : QueueEntry, s.phase.sendsOwn = true → s.biu.queue.find? (fun e => e.urgent && e.pending.has p) = some e →
      exec (.sendAttemptStart p) s = .next (s.setPort p (.sending (e.tx p))).finish) ∧
    ((s.phase.sendsOwn = false ∨ s.biu.queue.find? (fun e => e.urgent && e.pending.has p) = none) →
      (∀ (f : FwdEntry) (rest : List FwdEntry), s.biu.fwd p = f :: rest →
        exec (.sendAttemptStart p) s = .next (s.setPort p (.sending f.tx)).finish) ∧
      (s.biu.fwd p = [] →
        (∀ e : QueueEntry, s.phase.sendsOwn = true →
          s.biu.queue.find? (fun e => !e.urgent && e.pending.has p) = some e →
          exec (.sendAttemptStart p) s = .next (s.setPort p (.sending (e.tx p))).finish) ∧
        ((s.phase.sendsOwn = false ∨ s.biu.queue.find? (fun e => !e.urgent && e.pending.has p) = none) →
          exec (.sendAttemptStart p) s = .next s.finish)))

/-- RECEPTION_START (R4): an IDLE port that hears is RECEIVING, one in BACKOFF receives and stays in BACKOFF. RECEPTION_END
with a run that fails acceptance (R4, R5): the reception ends, RX_BAD_CHECK is counted with the bytes received, and nothing
else happens. A port that is disabled, sending, or not on the bus hears neither (R1). RECEPTION_END with a run that passes
acceptance (DEDUCED, log 7): a run that holds a bulletin of an assigned kind is the arrival of that bulletin; a bulletin
with an unassigned kind code goes through the receive path (R6) like any other, an own-origin one too (R7), but to no block
(R22): the reception ends, a bridge learns and forwards it (R13 to R15), every block's records stay as they are, and a
capture rule in ONCE that it matches holds its header with the disposition UNKNOWN_KIND, NOT_ADDRESSED where it is for
another station, OWN_ORIGIN where it carries the station's own number (R23, R189); at a station that is no bridge, with no
capture rule armed, the one count for a bulletin of another station is RX_ACCEPTED. -/
def Obligations.ReceptionsBeginAndEnd : Prop :=
  (∀ (p : BusPort) (s : State), s.hears p = true → s.biu.port p = .idle →
    exec (.receptionStart p) s = .next (s.setPort p .receiving).finish) ∧
  (∀ (p : BusPort) (n d : Nat) (r : Bool) (s : State), s.hears p = true → s.biu.port p = .backoff n d r →
    exec (.receptionStart p) s = .next (s.setPort p (.backoff n d true)).finish) ∧
  (∀ (p : BusPort) (run : List Byte) (s : State), s.hears p = true → acceptRun run = none →
    s.biu.port p = .receiving →
    exec (.receptionEnd p run) s = .next ((s.setPort p .idle).count .rxBadCheck (some run.length)).finish) ∧
  (∀ (p : BusPort) (run : List Byte) (n d : Nat) (r : Bool) (s : State), s.hears p = true → acceptRun run = none →
    s.biu.port p = .backoff n d r →
    exec (.receptionEnd p run) s =
      .next ((s.setPort p (.backoff n d false)).count .rxBadCheck (some run.length)).finish) ∧
  (∀ (p : BusPort) (run : List Byte) (s : State), s.hears p = false →
    exec (.receptionStart p) s = .next s.finish ∧ exec (.receptionEnd p run) s = .next s.finish) ∧
  (∀ (k : Kind) (p : BusPort) (rx : Rx) (run : List Byte) (s : State), acceptRun run = some (rx.bulletin k) →
    exec (.receptionEnd p run) s = exec (arrival k p rx) s) ∧
  (∀ (p : BusPort) (run : List Byte) (b : Bulletin) (s : State), s.hears p = true → acceptRun run = some b →
    Kind.ofCode b.kind = none →
    ∃ t : State, exec (.receptionEnd p run) s = .next t ∧ stationKept s t ∧ t.now = s.now ∧ recordsKept s t ∧
      t.mgmt.longTask = s.mgmt.longTask ∧ t.mgmt.recent = s.mgmt.recent ∧
      (s.biu.port p = .receiving → t.biu.port p = .idle) ∧
      (∀ (n d : Nat) (r : Bool), s.biu.port p = .backoff n d r → t.biu.port p = .backoff n d false) ∧
      (s.isBridge = false ∨ b.origin.toNat = s.station →
        t.biu.origins = s.biu.origins ∧ t.biu.fwdA = s.biu.fwdA ∧ t.biu.fwdB = s.biu.fwdB) ∧
      (∀ i : Fin 127, s.isBridge = true → b.origin.toNat ≠ s.station → b.origin.toNat = i.val → bridged p b i s t) ∧
      (noneArmed s → t.biu.queue = s.biu.queue ∧ (s.isBridge = false → b.origin.toNat ≠ s.station →
        t.mgmt.counters = s.mgmt.counters.map (Counter.bump .rxAccepted (some (7 + b.body.length))))) ∧
      ∀ k : Fin 4, s.mgmt.rules[k].hitBy b = true → s.mgmt.rules[k].mode = .once →
        ∃ h : HeldCapture, t.mgmt.rules[k].held = some h ∧ h.header = b.header ∧
          h.disposition = if b.origin.toNat = s.station then .ownOrigin
            else if b.target ≠ 0 ∧ b.target.toNat ≠ s.station then .notAddressed else .unknownKind)

/-- TRANSMISSION_SUCCESS (R2, R10, R15): TX_SENT is counted with the bulletin's length and the port is IDLE. The head of the
forward queue leaves it; an own entry that still waits for the other port stays, this port gone from its pending set and
added to its sent set; a transmission whose entry has been replaced or removed meanwhile completes nothing. -/
def Obligations.TransmissionSucceeds : Prop :=
  ∀ (p : BusPort) (tx : Tx) (s : State), s.biu.port p = .sending tx →
    (tx.source = .forward → exec (.transmissionSuccess p) s =
      .next ((((s.setPort p .idle).count .txSent (some (7 + tx.bulletin.body.length))).setFwd p
        ((s.biu.fwd p).drop 1)).finish)) ∧
    (∀ age version : Nat, tx.source = .own age version →
      (s.biu.queue.find? (fun e => e.age == age && e.version == version) = none → exec (.transmissionSuccess p) s =
        .next ((s.setPort p .idle).count .txSent (some (7 + tx.bulletin.body.length))).finish) ∧
      (∀ e : QueueEntry, s.biu.queue.find? (fun e => e.age == age && e.version == version) = some e →
        (e.pending.erase p).isEmpty = false → exec (.transmissionSuccess p) s =
        .next ((((s.setPort p .idle).count .txSent (some (7 + tx.bulletin.body.length))).setQueue
          (s.biu.queue.map fun x =>
            if x.age = e.age then { x with pending := e.pending.erase p, sent := e.sent.insert p } else x)).finish)) ∧
      (∀ e : QueueEntry, s.biu.queue.find? (fun e => e.age == age && e.version == version) = some e →
        (e.pending.erase p).isEmpty = true → s.phase = .active →
        (e.ticket = .none ∨ ∃ l sp bad, e.ticket = .sighting l sp bad) → exec (.transmissionSuccess p) s =
        .next ((((s.setPort p .idle).count .txSent (some (7 + tx.bulletin.body.length))).setQueue
          (s.biu.queue.filter fun x => x.age != e.age)).finish)))

/-- A SENT report for a claim of the station's own (R10, R66): the entry has been sent, its claim window is open for 250 ms
and its claim refresh runs at the hold interval. -/
def Obligations.SentClaimOpensItsWindow : Prop :=
  ∀ (p : BusPort) (q : QueueEntry) (version : Nat) (i : Fin 16) (e : OwnEntry) (s : State), s.Inv → s.phase = .active →
    s.biu.port p = .sending { source := .own q.age version, bulletin := q.bulletin, attempts := q.attempts p } →
    q ∈ s.biu.queue → q.version = version → (q.pending.erase p).isEmpty = true → q.ticket = .claim e.link e.span →
    s.ownEntry i = some e → e.span.low ≤ e.span.high → e.standing = .tentative → e.sent = false →
    ∃ t : State, exec (.transmissionSuccess p) s = .next t ∧
      t.plan = { s.plan with own := s.plan.own.set i (some { e with
        sent := true, window := some (s.now + 250000), refresh := some (s.now + e.hold * 100000) }) } ∧
      t.biu.queue = s.biu.queue.filter (fun x => x.age != q.age) ∧ stationKept s t ∧ t.lsup = s.lsup ∧
      t.tally = s.tally ∧ talkKept s t ∧ radioKept s t

/-- COLLISION and BACKOFF_EXPIRY (R3, R4), for a forwarded bulletin and an own one alike, and for one whose entry was
replaced or removed while it was on the wire, which counts on from the count it began with (DEDUCED, log 10): TX_COLLISION
is counted and the attempt count k goes up by one; below 8 the port backs off for ((n + 37 k) mod 16) + 1 slots of 128 µs, n
being the station's own number; at 8 the port is IDLE and TX_ABANDONED is counted; at the expiry of a backoff the port is
IDLE, or RECEIVING where a bulletin is arriving. -/
def Obligations.CollisionBacksOffOrAbandons : Prop :=
  (∀ (p : BusPort) (tx : Tx) (s : State), s.biu.port p = .sending tx → tx.attempts + 1 < 8 →
    ∃ t : State, exec (.collision p) s = .next t ∧
      t.biu.port p = .backoff ((s.station + (tx.attempts + 1) * 37) % 16 + 1)
        (s.now + ((s.station + (tx.attempts + 1) * 37) % 16 + 1) * 128) false ∧
      t.biu.port (BusPort.other p) = s.biu.port (BusPort.other p) ∧
      t.mgmt.counters = s.mgmt.counters.map (Counter.bump .txCollision (some (7 + tx.bulletin.body.length))) ∧
      (∀ age version : Nat, tx.source = .own age version →
        t.biu.fwdA = s.biu.fwdA ∧ t.biu.fwdB = s.biu.fwdB ∧ t.biu.queue = s.biu.queue.map fun e =>
          if e.age = age ∧ e.version = version then e.setAttempts p (tx.attempts + 1) else e) ∧
      (tx.source = .forward → t.biu.queue = s.biu.queue ∧ t.biu.fwd (BusPort.other p) = s.biu.fwd (BusPort.other p) ∧
        ∀ (f : FwdEntry) (rest : List FwdEntry), s.biu.fwd p = f :: rest →
          t.biu.fwd p = { f with attempts := tx.attempts + 1 } :: rest) ∧
      stationKept s t ∧ recordsKept s t) ∧
  (∀ (p : BusPort) (tx : Tx) (s : State), s.biu.port p = .sending tx → 8 ≤ tx.attempts + 1 → tx.source = .forward →
    ∃ t : State, exec (.collision p) s = .next t ∧ t.biu.port p = .idle ∧ t.biu.fwd p = (s.biu.fwd p).drop 1 ∧
      t.biu.queue = s.biu.queue ∧
      t.mgmt.counters = (s.mgmt.counters.map (Counter.bump .txCollision (some (7 + tx.bulletin.body.length)))).map
        (Counter.bump .txAbandoned (some (7 + tx.bulletin.body.length))) ∧ stationKept s t ∧ recordsKept s t) ∧
  (∀ (p : BusPort) (tx : Tx) (age version : Nat) (e : QueueEntry) (s : State), s.biu.port p = .sending tx →
    8 ≤ tx.attempts + 1 → tx.source = .own age version →
    s.biu.queue.find? (fun e => e.age == age && e.version == version) = some e → e.ticket = .none →
    s.phase = .active →
    ∃ t : State, exec (.collision p) s = .next t ∧ t.biu.port p = .idle ∧
      ((e.pending.erase p).isEmpty = true → ∀ x ∈ t.biu.queue, x.age ≠ age) ∧
      t.mgmt.counters = (s.mgmt.counters.map (Counter.bump .txCollision (some (7 + tx.bulletin.body.length)))).map
        (Counter.bump .txAbandoned (some (7 + tx.bulletin.body.length))) ∧ stationKept s t ∧ recordsKept s t) ∧
  (∀ (p : BusPort) (n d : Nat) (r : Bool) (s : State), s.biu.port p = .backoff n d r →
    exec (.backoffExpiry p) s =
      .next ({ s with now := max s.now d }.setPort p (if r then .receiving else .idle)).finish)

/-- What one station puts on the wire, another accepts (R5, section 11.1): every bulletin with a station's origin and a body
of at most 48 bytes is read back from its own run of bytes, field for field. -/
def Obligations.WireRoundTrip : Prop :=
  ∀ b : Bulletin, 1 ≤ b.origin.toNat → b.origin.toNat ≤ 126 → b.body.length ≤ 48 → acceptRun b.wire = some b

/-- A run of bytes that differs from a bulletin's run in one byte alone is discarded, and the check has the test value that
R5 gives: the nine bytes 31h to 39h have the check 29B1h (R5). -/
def Obligations.OneDamagedByteIsDiscarded : Prop :=
  (∀ (b : Bulletin) (i : Nat) (x : Byte), b.body.length ≤ 48 → b.wire[i]? ≠ some x → i < b.wire.length →
    acceptRun (b.wire.set i x) = none) ∧
  crc [0x31, 0x32, 0x33, 0x34, 0x35, 0x36, 0x37, 0x38, 0x39] = 0x29B1

/-! ## The receive path -/

/-- A bulletin of another station at a bridge (R13, R14, R15), whatever its kind and target, each task by its own row: the
origin table learns or keeps the arrival port, and a copy with one hop less goes to the other port's forward queue where the
arrival port is the one learned, the hop budget is at least 1 and the queue has room. A station that is no bridge does
neither. -/
def Obligations.BridgeLearnsAndForwards : Prop :=
  ∀ (c : Instr) (k : Kind) (p : BusPort) (rx : Rx) (i : Fin 127) (s : State), arrives c k p rx → heard p rx s →
    rx.origin.toNat = i.val →
    ∃ t : State, exec c s = .next t ∧
      t.biu.fwd p = s.biu.fwd p ∧
      (s.isBridge = false → t.biu.origins = s.biu.origins ∧ t.biu.fwd (BusPort.other p) = s.biu.fwd (BusPort.other p)) ∧
      (s.isBridge = true →
        (∀ j : Fin 127, j ≠ i → t.biu.origins[j] = s.biu.origins[j]) ∧
        (∀ o : Origin, s.biu.origins[i] = some o → o.port ≠ p →
          t.biu.origins[i] = some o ∧ t.biu.fwd (BusPort.other p) = s.biu.fwd (BusPort.other p)) ∧
        ((s.biu.origins[i]).all (fun o => o.port == p) = true →
          t.biu.origins[i] = some { port := p, expiry := s.now + 10000000 } ∧
          (1 ≤ rx.hopPrio.toNat % 4 → (s.biu.fwd (BusPort.other p)).length < 8 →
            t.biu.fwd (BusPort.other p) = s.biu.fwd (BusPort.other p) ++
              [{ bulletin := { rx.bulletin k with hopPrio := rx.hopPrio - 1 }, attempts := 0 }]) ∧
          ((rx.hopPrio.toNat % 4 = 0 ∨ 8 ≤ (s.biu.fwd (BusPort.other p)).length) →
            t.biu.fwd (BusPort.other p) = s.biu.fwd (BusPort.other p))))

/-- A bulletin that is for another station, or that carries the station's own number and is no duplicate's PRESENCE, goes to
no block, and TASK_REPLY and CAPTURE have no receiving block (R7, R22): every block's records stay as they are. Of a reply
or a capture, at a station that is no bridge, with no capture rule armed, the one count is RX_ACCEPTED. -/
def Obligations.BulletinsForNoBlock : Prop :=
  (∀ (k : Kind) (p : BusPort) (rx : Rx) (s : State), heard p rx s → rx.target ≠ 0 → rx.target.toNat ≠ s.station →
    ∃ t : State, exec (arrival k p rx) s = .next t ∧ stationKept s t ∧ t.now = s.now ∧ recordsKept s t ∧
      t.mgmt.longTask = s.mgmt.longTask ∧ t.mgmt.recent = s.mgmt.recent) ∧
  (∀ (k : Kind) (p : BusPort) (rx : Rx) (s : State), s.hears p = true → rx.acceptable = true →
    rx.origin.toNat = s.station → k ≠ .presence →
    ∃ t : State, exec (arrival k p rx) s = .next t ∧ stationKept s t ∧ t.now = s.now ∧ recordsKept s t ∧
      t.mgmt.longTask = s.mgmt.longTask ∧ t.mgmt.recent = s.mgmt.recent ∧ t.biu.origins = s.biu.origins ∧
      t.biu.fwdA = s.biu.fwdA ∧ t.biu.fwdB = s.biu.fwdB) ∧
  (∀ (k : Kind) (p : BusPort) (rx : Rx) (s : State), k = .taskReply ∨ k = .capture → received p rx s →
    ∃ t : State, exec (arrival k p rx) s = .next t ∧ stationKept s t ∧ t.now = s.now ∧ recordsKept s t ∧
      t.mgmt.longTask = s.mgmt.longTask ∧ t.mgmt.recent = s.mgmt.recent ∧
      (s.isBridge = false → (∀ i : Fin 4, s.mgmt.rules[i].mode = .off) →
        t.mgmt.counters = s.mgmt.counters.map (Counter.bump .rxAccepted (some (7 + rx.body.length))) ∧
        t.biu.queue = s.biu.queue))

/-- A PRESENCE with the station's own number and another unit's serial puts the station into SILENT (R20): the queue is
empty, no own bulletin is being sent, the presence, join and leave timers stop, the fault line is asserted, every
front-end is off, every link is DISABLED, no own plan entry is left, the long task goes without a reply, and TBK and the
publications are quiet. A station in SILENT stays there, and the same serial is the station's own PRESENCE come back. -/
def Obligations.DuplicateStationGoesSilent : Prop :=
  (∀ (p : BusPort) (rx : Rx) (serial : Nat) (records : List PresenceRecord) (s : State), s.hears p = true →
    rx.acceptable = true → rx.origin.toNat = s.station → readPresenceBody rx.body = some (serial, records) →
    serial ≠ s.image.serial → s.phase ≠ .silent →
    ∃ t : State, exec (.presence p rx) s = .next t ∧ t.phase = .silent ∧ t.faultLine = true ∧ t.now = s.now ∧
      t.cfg = s.cfg ∧ t.pins = s.pins ∧ t.pending = s.pending ∧ t.biu.queue = [] ∧
      (∀ (q : BusPort) (tx : Tx), t.biu.port q = .sending tx → tx.source = .forward) ∧
      t.biu.presenceTimer = none ∧ t.biu.joinTimer = none ∧ t.biu.leaveTimer = none ∧ t.biu.roster = s.biu.roster ∧
      t.biu.fwdA = s.biu.fwdA ∧ t.biu.fwdB = s.biu.fwdB ∧
      (∀ a : Fin 8, t.rport.fe[a].state = .muted ∨ t.rport.fe[a].state = .fault) ∧
      (∀ l : Fin 8, (t.lsup.links[l]).isSome = (s.lsup.links[l]).isSome) ∧
      (∀ (l : Fin 8) (y : LinkRec), t.lsup.links[l] = some y → y.state = .disabled ∧ y.reloc = none) ∧
      (∀ i : Fin 16, t.plan.own[i] = none) ∧ t.plan.peers = s.plan.peers ∧ t.mgmt.longTask = none ∧
      (∀ k : Fin 4, t.tbk.calls[k] = none) ∧
      (∀ (q : Fin 12) (r : TbPort), t.tbk.ports[q] = some r → r.talk = .idle ∧ r.follow = none) ∧
      t.tally.layers = s.tally.layers ∧ (∀ (k : Fin 8) (y : Source), t.tally.sources[k] = some y → y.refreshTimer = none)) ∧
  (∀ (p : BusPort) (rx : Rx) (serial : Nat) (records : List PresenceRecord) (s : State), s.hears p = true →
    rx.acceptable = true → rx.origin.toNat = s.station → readPresenceBody rx.body = some (serial, records) →
    (serial = s.image.serial ∨ s.phase = .silent) →
    ∃ t : State, exec (.presence p rx) s = .next t ∧ stationKept s t ∧ recordsKept s t)

/-- The capture hook (R23, R188) on every accepted bulletin of another station, each task by its own row, but ARM_CAPTURE
and READ_CAPTURE, which change a rule themselves and whose marks CounterAndCaptureTasks gives: a rule that matches has its
hit count up by one, its flag set and, in ONCE mode, is OFF; a ONCE match holds the bulletin's header (R189); a rule that
does not match keeps its key, its mode, its count and its flag. -/
def Obligations.CaptureRulesMarkTheirMatches : Prop :=
  ∀ (c : Instr) (k : Kind) (p : BusPort) (rx : Rx) (i : Fin 4) (r : CaptureRule) (s : State), arrives c k p rx →
    heard p rx s →
    (k = .task → rx.body[1]? ≠ some (TaskCode.code .armCapture) ∧ rx.body[1]? ≠ some (TaskCode.code .readCapture)) →
    s.mgmt.rules[i] = r →
    ∃ t : State, exec c s = .next t ∧
      t.mgmt.rules[i].kindValue = r.kindValue ∧ t.mgmt.rules[i].kindMask = r.kindMask ∧
      t.mgmt.rules[i].originValue = r.originValue ∧ t.mgmt.rules[i].originMask = r.originMask ∧
      t.mgmt.rules[i].subjectValue = r.subjectValue ∧ t.mgmt.rules[i].subjectMask = r.subjectMask ∧
      t.mgmt.rules[i].requester = r.requester ∧
      (r.hitBy (rx.bulletin k) = true → t.mgmt.rules[i].hits = r.hits + 1 ∧ t.mgmt.rules[i].hitFlag = true ∧
        t.mgmt.rules[i].mode = (if r.mode = .once then .off else r.mode) ∧
        (r.mode = .once → ∃ h : HeldCapture, t.mgmt.rules[i].held = some h ∧
          h.header = [k.code, rx.origin, rx.target, rx.hopPrio, byte rx.body.length])) ∧
      (r.hitBy (rx.bulletin k) = false → t.mgmt.rules[i].hits = r.hits ∧ t.mgmt.rules[i].hitFlag = r.hitFlag ∧
        t.mgmt.rules[i].mode = r.mode)

/-! ## What the blocks take from the bus -/

/-- PRESENCE of another station (R18, R159): its roster entry holds the unit serial and 4000 ms to run, the other entries
are as they were, and on every line the members of that station are ones its membership list names, with the list's
flags; a member of the list is on its line where the line had room for the whole list. -/
def Obligations.PresenceFillsTheRosters : Prop :=
  ∀ (p : BusPort) (rx : Rx) (serial : Nat) (records : List PresenceRecord) (i : Fin 127) (s : State),
    received p rx s → readPresenceBody rx.body = some (serial, records) → rx.origin.toNat = i.val →
    ∃ t : State, exec (.presence p rx) s = .next t ∧ stationKept s t ∧ t.now = s.now ∧
      t.biu.roster[i] = some { serial := serial, expiry := s.now + 4000000 } ∧
      (∀ j : Fin 127, j ≠ i → t.biu.roster[j] = s.biu.roster[j]) ∧
      (∀ (n : Fin 16) (m : Member), m ∈ t.tbk.lines[n].roster → m.station = i.val →
        ∃ r ∈ records, m.port = r.port ∧ m.listen = r.listen.getLsbD n ∧ m.talk = r.talk.getLsbD n ∧
          (m.listen = true ∨ m.talk = true)) ∧
      (∀ (n : Fin 16) (r : PresenceRecord), r ∈ records → (r.listen.getLsbD n = true ∨ r.talk.getLsbD n = true) →
        s.tbk.lines[n].roster.length ≤ 24 →
        { station := i.val, port := r.port, listen := r.listen.getLsbD n, talk := r.talk.getLsbD n } ∈
          t.tbk.lines[n].roster) ∧
      t.plan = s.plan ∧ t.tally = s.tally ∧ radioKept s t ∧ t.tbk.keys = s.tbk.keys ∧ t.tbk.follows = s.tbk.follows

/-- PLAN_CLAIM and PLAN_HOLD in the replica (R39, R40, R41, R44, R46): an entry of the same identity is refreshed, and a
hold makes it HELD; a third entry of a holder's link takes the slot of the one nearer its expiry; another new entry takes
the lowest empty slot; with no slot the overfull condition is set for three of the hold intervals. -/
def Obligations.ClaimsAndHoldsEnterTheReplica : Prop :=
  ∀ (isHold : Bool) (p : BusPort) (rx : Rx) (b : PlanBody) (s : State), received p rx s → readPlanBody rx.body = some b →
    ∃ t : State, exec (if isHold then .planHold p rx else .planClaim p rx) s = .next t ∧ stationKept s t ∧ t.now = s.now ∧
      t.plan.quarantine = s.plan.quarantine ∧ t.biu.roster = s.biu.roster ∧ t.tally = s.tally ∧ talkKept s t ∧
      (∀ (j : Fin 96) (e : PeerEntry), s.peerSlot rx.origin.toNat b.link b.span = some j → s.plan.peers[j] = some e →
        t.plan.peers = s.plan.peers.set j (some (peerEntry s (isHold || e.held) rx.origin.toNat b)) ∧
        t.plan.overfull = s.plan.overfull) ∧
      (s.peerSlot rx.origin.toNat b.link b.span = none →
        (∀ (j : Fin 96) (d : Nat), 2 ≤ (s.holderSlots rx.origin.toNat b.link).length →
          nearest (s.holderSlots rx.origin.toNat b.link) = some (j, d) →
          t.plan.peers = s.plan.peers.set j (some (peerEntry s isHold rx.origin.toNat b)) ∧
          t.plan.overfull = s.plan.overfull) ∧
        ((s.holderSlots rx.origin.toNat b.link).length < 2 →
          (∀ j : Fin 96, s.emptyPeer = some j →
            t.plan.peers = s.plan.peers.set j (some (peerEntry s isHold rx.origin.toNat b)) ∧
            t.plan.overfull = s.plan.overfull) ∧
          (s.emptyPeer = none → t.plan.peers = s.plan.peers ∧ t.plan.overfull = true ∧
            t.plan.overfullTimer = some (s.now + 3 * (b.hold * 100000)))))

/-- A claim or hold against an own entry that it conflicts with (R48, R50, R68 to R71, R75, R76, R79) and what follows for
the relocation (R86, R119, R121 to R123, R127, R132). A HELD entry, its link's only one but for one YIELDING, that is
outranked: no relocation being under way or searching at once, it turns YIELDING, its yield allowance at 2000 ms, its
refresh and defence stopped, the link's one YIELDING entry. Where its span is the current one of a link that is not pinned
and has no relocation, and no other own entry but YIELDING ones is concerned, a relocation with cause PREEMPTED starts: it
waits while the replica is overfull, else claims the span its search answers, TENTATIVE in the lowest empty slot, the claim
URGENT where the queue had room; without an answer it fails with NO_CANDIDATE, the front-end muted, the link's entries given
up, the link ACQUIRING. A HELD entry not outranked stays, its defend hold-off running, and a hold at the link's effective
class, which the class field takes, waits URGENT where there was room; a second defence in the hold-off is owed and changes
no class. A TENTATIVE entry, the only one concerned: outranked, it goes, its yield waits URGENT, and its relocation, with
one more attempt and the span excluded, waits for an overfull replica, fails at the fourth, or searches again and claims the
answer or fails with NO_CANDIDATE; a pin of unchanged class meets the stored arrival at its start test and fails with
REFUSED (R64). Not outranked, a hold joins its pair to the pending-yield set, which takes 4, and a claim already sent is
defended, URGENT, at its fixed class, one not yet sent by nothing. LSUP's records are exact where the queue had room: a full
one may evict a SIGHTING (R11, R113). A PLAN_YIELD of a pair it waits for takes the pair out, and with none left in its
allowance it becomes HELD and is tuned. -/
def Obligations.OwnEntriesMeetClaimsAndHolds : Prop :=
  (∀ (isHold : Bool) (p : BusPort) (rx : Rx) (b : PlanBody) (i : Fin 16) (e : OwnEntry) (s : State), s.Inv →
    received p rx s → readPlanBody rx.body = some b → s.ownEntry i = some e → e.standing = .held →
    s.conflicts e.span b.span = true →
    (∀ (j : Fin 16) (o : OwnEntry), j ≠ i → s.ownEntry j = some o → o.link = e.link → o.standing = .yielding) →
    ((b.rank isHold rx.origin.toNat).outranks (e.rank s) = true → s.reloc e.link = none →
      (∀ x : LinkRec, s.link e.link = some x → x.current ≠ some e.span ∨ x.pinned = true ∨
        s.plan.overfull = true) →
      ∃ t : State, exec (if isHold then .planHold p rx else .planClaim p rx) s = .next t ∧
        t.plan.own[i] = some { e with standing := .yielding, refresh := none, defend := none, owed := false,
                                      allowance := some (s.now + 2000000) } ∧
        ∀ (j : Fin 16) (o : OwnEntry), t.plan.own[j] = some o → o.link = e.link → o.standing = .yielding → j = i) ∧
    (∀ x : LinkRec, (b.rank isHold rx.origin.toNat).outranks (e.rank s) = true → s.link e.link = some x →
      x.reloc = none → x.current = some e.span → x.pinned = false → e.span.low ≤ e.span.high →
      (∀ (j : Fin 16) (o : OwnEntry), j ≠ i → s.ownEntry j = some o → o.standing = .yielding ∨ apart s o rx b) →
      ∃ t : State, exec (if isHold then .planHold p rx else .planClaim p rx) s = .next t ∧ stationKept s t ∧
        t.now = s.now ∧ t.plan.peers = (afterPreemption isHold rx b i e s).plan.peers ∧ t.tally = s.tally ∧
        talkKept s t ∧
        ((afterPreemption isHold rx b i e s).plan.overfull = true →
          t.plan.own = (afterPreemption isHold rx b i e s).plan.own ∧ t.rport.fe = s.rport.fe ∧
          ∃ z : LinkRec, t.lsup.links[e.link] = some z ∧ z.state = x.state ∧ z.current = x.current ∧
            z.acquireRetry = none ∧ z.reloc = some (waiting .preempted x none false false)) ∧
        (∀ (sp : Span) (k : Fin 16),
          (afterPreemption isHold rx b i e s).searchStart x.desc x.pointer [] = .span sp →
          (afterPreemption isHold rx b i e s).emptyOwn = some k →
          claimStands k e.link sp s t ∧ t.plan.own[i] = some (preempted e s) ∧ t.rport.fe = s.rport.fe ∧
          (∀ j : Fin 16, j ≠ k → t.plan.own[j] = (afterPreemption isHold rx b i e s).plan.own[j]) ∧
          (∃ z : LinkRec, t.lsup.links[e.link] = some z ∧ z.state = x.state ∧ z.current = x.current ∧
            z.acquireRetry = none ∧
            z.reloc = some { waiting .preempted x (some sp) false false with phase := .claiming }) ∧
          (s.biu.queue.length < 15 → waits true .planClaim (claimBody e.link sp s) s t)) ∧
        ((afterPreemption isHold rx b i e s).searchStart x.desc x.pointer [] = .none →
          failedOff e.link x .preempted .noCandidate s t ∧
          (s.biu.queue.length < 15 → waits true .planYield (Span.bytes e.span ++ [byte e.link]) s t))) ∧
    ((b.rank isHold rx.origin.toNat).outranks (e.rank s) = false →
      ∃ t : State, exec (if isHold then .planHold p rx else .planClaim p rx) s = .next t ∧
        ∃ e' : OwnEntry, t.plan.own[i] = some e' ∧ e'.standing = .held ∧ e'.span = e.span ∧ e'.link = e.link ∧
          e'.defend = (if e.defend.isSome then e.defend else some (s.now + 100000)) ∧
          e'.owed = (if e.defend.isSome then true else e.owed) ∧
          (e.defend.isSome = true → e'.cls = e.cls) ∧
          (e.defend = none → s.biu.queue.length < 16 →
            (∀ (j : Fin 16) (o : OwnEntry), j ≠ i → s.ownEntry j = some o → apart s o rx b) →
            e'.cls = s.effectiveClass e.link ∧
              waits true .planHold (planBody e (s.effectiveClass e.link)) s t))) ∧
  (∀ (isHold : Bool) (p : BusPort) (rx : Rx) (b : PlanBody) (i : Fin 16) (e : OwnEntry) (s : State), s.Inv →
    received p rx s → readPlanBody rx.body = some b → s.ownEntry i = some e → e.standing = .tentative →
    s.conflicts e.span b.span = true →
    (∀ (j : Fin 16) (o : OwnEntry), j ≠ i → s.ownEntry j = some o → apart s o rx b) →
    ((rx.origin.toNat, b.link) ∉ e.pendingYield ∨ (s.peerSlot rx.origin.toNat b.link b.span).isSome = true) →
    (∀ (x : LinkRec) (r : Reloc), (b.rank isHold rx.origin.toNat).outranks (e.rank s) = true →
      s.link e.link = some x → x.reloc = some r → r.phase = .claiming → r.cand = some e.span →
      ∃ t : State, exec (if isHold then .planHold p rx else .planClaim p rx) s = .next t ∧ stationKept s t ∧
        t.now = s.now ∧
        (s.biu.queue.length < 16 → waits true .planYield (Span.bytes e.span ++ [byte e.link]) s t) ∧
        ((afterLoss isHold rx b i s).plan.overfull = true → r.attempts + 1 < 4 →
          t.plan.own = s.plan.own.set i none ∧
          (∃ z : LinkRec, t.lsup.links[e.link] = some z ∧ z.state = x.state ∧ z.current = x.current ∧
            z.reloc = some { r with
              phase := .waiting, attempts := r.attempts + 1, excluded := r.excluded ++ [e.span],
              cand := if r.cause = .taskPin then r.cand else none }) ∧
          (s.biu.queue.length < 16 → t.lsup = { s.lsup with
            links := s.lsup.links.set e.link (some { x with reloc := some { r with
              phase := .waiting, attempts := r.attempts + 1, excluded := r.excluded ++ [e.span],
              cand := if r.cause = .taskPin then r.cand else none } }) })) ∧
        (r.attempts + 1 < 4 → r.cause ≠ .taskPin →
          (∀ (sp : Span) (k : Fin 16),
            (afterLoss isHold rx b i s).searchStart x.desc x.pointer (r.excluded ++ [e.span]) = .span sp →
            (afterLoss isHold rx b i s).emptyOwn = some k →
            claimStands k e.link sp s t ∧
            (∀ j : Fin 16, j ≠ k → t.plan.own[j] = (afterLoss isHold rx b i s).plan.own[j]) ∧
            (∃ z : LinkRec, t.lsup.links[e.link] = some z ∧ z.state = x.state ∧ z.current = x.current ∧
              z.reloc = some { r with phase := .claiming, cand := some sp, attempts := r.attempts + 1,
                                      excluded := r.excluded ++ [e.span] }) ∧
            (s.biu.queue.length < 15 → waits true .planClaim (claimBody e.link sp s) s t)) ∧
          ((afterLoss isHold rx b i s).searchStart x.desc x.pointer (r.excluded ++ [e.span]) = .none →
            t.plan.own[i] = none ∧ ∃ z : LinkRec, t.lsup.links[e.link] = some z ∧ z.reloc = none ∧
              z.lastOutcome = some (r.cause, .failed .noCandidate))) ∧
        (r.attempts + 1 < 4 → r.cause = .taskPin → (afterLoss isHold rx b i s).plan.overfull = false →
          s.effectiveClass e.link = e.cls →
          t.plan.own[i] = none ∧ ∃ z : LinkRec, t.lsup.links[e.link] = some z ∧ z.reloc = none ∧
            z.lastOutcome = some (.taskPin, .failed .refused)) ∧
        (4 ≤ r.attempts + 1 → t.plan.own[i] = none ∧ ∃ z : LinkRec, t.lsup.links[e.link] = some z ∧ z.reloc = none ∧
          z.lastOutcome = some (r.cause, .failed (if r.cause = .taskPin then .refused else .noCandidate)))) ∧
    ((b.rank isHold rx.origin.toNat).outranks (e.rank s) = false →
      ∃ t : State, exec (if isHold then .planHold p rx else .planClaim p rx) s = .next t ∧ stationKept s t ∧
        t.now = s.now ∧ (∀ l : Fin 8, t.reloc l = s.reloc l) ∧
        (s.biu.queue.length < 16 ∨ e.sent = false ∨ e.defend.isSome = true → t.lsup = s.lsup) ∧
        t.plan.own = s.plan.own.set i (some { e with
          pendingYield := if isHold = false ∨ (rx.origin.toNat, b.link) ∈ e.pendingYield ∨ 4 ≤ e.pendingYield.length
            then e.pendingYield else e.pendingYield ++ [(rx.origin.toNat, b.link)]
          defend := if e.sent = true ∧ e.defend = none then some (s.now + 100000) else e.defend
          owed := e.owed || (e.sent && e.defend.isSome) }) ∧
        (e.sent = true → e.defend = none → s.biu.queue.length < 16 →
          waits true .planClaim (planBody e e.cls) s t) ∧
        (e.sent = false ∨ e.defend.isSome = true → noneArmed s → t.biu.queue = s.biu.queue))) ∧
  (∀ (p : BusPort) (rx : Rx) (sp : Span) (link : Nat) (i : Fin 16) (e : OwnEntry) (s : State), received p rx s →
    readYieldBody rx.body = some (sp, link) → s.phase = .active → s.ownEntry i = some e → e.standing = .tentative →
    s.conflicts e.span sp = true → (rx.origin.toNat, link) ∈ e.pendingYield →
    (∀ (j : Fin 16) (o : OwnEntry), j ≠ i → s.ownEntry j = some o → (rx.origin.toNat, link) ∉ o.pendingYield) →
    (e.allowance = none ∨ (∃ y ∈ e.pendingYield, y ≠ (rx.origin.toNat, link)) →
      ∃ t : State, exec (.planYield p rx) s = .next t ∧ stationKept s t ∧ t.now = s.now ∧ t.lsup = s.lsup ∧
        t.plan.own = s.plan.own.set i (some { e with
          pendingYield := e.pendingYield.filter fun y => y != (rx.origin.toNat, link) })) ∧
    (∀ (x : LinkRec) (r : Reloc), e.allowance.isSome = true → (∀ y ∈ e.pendingYield, y = (rx.origin.toNat, link)) →
      s.link e.link = some x → x.reloc = some r → r.phase = .claiming → r.cand = some e.span →
      x.tuneInFlight = false →
      (s.rport.fe[x.desc.frontEnd].state = .muted ∨ ∃ sp, s.rport.fe[x.desc.frontEnd].state = .tuned sp) →
      ∃ t : State, exec (.planYield p rx) s = .next t ∧ heldAndTuned i e x r s.now s t))

/-- PLAN_YIELD in the replica (R42): the peer entry with its holder, link and span goes and its slot is empty; a yield that
matches none changes nothing in the table. -/
def Obligations.YieldEmptiesItsSlot : Prop :=
  ∀ (p : BusPort) (rx : Rx) (sp : Span) (link : Nat) (s : State), received p rx s →
    readYieldBody rx.body = some (sp, link) →
    ∃ t : State, exec (.planYield p rx) s = .next t ∧ stationKept s t ∧ t.now = s.now ∧
      (∀ j : Fin 96, s.peerSlot rx.origin.toNat link sp = some j → t.plan.peers = s.plan.peers.set j none) ∧
      (s.peerSlot rx.origin.toNat link sp = none → t.plan.peers = s.plan.peers) ∧
      t.plan.quarantine = s.plan.quarantine ∧ t.plan.overfull = s.plan.overfull ∧ t.tally = s.tally ∧ talkKept s t ∧
      t.biu.roster = s.biu.roster

/-- SIGHTING (R52, R54, R106, R109, R110): a severity at the threshold or above puts the span last in the quarantine list
for the quarantine time, in place of an entry with that span; a sighting that its band's copy filter does not hold shifts
into the band's global history as BAD where its severity is not 0, and joins the filter for 250 ms. -/
def Obligations.SightingQuarantinesAndFolds : Prop :=
  ∀ (p : BusPort) (rx : Rx) (sp : Span) (severity : Nat) (s : State), received p rx s →
    readSightingBody rx.body = some (sp, severity) →
    ∃ t : State, exec (.sighting p rx) s = .next t ∧ stationKept s t ∧ t.now = s.now ∧
      t.plan.own = s.plan.own ∧ t.plan.peers = s.plan.peers ∧ t.plan.overfull = s.plan.overfull ∧
      (severity < s.image.quarThreshold → t.plan = s.plan) ∧
      (s.image.quarThreshold ≤ severity → (s.plan.quarantine.filter (fun q => q.span != sp)).length < 16 →
        t.plan.quarantine = s.plan.quarantine.filter (fun q => q.span != sp) ++
          [{ span := sp, expiry := s.now + s.image.quarTimeS * 1000000 }]) ∧
      (s.image.quarThreshold ≤ severity → 16 ≤ (s.plan.quarantine.filter (fun q => q.span != sp)).length →
        t.plan.quarantine = (s.plan.quarantine.filter (fun q => q.span != sp)).drop 1 ++
          [{ span := sp, expiry := s.now + s.image.quarTimeS * 1000000 }]) ∧
      t.lsup.links = s.lsup.links ∧ t.lsup.localTable = s.lsup.localTable ∧ t.lsup.globalTable = s.lsup.globalTable ∧
      t.lsup.choiceTable = s.lsup.choiceTable ∧
      ((s.copyEntry rx.origin.toNat sp severity).isSome = true → t.lsup = s.lsup) ∧
      (s.copyEntry rx.origin.toNat sp severity = none →
        t.lsup.histories[sp.band.index] =
          ((s.lsup.histories[sp.band.index] >>> 1) ||| if severity = 0 then 0#8 else 0x80#8) ∧
        { origin := rx.origin.toNat, span := sp, severity := severity, expiry := s.now + 250000 } ∈
          t.lsup.filters[sp.band.index] ∧
        ∀ d : Band, d ≠ sp.band → t.lsup.histories[d.index] = s.lsup.histories[d.index] ∧
          t.lsup.filters[d.index] = s.lsup.filters[d.index]) ∧
      t.tally = s.tally ∧ talkKept s t ∧ radioKept s t ∧ t.biu.roster = s.biu.roster

/-- TALLY_STATE (R137, R144, R148, R150): a publication is taken unless its layer is LIVE under a lower-numbered source; the
layer is then LIVE under its origin with the body's content, its stale timer at three refresh intervals, an own source of
the layer stands by where the origin's number is lower, and the on-air marks are those of the map over the layers; a
publication turned away changes no layer. -/
def Obligations.PublicationsFillTheLayers : Prop :=
  ∀ (p : BusPort) (rx : Rx) (b : TallyBody) (s : State), received p rx s → readTallyBody rx.body = some b →
    (((s.layer b.layer).state ≠ .live ∨ (s.layer b.layer).source.all (fun r => decide (rx.origin.toNat ≤ r)) = true) →
      ∃ t : State, exec (.tallyState p rx) s = .next t ∧ stationKept s t ∧ t.now = s.now ∧
        t.tally.layers = s.tally.layers.set b.layer
          { state := .live, source := some rx.origin.toNat, refresh := some b.refresh, count := some b.count,
            inputs := b.inputs, staleTimer := some (s.now + 3 * (b.refresh * 100000)), unsetTimer := none } ∧
        (∀ x : Source, s.source b.layer = some x → rx.origin.toNat < s.station →
          t.tally.sources[b.layer] = some { x with standby := true, refreshTimer := none }) ∧
        (∀ k : Fin 8, k ≠ b.layer → t.tally.sources[k] = s.tally.sources[k]) ∧
        (∀ l : Fin 8, t.tally.onAir[l] = t.tally.onAirMark s.image.rules.toList l) ∧
        t.tally.contacts = s.tally.contacts ∧ t.plan.peers = s.plan.peers ∧ talkKept s t ∧ t.rport.fe = s.rport.fe) ∧
    ((s.layer b.layer).state = .live → (∃ r, (s.layer b.layer).source = some r ∧ r < rx.origin.toNat) →
      ∃ t : State, exec (.tallyState p rx) s = .next t ∧ stationKept s t ∧ recordsKept s t)

/-- LINE_JOIN and LINE_LEAVE of another station's port (R158, R159): a join puts the member into its line's roster with the
body's flags, and one without talk right takes its talker entry out, or the line is overfull where the roster is full; a
leave, or a join with neither flag, takes the member out with its talker entry; the line's other members, the other
stations' talkers and the other lines stay. -/
def Obligations.JoinsAndLeavesMoveMembers : Prop :=
  (∀ (p : BusPort) (rx : Rx) (n : Fin 16) (port : Nat) (listen talk : Bool) (s : State), received p rx s →
    readJoinBody rx.body = some (n, port, listen, talk) →
    ∃ t : State, exec (.lineJoin p rx) s = .next t ∧ stationKept s t ∧ t.now = s.now ∧
      ((listen = true ∨ talk = true) → ((s.line n).hasMember rx.origin.toNat port = true ∨ (s.line n).roster.length < 32) →
        { station := rx.origin.toNat, port := port, listen := listen, talk := talk } ∈ t.tbk.lines[n].roster ∧
        (∀ m ∈ t.tbk.lines[n].roster, m.station = rx.origin.toNat → m.port = port → m.listen = listen ∧ m.talk = talk) ∧
        (∀ m : Member, ¬(m.station = rx.origin.toNat ∧ m.port = port) →
          (m ∈ t.tbk.lines[n].roster ↔ m ∈ (s.line n).roster)) ∧
        t.tbk.lines[n].overfull = (s.line n).overfull ∧
        (talk = false → noTalker rx port t n) ∧
        (talk = true → ∀ x ∈ (s.line n).talkers, x.station ≠ s.station → x ∈ t.tbk.lines[n].talkers)) ∧
      ((listen = true ∨ talk = true) → (s.line n).hasMember rx.origin.toNat port = false →
        32 ≤ (s.line n).roster.length → t.tbk.lines[n].roster = (s.line n).roster ∧ t.tbk.lines[n].overfull = true ∧
          ∀ x ∈ (s.line n).talkers, x.station ≠ s.station → x ∈ t.tbk.lines[n].talkers) ∧
      (listen = false → talk = false → memberOut rx port n s t) ∧ othersTalk rx port n s t ∧
      (∀ k : Fin 16, k ≠ n → t.tbk.lines[k] = s.tbk.lines[k]) ∧
      t.plan = s.plan ∧ t.tally = s.tally ∧ radioKept s t ∧ t.tbk.follows = s.tbk.follows ∧ t.tbk.calls = s.tbk.calls) ∧
  (∀ (p : BusPort) (rx : Rx) (n : Fin 16) (port : Nat) (s : State), received p rx s →
    readLeaveBody rx.body = some (n, port) →
    ∃ t : State, exec (.lineLeave p rx) s = .next t ∧ stationKept s t ∧ t.now = s.now ∧
      memberOut rx port n s t ∧ othersTalk rx port n s t ∧
      (∀ k : Fin 16, k ≠ n → t.tbk.lines[k] = s.tbk.lines[k]) ∧
      t.plan = s.plan ∧ t.tally = s.tally ∧ radioKept s t ∧ t.tbk.follows = s.tbk.follows ∧ t.tbk.calls = s.tbk.calls)

/-- TALK of another station's port (R161): a member with talk right that turns its talk on is in the line's talker list with
its class for 1.5 s; one without talk right is turned away and changes no line; off takes the entry out. FOLLOW_TALK
(R165): on refreshes or replaces the entry of its origin and port, or is added for 1.5 s to a list of fewer than 4; a full
list does not take it; off takes the entry out. -/
def Obligations.TalkersAndFollowersMove : Prop :=
  (∀ (p : BusPort) (rx : Rx) (n : Fin 16) (port cls : Nat) (on : Bool) (s : State), received p rx s →
    readTalkBody rx.body = some (n, port, cls, on) →
    ∃ t : State, exec (.talk p rx) s = .next t ∧ stationKept s t ∧ t.now = s.now ∧
      (∀ k : Fin 16, k ≠ n → t.tbk.lines[k] = s.tbk.lines[k]) ∧ t.tbk.lines[n].roster = (s.line n).roster ∧
      (on = true → ((s.line n).roster.any fun m => m.is rx.origin.toNat port && m.talk) = true →
        (s.line n).talkers.length < 8 →
        { station := rx.origin.toNat, port := port, cls := cls, expiry := some (s.now + 1500000) } ∈
          t.tbk.lines[n].talkers) ∧
      (on = true → ((s.line n).roster.any fun m => m.is rx.origin.toNat port && m.talk) = false →
        t.tbk.lines = s.tbk.lines ∧ t.tbk.ports = s.tbk.ports) ∧
      (on = false → ∀ x ∈ t.tbk.lines[n].talkers, ¬(x.station = rx.origin.toNat ∧ x.port = port)) ∧
      t.plan = s.plan ∧ t.tally = s.tally ∧ radioKept s t ∧ t.tbk.follows = s.tbk.follows ∧ t.tbk.calls = s.tbk.calls) ∧
  (∀ (p : BusPort) (rx : Rx) (layer : Fin 8) (input port : Nat) (on : Bool) (s : State), received p rx s →
    readFollowBody rx.body = some (layer, input, port, on) →
    ∃ t : State, exec (.followTalk p rx) s = .next t ∧ stationKept s t ∧ t.now = s.now ∧
      (on = true → (∀ f ∈ s.tbk.follows, ¬(f.origin = rx.origin.toNat ∧ f.port = port)) → s.tbk.follows.length < 4 →
        t.tbk.follows = s.tbk.follows ++
          [{ origin := rx.origin.toNat, port := port, layer := layer, input := input, expiry := s.now + 1500000 }]) ∧
      (on = true → (∀ f ∈ s.tbk.follows, ¬(f.origin = rx.origin.toNat ∧ f.port = port)) → 4 ≤ s.tbk.follows.length →
        t.tbk.follows = s.tbk.follows) ∧
      (on = true → (∃ f ∈ s.tbk.follows, f.origin = rx.origin.toNat ∧ f.port = port) →
        t.tbk.follows = s.tbk.follows.map fun f =>
          if f.origin = rx.origin.toNat ∧ f.port = port then
            { origin := rx.origin.toNat, port := port, layer := layer, input := input, expiry := s.now + 1500000 }
          else f) ∧
      (on = false → t.tbk.follows = s.tbk.follows.filter fun f => !(f.origin == rx.origin.toNat && f.port == port)) ∧
      t.tbk.ports = s.tbk.ports ∧ t.tbk.lines = s.tbk.lines ∧ t.tbk.calls = s.tbk.calls ∧
      t.tbk.circuits = s.tbk.circuits ∧ t.plan = s.plan ∧ t.lsup = s.lsup ∧ t.tally = s.tally ∧ radioKept s t)

/-- CALL_RING for a port of this station, a new call with a slot free (R169): by the port's answer mode it rings for the
call expiry of 6 s, is answered at once with a CALL_ANSWER, or is refused with a CALL_END, reason BUSY, and the slot still
IDLE. A port with a call already, a port that is not there and a station with no slot free refuse it so too. Outside ACTIVE
a ring takes no slot, and its FREE circuit becomes USED by the caller for 6 s (R30, R35, R167). -/
def Obligations.NewRingTakesASlot : Prop :=
  (∀ (p : BusPort) (rx : Rx) (b : CallBody) (q : Fin 12) (r : TbPort) (k : Fin 4) (s : State), received p rx s →
    readCallBody false rx.body = some b → rx.origin.toNat = b.caller.1 → b.callee = (s.station, q.val) →
    s.tbPort q = some r → s.slotOf q = none → s.idleSlot = some k → s.concerned rx.origin.toNat b = none →
    s.glareSlot b = none → s.tbk.circuits[b.circuit] = none →
    ∃ t : State, exec (.callRing p rx) s = .next t ∧ stationKept s t ∧ t.now = s.now ∧
      (s.phase ≠ .active → t.tbk.calls = s.tbk.calls ∧
        t.tbk.circuits = s.tbk.circuits.set b.circuit (some { caller := b.caller, expiry := s.now + 6000000 })) ∧
      (s.phase = .active → r.answer = .manual → t.tbk.calls[k] = some
        { state := .ringingIn, caller := false, port := q, peer := b.caller, circuit := b.circuit, ringTimer := none,
          keepTimer := none, callExpiry := some (s.now + 6000000) }) ∧
      (s.phase = .active → r.answer = .auto → t.tbk.calls[k] = some
        { state := .connected, caller := false, port := q, peer := b.caller, circuit := b.circuit, ringTimer := none,
          keepTimer := some (s.now + 2000000), callExpiry := some (s.now + 6000000) }) ∧
      (s.phase = .active → r.answer = .reject → t.tbk.calls[k] = none) ∧
      (s.phase = .active → s.biu.queue.length < 16 →
        (r.answer = .auto → waits true .callAnswer (callBodyOf b 0) s t) ∧
        (r.answer = .reject → waits true .callEnd (callBodyOf b 2) s t)) ∧
      t.plan = s.plan ∧ t.tally = s.tally ∧ radioKept s t ∧ t.tbk.lines = s.tbk.lines ∧ t.tbk.follows = s.tbk.follows) ∧
  (∀ (p : BusPort) (rx : Rx) (b : CallBody) (q : Fin 12) (s : State), received p rx s → s.phase = .active →
    readCallBody false rx.body = some b → rx.origin.toNat = b.caller.1 → b.callee = (s.station, q.val) →
    s.concerned rx.origin.toNat b = none → s.glareSlot b = none →
    s.tbPort q = none ∨ (s.slotOf q).isSome = true ∨ s.idleSlot = none →
    ∃ t : State, exec (.callRing p rx) s = .next t ∧ stationKept s t ∧ t.now = s.now ∧
      (s.biu.queue.length < 16 → waits true .callEnd (callBodyOf b 2) s t) ∧
      (∀ (k : Fin 4) (c : CallRec), s.call k = some c → c.circuit ≠ b.circuit → t.tbk.calls[k] = some c) ∧
      (∀ k : Fin 4, s.call k = none → t.tbk.calls[k] = none) ∧
      t.plan = s.plan ∧ t.tally = s.tally ∧ radioKept s t ∧ t.tbk.lines = s.tbk.lines ∧ t.tbk.follows = s.tbk.follows)

/-- CALL_ANSWER and CALL_KEEP for a call of this station's (R171): a ringing-out slot is CONNECTED, its ring timer stopped,
its keep timer at 2 s and its call expiry at 6 s; a connected slot has its call expiry restarted; and a keep's circuit is
the slot's where this station is not the caller. -/
def Obligations.AnswersAndKeepsConnect : Prop :=
  (∀ (p : BusPort) (rx : Rx) (b : CallBody) (k : Fin 4) (c : CallRec) (s : State), received p rx s →
    readCallBody false rx.body = some b → (rx.origin.toNat = b.caller.1 ∨ rx.origin.toNat = b.callee.1) →
    b.caller.1 ≠ b.callee.1 → s.concerned rx.origin.toNat b = some k → s.call k = some c →
    ∃ t : State, exec (.callAnswer p rx) s = .next t ∧ stationKept s t ∧ t.now = s.now ∧
      (c.state = .ringingOut → t.tbk.calls = s.tbk.calls.set k (some { c with
        state := .connected, ringTimer := none, keepTimer := some (s.now + 2000000),
        callExpiry := some (s.now + 6000000) })) ∧
      (c.state = .connected → t.tbk.calls = s.tbk.calls.set k (some { c with callExpiry := some (s.now + 6000000) })) ∧
      (c.state = .ringingIn → t.tbk.calls = s.tbk.calls) ∧
      t.tbk.circuits = s.tbk.circuits ∧ t.tbk.lines = s.tbk.lines ∧ t.tbk.ports = s.tbk.ports ∧ t.plan = s.plan ∧
      t.lsup = s.lsup ∧ t.tally = s.tally ∧ radioKept s t) ∧
  (∀ (p : BusPort) (rx : Rx) (b : CallBody) (k : Fin 4) (c : CallRec) (s : State), received p rx s →
    readCallBody false rx.body = some b → (rx.origin.toNat = b.caller.1 ∨ rx.origin.toNat = b.callee.1) →
    b.caller.1 ≠ b.callee.1 → s.concerned rx.origin.toNat b = some k → s.call k = some c →
    ∃ t : State, exec (.callKeep p rx) s = .next t ∧ stationKept s t ∧ t.now = s.now ∧
      (let circuit := if c.caller then c.circuit else b.circuit
       t.tbk.calls[k] = some (match c.state with
        | .ringingOut => { c with state := .connected, circuit := circuit, ringTimer := none,
                                  keepTimer := some (s.now + 2000000), callExpiry := some (s.now + 6000000) }
        | .connected => { c with circuit := circuit, callExpiry := some (s.now + 6000000) }
        | .ringingIn => { c with circuit := circuit })) ∧
      (∀ (j : Fin 4) (x : CallRec), j ≠ k → s.call j = some x → x.circuit ≠ b.circuit → t.tbk.calls[j] = some x) ∧
      (∀ j : Fin 4, s.call j = none → t.tbk.calls[j] = none) ∧
      (s.tbk.circuits[b.circuit].all (fun u => u.caller == b.caller) = true →
        (∀ (j : Fin 4) (x : CallRec), s.call j = some x → j ≠ k → x.circuit ≠ b.circuit) → ∃ u : CircuitUse,
        t.tbk.circuits[b.circuit] = some u ∧ u.caller = b.caller ∧ u.expiry = s.now + 6000000) ∧
      t.tbk.lines = s.tbk.lines ∧ t.plan = s.plan ∧ t.tally = s.tally ∧ radioKept s t)

/-- CALL_END for a call of this station's (R167, R172, R174): the slot is IDLE, a circuit USED by the call's caller is FREE,
and a port with a call lamp shows the refusal indication for 2 s for every reason but CLEARED. -/
def Obligations.CallEndFreesSlotAndCircuit : Prop :=
  ∀ (p : BusPort) (rx : Rx) (b : CallBody) (k : Fin 4) (c : CallRec) (s : State), received p rx s →
    readCallBody true rx.body = some b → (rx.origin.toNat = b.caller.1 ∨ rx.origin.toNat = b.callee.1) →
    b.caller.1 ≠ b.callee.1 → s.concerned rx.origin.toNat b = some k → s.call k = some c →
    ∃ t : State, exec (.callEnd p rx) s = .next t ∧ stationKept s t ∧ t.now = s.now ∧
      t.tbk.calls = s.tbk.calls.set k none ∧
      (∀ u : CircuitUse, s.tbk.circuits[b.circuit] = some u → u.caller = b.caller → t.tbk.circuits[b.circuit] = none) ∧
      (b.reason = .cleared → t.tbk.ports = s.tbk.ports) ∧
      (b.reason ≠ .cleared → ∀ r : TbPort, s.tbPort c.port = some r → r.callLamp.isSome = true →
        t.tbk.ports[c.port] = some { r with indication := some (s.now + 2000000) }) ∧
      t.tbk.lines = s.tbk.lines ∧ t.tbk.follows = s.tbk.follows ∧ t.plan = s.plan ∧ t.lsup = s.lsup ∧
      t.tally = s.tally ∧ radioKept s t

/-! ## Tasks -/

/-- A task that MGMT takes joins the recent-task list for 1 s, and a copy of a recent task has no effect and no reply
(R179): the blocks' records, the list and, with no capture rule armed, the transmit queue are as they were. So it is with a
TASK outside ACTIVE, with one whose target is 0 and with one too short to hold a tag and a code (R22, R178). A task with a
code that is not assigned is answered UNKNOWN_TASK (UNKNOWN_TASK, R178). -/
def Obligations.TasksAreTakenOnce : Prop :=
  (∀ (c : TaskCode) (p : BusPort) (x : TaskRx) (s : State), tasked c p x s →
    ∃ t : State, exec (taskArrival c p x) s = .next t ∧ t.now = s.now ∧
      t.mgmt.recent = (if s.mgmt.recent.length < 8 then s.mgmt.recent else s.mgmt.recent.drop 1) ++
        [{ origin := x.origin.toNat, tag := x.tag.toNat, code := c.code.toNat, expiry := s.now + 1000000 }]) ∧
  (∀ (c : TaskCode) (p : BusPort) (x : TaskRx) (s : State), s.phase = .active → heard p (TaskRx.rx c x) s →
    x.target ≠ 0 → x.target.toNat = s.station → s.isCopy (task c x) = true →
    ∃ t : State, exec (taskArrival c p x) s = .next t ∧ t.now = s.now ∧ untaken s t) ∧
  (∀ (c : TaskCode) (p : BusPort) (x : TaskRx) (s : State), s.phase ≠ .active ∨ x.target = 0 →
    heard p (TaskRx.rx c x) s →
    ∃ t : State, exec (taskArrival c p x) s = .next t ∧ t.now = s.now ∧ untaken s t) ∧
  (∀ (p : BusPort) (rx : Rx) (tag code : Byte) (params : List Byte) (s : State), s.phase = .active → heard p rx s →
    rx.target ≠ 0 → rx.target.toNat = s.station → rx.body = tag :: code :: params → TaskCode.ofCode code = none →
    s.isCopy { origin := rx.origin.toNat, tag := tag.toNat, code := code, params := params } = false →
    ∃ t : State, exec (.unknownTask p rx) s = .next t ∧ stationKept s t ∧ t.now = s.now ∧ recordsKept s t ∧
      t.mgmt.longTask = s.mgmt.longTask ∧
      (s.biu.queue.length < 16 → ∃ e ∈ t.biu.queue, e.urgent = false ∧ e.bulletin =
        { kind := 0x41, origin := byte s.station, target := rx.origin, hopPrio := byte s.image.hops,
          body := [tag, code, 5] })) ∧
  (∀ (p : BusPort) (rx : Rx) (s : State), heard p rx s →
    rx.body.length < 2 ∨ s.phase ≠ .active ∨ rx.target = 0 →
    ∃ t : State, exec (.unknownTask p rx) s = .next t ∧ t.now = s.now ∧ untaken s t)

/-- The reading tasks READ_STATION, READ_LINK, READ_PLAN, READ_TALLY and READ_LINE (R182, R183) answer DONE with the data of
their tables as the records stand, and change none of them, but for READ_TALLY's clear option. READ_STATION counts the
forward queues as its own arrival leaves them. The layouts of the data rest on log 23 where section 11.2 leaves a detail
open (DEDUCED, but for the override flag shown in WAITING and the expiry that an own entry does not report in READ_PLAN, for
which no byte is sent: a DESIGN CHOICE each). -/
def Obligations.ReadingTasksAnswerWithData : Prop :=
  (∀ (p : BusPort) (x : TaskRx) (s : State), tasked .readStation p x s →
    ∃ t : State, exec (.readStation p x) s = .next t ∧ stationKept s t ∧ recordsKept s t ∧
      (s.biu.queue.length < 16 → answered false .readStation x .done
        (State.stationData { s with biu := { s.biu with fwdA := t.biu.fwdA, fwdB := t.biu.fwdB } }) s t)) ∧
  (∀ (p : BusPort) (x : TaskRx) (l : Fin 8) (y : LinkRec) (s : State), tasked .readLink p x s →
    fin8 8 x.params 0 = some l → s.link l = some y →
    ∃ t : State, exec (.readLink p x) s = .next t ∧ stationKept s t ∧ recordsKept s t ∧
      (s.biu.queue.length < 16 → answered false .readLink x .done (s.linkData l y) s t)) ∧
  (∀ (p : BusPort) (x : TaskRx) (start count : Nat) (s : State), tasked .readPlan p x s →
    ranged 0 111 x.params 0 = some start → ranged 1 3 x.params 1 = some count →
    ∃ t : State, exec (.readPlan p x) s = .next t ∧ stationKept s t ∧ recordsKept s t ∧
      (s.biu.queue.length < 16 → answered false .readPlan x .done
        (((List.range count).filter fun k => decide (start + k ≤ 111)).flatMap fun k => s.slotData (start + k)) s t)) ∧
  (∀ (p : BusPort) (x : TaskRx) (clear : Bool) (s : State), tasked .readTally p x s → flagAt x.params 0 = some clear →
    ∃ t : State, exec (.readTally p x) s = .next t ∧ stationKept s t ∧ t.plan = s.plan ∧ t.lsup = s.lsup ∧
      talkKept s t ∧ radioKept s t ∧ t.tally.layers = s.tally.layers ∧ t.tally.onAir = s.tally.onAir ∧
      (clear = false → t.tally = s.tally) ∧
      (clear = true → ∀ k : Fin 32, t.tally.hits[k] = s.tally.hit s.image.rules[k]) ∧
      (s.biu.queue.length < 16 → answered false .readTally x .done s.tallyData s t)) ∧
  (∀ (p : BusPort) (x : TaskRx) (n : Fin 16) (start count : Nat) (s : State), tasked .readLine p x s →
    fin8 16 x.params 0 = some n → ranged 0 31 x.params 1 = some start → ranged 1 7 x.params 2 = some count →
    ∃ t : State, exec (.readLine p x) s = .next t ∧ stationKept s t ∧ recordsKept s t ∧
      (s.biu.queue.length < 16 → answered false .readLine x .done
        ([byte s.image.caps[n], flagByte (s.line n).overfull, byte (s.line n).roster.length,
          byte (s.line n).talkers.length] ++
          (((s.line n).roster.drop start).take count).flatMap (memberData (s.line n))) s t))

/-- READ_COUNTERS and SET_COUNTER (R190, R191): reading answers the values in counter order; setting answers the counter as
it was, and with option bit 0 the mask and the mode are the new ones, with bit 1 the value is 0. With no rule armed and a
place in the queue nothing is counted after it, and at a station that is no bridge its own acceptance is all that is counted
before. ARM_CAPTURE and READ_CAPTURE (R187): arming sets the rule's mode, key and requester and clears its hit count, hit
flag and held capture; arming OFF changes the mode alone; reading answers the rule and, with the clear option, clears its
hit count and flag. The task's own bulletin goes by the rules first (R188): one that it matches has that mark, and where it
was armed ONCE the capture it makes is that of the rule as the task leaves it (DESIGN CHOICE, log 25). The layout of a
rule's data rests on log 23 (DEDUCED). -/
def Obligations.CounterAndCaptureTasks : Prop :=
  (∀ (p : BusPort) (x : TaskRx) (first count : Nat) (s : State), tasked .readCounters p x s →
    ranged 0 7 x.params 0 = some first → ranged 1 8 x.params 1 = some count → first + count ≤ 8 →
    ∃ t : State, exec (.readCounters p x) s = .next t ∧ stationKept s t ∧ recordsKept s t ∧
      (s.biu.queue.length < 16 → noneArmed s →
        answered false .readCounters x .done
          (((t.mgmt.counters.toList.drop first).take count).flatMap fun c => bytes32 c.value.toNat) s t ∧
        (s.isBridge = false → t.mgmt.counters = s.mgmt.counters.map (taskCounted .readCounters x)))) ∧
  (∀ (p : BusPort) (x : TaskRx) (k : Fin 8) (options : Byte) (mask mode : Nat) (s : State), tasked .setCounter p x s →
    fin8 8 x.params 0 = some k → x.params[1]? = some options → u16 x.params 2 = some mask →
    ranged 0 1 x.params 4 = some mode → s.biu.queue.length < 16 → noneArmed s →
    ∃ t : State, exec (.setCounter p x) s = .next t ∧ stationKept s t ∧ recordsKept s t ∧
      (options.getLsbD 0 = true → t.mgmt.counters[k].mask = BitVec.ofNat 16 mask ∧
        t.mgmt.counters[k].bytes = decide (mode = 1)) ∧
      (options.getLsbD 0 = false → t.mgmt.counters[k].mask = s.mgmt.counters[k].mask ∧
        t.mgmt.counters[k].bytes = s.mgmt.counters[k].bytes) ∧
      (options.getLsbD 1 = true → t.mgmt.counters[k].value = 0) ∧
      (∀ j : Fin 8, j ≠ k → t.mgmt.counters[j].mask = s.mgmt.counters[j].mask ∧
        t.mgmt.counters[j].bytes = s.mgmt.counters[j].bytes) ∧
      (s.isBridge = false → ∀ j : Fin 8, j ≠ k →
        t.mgmt.counters[j] = taskCounted .setCounter x s.mgmt.counters[j]) ∧
      ∃ value : BitVec 32, answered false .setCounter x .done
        (byte k :: (bytes16 s.mgmt.counters[k].mask.toNat ++ [flagByte s.mgmt.counters[k].bytes] ++
          bytes32 value.toNat)) s t ∧
        (s.isBridge = false → value = (taskCounted .setCounter x s.mgmt.counters[k]).value) ∧
        (options.getLsbD 1 = false → t.mgmt.counters[k].value = value)) ∧
  (∀ (p : BusPort) (x : TaskRx) (k : Fin 4) (mode : CaptureMode) (r : CaptureRule) (s : State), tasked .armCapture p x s →
    fin8 4 x.params 0 = some k → (u8 x.params 9).bind CaptureMode.ofCode = some mode →
    readKeyParams x.params x.origin.toNat mode = some r →
    ∃ t : State, exec (.armCapture p x) s = .next t ∧ stationKept s t ∧ recordsKept s t ∧
      t.mgmt.rules[k].mode = mode ∧
      (mode ≠ .off → t.mgmt.rules[k].kindValue = r.kindValue ∧ t.mgmt.rules[k].kindMask = r.kindMask ∧
        t.mgmt.rules[k].originValue = r.originValue ∧ t.mgmt.rules[k].originMask = r.originMask ∧
        t.mgmt.rules[k].subjectValue = r.subjectValue ∧ t.mgmt.rules[k].subjectMask = r.subjectMask ∧
        t.mgmt.rules[k].requester = some x.origin.toNat ∧ t.mgmt.rules[k].hits = 0 ∧ t.mgmt.rules[k].hitFlag = false ∧
        (makesCapture .armCapture x s k = false → t.mgmt.rules[k].held = none) ∧
        (s.biu.queue.length < 16 → answered false .armCapture x .done r.data s t)) ∧
      (mode = .off →
        (s.mgmt.rules[k].hitBy ((TaskRx.rx .armCapture x).bulletin .task) = false →
          t.mgmt.rules[k] = { s.mgmt.rules[k] with mode := .off } ∧
          (s.biu.queue.length < 16 →
            answered false .armCapture x .done (CaptureRule.data { s.mgmt.rules[k] with mode := .off }) s t)) ∧
        (s.mgmt.rules[k].hitBy ((TaskRx.rx .armCapture x).bulletin .task) = true → ∃ h : Option HeldCapture,
          t.mgmt.rules[k] = { s.mgmt.rules[k] with
            mode := .off, hits := s.mgmt.rules[k].hits + 1, hitFlag := true, held := h } ∧
          (s.mgmt.rules[k].mode ≠ .once → h = s.mgmt.rules[k].held) ∧
          (s.mgmt.rules[k].mode = .once → h.isSome = true))) ∧
      (∀ j : Fin 4, j ≠ k → s.mgmt.rules[j].hitBy ((TaskRx.rx .armCapture x).bulletin .task) = false →
        t.mgmt.rules[j] = s.mgmt.rules[j])) ∧
  (∀ (p : BusPort) (x : TaskRx) (k : Fin 4) (clear : Bool) (s : State), tasked .readCapture p x s →
    fin8 4 x.params 0 = some k → flagAt x.params 1 = some clear →
    ∃ t : State, exec (.readCapture p x) s = .next t ∧ stationKept s t ∧ recordsKept s t ∧
      (clear = true → t.mgmt.rules[k].hits = 0 ∧ t.mgmt.rules[k].hitFlag = false) ∧
      (s.mgmt.rules[k].hitBy ((TaskRx.rx .readCapture x).bulletin .task) = false →
        (clear = false → t.mgmt.rules[k] = s.mgmt.rules[k]) ∧
        (clear = true → t.mgmt.rules[k] = { s.mgmt.rules[k] with hits := 0, hitFlag := false }) ∧
        (s.biu.queue.length < 16 → answered false .readCapture x .done s.mgmt.rules[k].data s t)))

/-- SET_CLASS, SET_SAMPLE and UNPIN_LINK (R184): the one field of the link changes and the reply is DONE; SET_SAMPLE is
answered BUSY while a relocation is under way, and a link with no descriptor is answered REFUSED. Unpinning a LOST link
that was pinned starts a loss relocation (R105), so it is said of the others that nothing else changes. -/
def Obligations.LinkSettingTasks : Prop :=
  (∀ (p : BusPort) (x : TaskRx) (l : Fin 8) (y : LinkRec) (c : Nat) (s : State), tasked .setClass p x s →
    fin8 8 x.params 0 = some l → s.link l = some y → ranged 0 3 x.params 1 = some c →
    ∃ t : State, exec (.setClass p x) s = .next t ∧ stationKept s t ∧ t.plan = s.plan ∧ t.tally = s.tally ∧
      talkKept s t ∧ radioKept s t ∧ t.lsup = { s.lsup with links := s.lsup.links.set l (some { y with cls := c }) } ∧
      (s.biu.queue.length < 16 → answered false .setClass x .done [] s t)) ∧
  (∀ (p : BusPort) (x : TaskRx) (l : Fin 8) (y : LinkRec) (n : Nat) (s : State), tasked .setSample p x s →
    fin8 8 x.params 0 = some l → s.link l = some y → u16 x.params 1 = some n → 50 ≤ n → n ≤ 1000 →
    ∃ t : State, exec (.setSample p x) s = .next t ∧ stationKept s t ∧ t.plan = s.plan ∧ t.tally = s.tally ∧
      talkKept s t ∧ radioKept s t ∧
      (y.reloc = none → t.lsup = { s.lsup with links := s.lsup.links.set l (some { y with sampleMs := n }) } ∧
        (s.biu.queue.length < 16 → answered false .setSample x .done [] s t)) ∧
      (y.reloc ≠ none → t.lsup = s.lsup ∧ (s.biu.queue.length < 16 → answered false .setSample x .busy [] s t))) ∧
  (∀ (p : BusPort) (x : TaskRx) (l : Fin 8) (y : LinkRec) (s : State), tasked .unpinLink p x s →
    fin8 8 x.params 0 = some l → s.link l = some y →
    ∃ t : State, exec (.unpinLink p x) s = .next t ∧ stationKept s t ∧ t.tally = s.tally ∧ talkKept s t ∧
      (∃ z : LinkRec, t.lsup.links[l] = some z ∧ z.pinned = false) ∧
      (y.pinned = false ∨ y.state ≠ .lost → t.plan = s.plan ∧ radioKept s t ∧
        t.lsup = { s.lsup with links := s.lsup.links.set l (some { y with pinned := false }) } ∧
        (s.biu.queue.length < 16 → answered false .unpinLink x .done [] s t))) ∧
  (∀ (c : TaskCode) (p : BusPort) (x : TaskRx) (l : Fin 8) (s : State), c = .setClass ∨ c = .setSample ∨ c = .unpinLink ∨
    c = .readLink → tasked c p x s → fin8 8 x.params 0 = some l → s.link l = none →
    ∃ t : State, exec (taskArrival c p x) s = .next t ∧ stationKept s t ∧ recordsKept s t ∧
      (s.biu.queue.length < 16 → answered false c x .refused [] s t))

/-- PIN_LINK and MOVE_LINK (R185): with the checks passed the link's relocation starts with cause TASK_PIN, which pins the
link and is then under way or has ended as the link's last outcome, or TASK_MOVE; a station whose replica is overfull leaves
it WAITING (R121) with the long-task slot taken for 10 s; a long task in hand is answered BUSY, a pin of another band or
width and a move of a link that is not UP REFUSED, and then no link changes. -/
def Obligations.LongTasksStartRelocations : Prop :=
  (∀ (p : BusPort) (x : TaskRx) (l : Fin 8) (y : LinkRec) (sp : Span) (s : State), tasked .pinLink p x s →
    spanAt x.params 1 = some sp → fin8 8 x.params 0 = some l → s.link l = some y →
    ((sp.band ≠ y.desc.band ∨ Span.width sp ≠ y.desc.width) →
      ∃ t : State, exec (.pinLink p x) s = .next t ∧ stationKept s t ∧ recordsKept s t ∧
        (s.biu.queue.length < 16 → answered false .pinLink x .refused [] s t)) ∧
    (sp.band = y.desc.band → Span.width sp = y.desc.width → s.mgmt.longTask.isSome = true ∨ y.reloc.isSome = true →
      ∃ t : State, exec (.pinLink p x) s = .next t ∧ stationKept s t ∧ recordsKept s t ∧
        (s.biu.queue.length < 16 → answered false .pinLink x .busy [] s t)) ∧
    (sp.band = y.desc.band → Span.width sp = y.desc.width → s.mgmt.longTask = none → y.reloc = none →
      ∃ t : State, exec (.pinLink p x) s = .next t ∧ stationKept s t ∧ t.tally = s.tally ∧ talkKept s t ∧
        (∃ z : LinkRec, t.lsup.links[l] = some z ∧ z.pinned = true ∧
          ((∃ r : Reloc, z.reloc = some r ∧ r.cause = .taskPin) ∨
            (z.reloc = none ∧ ∃ ending : Ending, z.lastOutcome = some (.taskPin, ending))) ∧
          (s.plan.overfull = true → z.reloc = some (waiting .taskPin y (some sp) true false))) ∧
        (s.plan.overfull = true → t.plan = s.plan ∧ radioKept s t ∧ t.mgmt.longTask = some
          { origin := x.origin.toNat, tag := x.tag.toNat, code := .pinLink, link := l, timer := s.now + 10000000 }))) ∧
  (∀ (p : BusPort) (x : TaskRx) (l : Fin 8) (y : LinkRec) (override : Bool) (s : State), tasked .moveLink p x s →
    fin8 8 x.params 0 = some l → flagAt x.params 1 = some override → s.link l = some y →
    (s.mgmt.longTask.isSome = true ∨ y.reloc.isSome = true →
      ∃ t : State, exec (.moveLink p x) s = .next t ∧ stationKept s t ∧ recordsKept s t ∧
        (s.biu.queue.length < 16 → answered false .moveLink x .busy [] s t)) ∧
    (s.mgmt.longTask = none → y.reloc = none →
      (y.state ≠ .up ∨ y.pinned = true ∨ (s.tally.onAir[l] = true ∧ override = false)) →
      ∃ t : State, exec (.moveLink p x) s = .next t ∧ stationKept s t ∧ recordsKept s t ∧
        (s.biu.queue.length < 16 → answered false .moveLink x .refused [] s t)) ∧
    (s.mgmt.longTask = none → y.reloc = none → y.state = .up → y.pinned = false →
      (s.tally.onAir[l] = false ∨ override = true) → s.plan.overfull = true →
      ∃ t : State, exec (.moveLink p x) s = .next t ∧ stationKept s t ∧ t.tally = s.tally ∧ talkKept s t ∧
        t.plan = s.plan ∧ radioKept s t ∧
        (∃ z : LinkRec, t.lsup.links[l] = some z ∧ z.reloc = some (waiting .taskMove y none true override)) ∧
        t.mgmt.longTask = some
          { origin := x.origin.toNat, tag := x.tag.toNat, code := .moveLink, link := l, timer := s.now + 10000000 }))

/-- A relocation that finds a span claims it (R58, R63, R65, R119, R122): a MOVE_LINK that passes its checks (R181, R185)
and whose search answers a span leaves the
link CLAIMING it, with a TENTATIVE own entry in the lowest empty slot at the link's effective class and the claim in the
queue, URGENT, where the queue had room. -/
def Obligations.SearchAnswerIsClaimed : Prop :=
  ∀ (p : BusPort) (x : TaskRx) (l : Fin 8) (y : LinkRec) (override : Bool) (sp : Span) (i : Fin 16) (s : State), s.Inv →
    tasked .moveLink p x s → fin8 8 x.params 0 = some l → flagAt x.params 1 = some override → s.link l = some y →
    s.mgmt.longTask = none → y.reloc = none → y.state = .up → y.pinned = false →
    (s.tally.onAir[l] = false ∨ override = true) → s.searchStart y.desc y.pointer [] = .span sp →
    (∀ (j : Fin 16) (o : OwnEntry), s.ownEntry j = some o → o.link = l → o.standing = .held) →
    (s.owns.filter fun o => o.link == l).length ≤ 1 → s.emptyOwn = some i → s.biu.queue.length < 16 →
    ∃ t : State, exec (.moveLink p x) s = .next t ∧ stationKept s t ∧
      (∃ e : OwnEntry, t.plan.own[i] = some e ∧ e.span = sp ∧ e.link = l ∧ e.cls = s.effectiveClass l ∧
        e.standing = .tentative ∧ e.hold = s.image.hold ∧ e.sent = false) ∧
      (∃ z : LinkRec, t.lsup.links[l] = some z ∧ ∃ r : Reloc, z.reloc = some r ∧ r.phase = .claiming ∧
        r.cand = some sp ∧ r.cause = .taskMove ∧ r.old = y.current) ∧
      (∃ q ∈ t.biu.queue, q.urgent = true ∧ q.bulletin.kind = 0x10 ∧
        q.bulletin.body = Span.bytes sp ++ [byte l, byte (s.effectiveClass l), byte s.image.hold]) ∧
      t.plan.peers = s.plan.peers ∧ t.tally = s.tally ∧ talkKept s t ∧ t.rport.fe = s.rport.fe

/-- SET_MEMBERSHIP (R158, R160, R186) on a port that exists: a new membership within the limits joins the port's record and
its line's roster, a line left leaves both, and a port that is not there or a fifth membership is REFUSED with nothing
changed. -/
def Obligations.MembershipTasks : Prop :=
  (∀ (p : BusPort) (x : TaskRx) (q : Fin 12) (n : Fin 16) (flags : Byte) (r : TbPort) (s : State),
    tasked .setMembership p x s → fin8 12 x.params 0 = some q → fin8 16 x.params 1 = some n →
    x.params[2]? = some flags → s.tbPort q = some r →
    ((flags.getLsbD 0 = true ∨ flags.getLsbD 1 = true) → flags.getLsbD 2 = false → r.member n = none →
      r.members.length < 4 → (r.members ≠ [] ∨ s.membershipPorts < 8) → (s.line n).roster.length < 32 →
      ∃ t : State, exec (.setMembership p x) s = .next t ∧ stationKept s t ∧ t.plan = s.plan ∧ t.tally = s.tally ∧
        radioKept s t ∧
        (∃ r' : TbPort, t.tbk.ports[q] = some r' ∧ r'.members =
          insertMember { line := n, listen := flags.getLsbD 0, talk := flags.getLsbD 1 } r.members) ∧
        { station := s.station, port := q.val, listen := flags.getLsbD 0, talk := flags.getLsbD 1 } ∈
          t.tbk.lines[n].roster ∧
        (∀ k : Fin 16, k ≠ n → t.tbk.lines[k] = s.tbk.lines[k])) ∧
    ((flags.getLsbD 2 = true ∨ (flags.getLsbD 0 = false ∧ flags.getLsbD 1 = false)) →
      ∃ t : State, exec (.setMembership p x) s = .next t ∧ stationKept s t ∧ t.plan = s.plan ∧ t.tally = s.tally ∧
        radioKept s t ∧
        (∃ r' : TbPort, t.tbk.ports[q] = some r' ∧ ∀ m ∈ r'.members, m.line ≠ n) ∧
        ((r.member n).isSome = true → ∀ m ∈ t.tbk.lines[n].roster, ¬(m.station = s.station ∧ m.port = q.val)) ∧
        (∀ k : Fin 16, k ≠ n → t.tbk.lines[k] = s.tbk.lines[k])) ∧
    ((flags.getLsbD 0 = true ∨ flags.getLsbD 1 = true) → flags.getLsbD 2 = false → r.member n = none →
      4 ≤ r.members.length →
      ∃ t : State, exec (.setMembership p x) s = .next t ∧ stationKept s t ∧ recordsKept s t ∧
        (s.biu.queue.length < 16 → answered false .setMembership x .refused [] s t))) ∧
  (∀ (p : BusPort) (x : TaskRx) (q : Fin 12) (n : Fin 16) (flags : Byte) (s : State),
    tasked .setMembership p x s → fin8 12 x.params 0 = some q → fin8 16 x.params 1 = some n →
    x.params[2]? = some flags → s.tbPort q = none →
    ∃ t : State, exec (.setMembership p x) s = .next t ∧ stationKept s t ∧ recordsKept s t ∧
      (s.biu.queue.length < 16 → answered false .setMembership x .refused [] s t))


/-! ## Tests and searches -/

/-- R55: a candidate overlaps a quarantine entry exactly when both are in one band and each begins no later than the other
ends; sharing one channel is enough, and no guard is added. -/
def Obligations.OverlapIsOneSharedChannel : Prop :=
  ∀ entry candidate : Span, (overlaps entry candidate = true ↔
      entry.band = candidate.band ∧ candidate.low ≤ entry.high ∧ entry.low ≤ candidate.high) ∧
    (entry.low ≤ entry.high → candidate.low ≤ candidate.high → (overlaps entry candidate = true ↔
      entry.band = candidate.band ∧
        ∃ n, entry.low ≤ n ∧ n ≤ entry.high ∧ candidate.low ≤ n ∧ n ≤ candidate.high))

/-- R147: a rule has a match of a kind in a layer of a state exactly when some input of its range, in a layer of that state
whose number matches its layer key, is in the kind's state, the state being one that the rule matches; OFF is matched by no
rule, and nothing in an UNSET layer is. -/
def Obligations.MapRulesMatchByLayerInputAndState : Prop :=
  ∀ (t : Tally) (r : MapRule),
    (∀ (st : InputState) (ls : LayerState), t.matchIn r st ls = true ↔
      ls ≠ .unset ∧ ((st = .preview ∧ r.onPreview = true) ∨ (st = .program ∧ r.onProgram = true)) ∧
        ∃ (k : Fin 8) (i : Fin 64), t.layers[k].state = ls ∧ keyMatches r k = true ∧ r.inputLow ≤ i.val + 1 ∧
          i.val + 1 ≤ r.inputHigh ∧ t.layers[k].inputs[i] = st) ∧
    (∀ st : InputState, t.matches r st = true ↔ t.matchIn r st .live = true ∨ t.matchIn r st .stale = true) ∧
    (r.onPreview = false → r.onProgram = false → ∀ st : InputState, t.matches r st = false)

/-- The hard conflict test is symmetric and keeps the guard's channels clear (R48), and the ranking is decided by class,
then standing, then holder, then link, so that of two different ranks exactly one outranks the other (R50). -/
def Obligations.ConflictsAndRanksAreDecided : Prop :=
  (∀ (g : Nat) (x y : Span), conflictsHard g x y = conflictsHard g y x) ∧
  (∀ (g : Nat) (x y : Span), x.low ≤ x.high → y.low ≤ y.high → (conflictsHard g x y = false ↔
    x.band = y.band → x.high + g < y.low ∨ y.high + g < x.low)) ∧
  (∀ x y : Rank, x.outranks y = true ↔ y.cls < x.cls ∨ (x.cls = y.cls ∧ ((x.held = true ∧ y.held = false) ∨
    (x.held = y.held ∧ (x.holder < y.holder ∨ (x.holder = y.holder ∧ x.link < y.link)))))) ∧
  (∀ x y : Rank, x ≠ y → (x.outranks y = true ↔ y.outranks x = false)) ∧
  (∀ x y z : Rank, x.outranks y = true → y.outranks z = true → x.outranks z = true)

/-- Candidate search (R56, R57, R58, R59): the answer is FULL exactly while the replica is overfull; a span it answers lies
in the window at the link's width, conflicts hard with no entry of the table, own or peer, overlaps no quarantine entry and
is not excluded, and it is the first such span of the pointer's run, or where that has none of the window's run below the
pointer; NONE says that no candidate on the pointer's alignment at or above it is acceptable, nor one on the
window's alignment below it. -/
def Obligations.SearchAnswersAnAcceptableSpan : Prop :=
  ∀ (d : LinkDesc) (pointer : Nat) (excluded : List Span) (s : State), 1 ≤ d.width → 1 ≤ d.step →
    d.winLow ≤ pointer → pointer + d.width ≤ d.winHigh + 1 →
    (s.searchStart d pointer excluded = .full ↔ s.plan.overfull = true) ∧
    (∀ sp : Span, s.searchStart d pointer excluded = .span sp →
      sp.band = d.band ∧ d.winLow ≤ sp.low ∧ sp.high ≤ d.winHigh ∧ sp.high + 1 = sp.low + d.width ∧
      (∀ (i : Fin 16) (e : OwnEntry), s.ownEntry i = some e → s.conflicts e.span sp = false) ∧
      (∀ (j : Fin 96) (e : PeerEntry), s.plan.peers[j] = some e → s.conflicts e.span sp = false) ∧
      (∀ q ∈ s.plan.quarantine, overlaps q.span sp = false) ∧ sp ∉ excluded ∧ s.intermodConflict sp = false ∧
      ((∃ k : Nat, sp = candidateAt d (pointer + k * d.step) ∧
          ∀ j < k, s.acceptable excluded (candidateAt d (pointer + j * d.step)) = false) ∨
        ((∀ k : Nat, pointer + k * d.step + d.width ≤ d.winHigh + 1 →
            s.acceptable excluded (candidateAt d (pointer + k * d.step)) = false) ∧
          ∃ k : Nat, d.winLow + k * d.step < pointer ∧ sp = candidateAt d (d.winLow + k * d.step) ∧
            ∀ j < k, s.acceptable excluded (candidateAt d (d.winLow + j * d.step)) = false))) ∧
    (s.plan.overfull = false →
      (∃ k : Nat, pointer + k * d.step + d.width ≤ d.winHigh + 1 ∧
        s.acceptable excluded (candidateAt d (pointer + k * d.step)) = true) ∨
      (∃ k : Nat, d.winLow + k * d.step < pointer ∧ d.winLow + k * d.step + d.width ≤ d.winHigh + 1 ∧
        s.acceptable excluded (candidateAt d (d.winLow + k * d.step)) = true) →
      ∃ sp : Span, s.searchStart d pointer excluded = .span sp) ∧
    s.searchStart d pointer excluded ≠ .current

/-! ## What a timer takes away -/

/-- What lives for a time and then goes, with nothing sent: a learned origin (ORIGIN_AGE_EXPIRY, R13), a quarantine entry
(QUARANTINE_EXPIRY, R54), a copy filter entry (COPY_FILTER_EXPIRY, R110), a follow list entry (FOLLOW_ENTRY_EXPIRY, R165), a
circuit's usage (CIRCUIT_EXPIRY, R167), a recent task (RECENT_TASK_EXPIRY, R179) and the refusal indication
(INDICATION_TIMER_EXPIRY, R174). An expiry of what does not run has no effect (log 9). -/
def Obligations.EntriesGoAtTheirExpiry : Prop :=
  (∀ (n : Fin 127) (o : Origin) (s : State), s.biu.origins[n] = some o → exec (.originAgeExpiry n) s = .next
    { s with now := max s.now o.expiry, biu := { s.biu with origins := s.biu.origins.set n none } }.finish) ∧
  (∀ (sp : Span) (q : QuarantineEntry) (s : State), s.plan.quarantine.find? (fun q => q.span == sp) = some q →
    exec (.quarantineExpiry sp) s = .next { s with
      now := max s.now q.expiry,
      plan := { s.plan with quarantine := s.plan.quarantine.filter fun q => q.span != sp } }.finish) ∧
  (∀ (origin : Nat) (sp : Span) (severity : Nat) (c : CopyEntry) (s : State), s.copyEntry origin sp severity = some c →
    exec (.copyFilterExpiry origin sp severity) s = .next { s with
      now := max s.now c.expiry,
      lsup := { s.lsup with filters := s.lsup.filters.set sp.band.index (s.lsup.filters[sp.band.index].filter fun c =>
        !(c.origin == origin && c.span == sp && c.severity == severity)) } }.finish) ∧
  (∀ (origin port : Nat) (f : FollowEntry) (s : State),
    s.tbk.follows.find? (fun f => f.origin == origin && f.port == port) = some f →
    exec (.followEntryExpiry origin port) s = .next { s with
      now := max s.now f.expiry,
      tbk := { s.tbk with follows := s.tbk.follows.filter fun f => !(f.origin == origin && f.port == port) } }.finish) ∧
  (∀ (c : Fin 15) (u : CircuitUse) (s : State), s.tbk.circuits[c] = some u → exec (.circuitExpiry c) s = .next
    { s with now := max s.now u.expiry, tbk := { s.tbk with circuits := s.tbk.circuits.set c none } }.finish) ∧
  (∀ (origin tag code : Nat) (r : RecentTask) (s : State),
    s.mgmt.recent.find? (fun r => r.origin == origin && r.tag == tag && r.code == code) = some r →
    exec (.recentTaskExpiry origin tag code) s = .next { s with
      now := max s.now r.expiry,
      mgmt := { s.mgmt with
        recent := s.mgmt.recent.filter fun r => !(r.origin == origin && r.tag == tag && r.code == code) } }.finish) ∧
  (∀ (q : Fin 12) (r : TbPort) (d : Nat) (s : State), s.tbPort q = some r → r.indication = some d →
    exec (.indicationTimerExpiry q) s = .next { s with
      now := max s.now d, tbk := { s.tbk with ports := s.tbk.ports.set q (some { r with indication := none }) } }.finish) ∧
  (∀ (n : Fin 127) (c : Fin 15) (sp : Span) (s : State), s.biu.origins[n] = none → s.tbk.circuits[c] = none →
    s.plan.quarantine.find? (fun q => q.span == sp) = none →
    exec (.originAgeExpiry n) s = .next s.finish ∧ exec (.circuitExpiry c) s = .next s.finish ∧
      exec (.quarantineExpiry sp) s = .next s.finish)

/-- PRESENCE_TIMER_EXPIRY (R17): the timer runs again for 1000 ms and the PRESENCE, its membership records in port order
(DESIGN CHOICE, log 39), waits in the queue where it had room. ROSTER_EXPIRY (R19): the station leaves the roster, its ports
leave every line and its calls end. PEER_ENTRY_EXPIRY (R43): the entry is removed, its slot becomes empty, and the roster is
as it was. OVERFULL_TIMER_EXPIRY (R47, R121): the condition clears and no relocation waits for it any more. -/
def Obligations.RosterAndReplicaTimers : Prop :=
  (∀ (d : Nat) (s : State), s.phase = .active → s.biu.presenceTimer = some d →
    ∃ t : State, exec .presenceTimerExpiry s = .next t ∧ stationKept s t ∧ t.now = max s.now d ∧ recordsKept s t ∧
      t.biu.presenceTimer = some (max s.now d + 1000000) ∧
      (s.biu.queue.length < 16 → waits false .presence s.presenceBody s t)) ∧
  (∀ (n : Fin 127) (e : RosterEntry) (s : State), s.biu.roster[n] = some e →
    ∃ t : State, exec (.rosterExpiry n) s = .next t ∧ stationKept s t ∧ t.now = max s.now e.expiry ∧
      t.biu.roster = s.biu.roster.set n none ∧
      (∀ k : Fin 16, ∀ m ∈ t.tbk.lines[k].roster, m.station ≠ n.val) ∧
      (∀ (k : Fin 4) (c : CallRec), s.call k = some c → c.peer.1 = n.val → t.tbk.calls[k] = none) ∧
      (∀ (k : Fin 4), (s.call k).all (fun c => c.peer.1 != n.val) = true → t.tbk.calls[k] = s.tbk.calls[k]) ∧
      t.tbk.circuits = s.tbk.circuits ∧ t.tbk.follows = s.tbk.follows ∧ t.plan = s.plan ∧ t.tally = s.tally ∧
      radioKept s t) ∧
  (∀ (j : Fin 96) (e : PeerEntry) (s : State), s.plan.peers[j] = some e →
    ∃ t : State, exec (.peerEntryExpiry j) s = .next t ∧ stationKept s t ∧ t.now = max s.now e.expiry ∧
      t.plan.peers = s.plan.peers.set j none ∧ t.plan.quarantine = s.plan.quarantine ∧
      t.plan.overfull = s.plan.overfull ∧ t.plan.overfullTimer = s.plan.overfullTimer ∧ t.biu.roster = s.biu.roster ∧
      t.tally = s.tally ∧ talkKept s t) ∧
  (∀ (d : Nat) (s : State), s.plan.overfullTimer = some d →
    ∃ t : State, exec .overfullTimerExpiry s = .next t ∧ stationKept s t ∧ t.now = max s.now d ∧
      t.plan.overfull = false ∧ t.plan.overfullTimer = none ∧ t.plan.peers = s.plan.peers ∧
      t.plan.quarantine = s.plan.quarantine ∧
      (∀ (l : Fin 8) (r : Reloc), t.reloc l = some r → r.phase ≠ .waiting) ∧
      (∀ l : Fin 8, (s.reloc l).all (fun r => r.phase != .waiting) = true → t.reloc l = s.reloc l) ∧
      t.biu.roster = s.biu.roster ∧ t.tally = s.tally ∧ talkKept s t)

/-! ## The timers of own entries -/

/-- The timers of a claim. CLAIM_RETRY_WAIT_EXPIRY (R67): the claim is offered again, and one that the queue refuses a
second time goes. CLAIM_REFRESH_EXPIRY (R74): the claim is offered, NORMAL, with the entry's fixed class, and the timer
reloads. CLAIM_WINDOW_EXPIRY with a pending yield (R72): the yield allowance of 2000 ms begins. -/
def Obligations.ClaimTimers : Prop :=
  (∀ (i : Fin 16) (e : OwnEntry) (d : Nat) (s : State), s.phase = .active → s.ownEntry i = some e →
    e.standing = .tentative → e.sent = false → e.window = some d →
    (s.biu.queue.length < 16 →
      ∃ t : State, exec (.claimRetryWaitExpiry i) s = .next t ∧ stationKept s t ∧ t.now = max s.now d ∧
        t.plan = { s.plan with own := s.plan.own.set i (some { e with window := none }) } ∧ t.lsup = s.lsup ∧
        t.tally = s.tally ∧ talkKept s t ∧ radioKept s t ∧ waits true .planClaim (planBody e e.cls) s t) ∧
    (s.biu.queue.length = 16 → e.failures ≠ 0 →
      (∀ q ∈ s.biu.queue, q.urgent = true ∧ q.key ≠ some (.plan .planClaim e.link e.span)) →
      ∃ t : State, exec (.claimRetryWaitExpiry i) s = .next t ∧ t.plan.own[i] = none)) ∧
  (∀ (i : Fin 16) (e : OwnEntry) (d : Nat) (s : State), s.phase = .active → s.ownEntry i = some e →
    e.standing = .tentative → e.refresh = some d →
    ∃ t : State, exec (.claimRefreshExpiry i) s = .next t ∧ stationKept s t ∧ t.now = max s.now d ∧
      t.plan = { s.plan with
        own := s.plan.own.set i (some { e with refresh := some (max s.now d + e.hold * 100000) }) } ∧
      t.lsup = s.lsup ∧ t.tally = s.tally ∧
      talkKept s t ∧ radioKept s t ∧
      (s.biu.queue.length < 16 → waits false .planClaim (planBody e e.cls) s t)) ∧
  (∀ (i : Fin 16) (e : OwnEntry) (d : Nat) (s : State), s.ownEntry i = some e → e.standing = .tentative →
    e.sent = true → e.window = some d → e.pendingYield ≠ [] →
    exec (.claimWindowExpiry i) s = .next { s with
      now := max s.now d,
      plan := { s.plan with
        own := s.plan.own.set i (some { e with window := none, allowance := some (max s.now d + 2000000) }) } }.finish)

/-- CLAIM_WINDOW_EXPIRY with no pending yield (R72), and TENTATIVE_ALLOWANCE_EXPIRY, which first takes the conflicting
entries of the pending pairs out of the replica (R73): the claim is HELD, and the relocation that made it goes on to TUNING
(R122) and its front-end is tuned (R86, R123), being MUTED or TUNED with no tune in flight. Where a restore tune is in
flight at the end of the window, it is muted first, which takes the front-end off the span of a YIELDING entry of the link:
that entry is yielded (R80, R81), and the current span becomes absent if it was that one (DEDUCED, log 38). -/
def Obligations.HeldClaimIsTuned : Prop :=
  (∀ (i : Fin 16) (e : OwnEntry) (d : Nat) (x : LinkRec) (r : Reloc) (s : State), s.phase = .active →
    s.ownEntry i = some e → e.standing = .tentative → s.link e.link = some x → x.reloc = some r →
    r.phase = .claiming → r.cand = some e.span → x.tuneInFlight = false →
    (s.rport.fe[x.desc.frontEnd].state = .muted ∨ ∃ sp, s.rport.fe[x.desc.frontEnd].state = .tuned sp) →
    (e.sent = true → e.window = some d → e.pendingYield = [] →
      ∃ t : State, exec (.claimWindowExpiry i) s = .next t ∧ heldAndTuned i e x r d s t ∧
        t.plan.peers = s.plan.peers) ∧
    (e.allowance = some d →
      ∃ t : State, exec (.tentativeAllowanceExpiry i) s = .next t ∧ heldAndTuned i e x r d s t ∧
        ∀ j : Fin 96, t.plan.peers[j] = match s.plan.peers[j] with
          | some p => if (p.holder, p.link) ∈ e.pendingYield ∧ s.conflicts p.span e.span = true then none else some p
          | none => none)) ∧
  ∀ (i j : Fin 16) (e o : OwnEntry) (d : Nat) (x : LinkRec) (r : Reloc) (s : State), s.phase = .active →
    s.ownEntry i = some e → e.standing = .tentative → s.link e.link = some x → x.reloc = some r →
    r.phase = .claiming → r.cand = some e.span → x.tuneInFlight = true → yieldingAt j o e.link s →
    (∃ sp, s.rport.fe[x.desc.frontEnd].state = .tuning sp) → e.sent = true → e.window = some d → e.pendingYield = [] →
    ∃ t : State, exec (.claimWindowExpiry i) s = .next t ∧ stationKept s t ∧ t.now = max s.now d ∧
      (∃ e' : OwnEntry, t.plan.own[i] = some e' ∧ e'.standing = .held ∧ e'.span = e.span ∧ e'.link = e.link) ∧
      t.plan.own[j] = none ∧ (∀ k : Fin 16, k ≠ i → k ≠ j → t.plan.own[k] = s.plan.own[k]) ∧
      t.plan.peers = s.plan.peers ∧
      (∃ z : LinkRec, t.lsup.links[e.link] = some z ∧ z.tuneInFlight = true ∧ z.state = x.state ∧
        z.current = currentLess x o.span ∧ z.reloc = some { r with phase := .tuning }) ∧
      t.rport.fe[x.desc.frontEnd].state = .tuning e.span ∧
      (s.biu.queue.length < 15 → waits true .planYield (Span.bytes o.span ++ [byte o.link]) s t) ∧
      t.tally = s.tally ∧ talkKept s t

/-- The timers of a HELD or YIELDING entry. HOLD_REFRESH_EXPIRY (R77) and an owed defence at DEFEND_HOLD_OFF_EXPIRY (R76): a
hold is queued with the link's effective class, which the entry's class field takes, and the timer runs again; with no
defence owed the hold-off is over. YIELDING_ALLOWANCE_EXPIRY with no relocation (R80, R130, R132): the front-end is muted,
the entry is yielded and the link has no current span left if that was it; a link that was UP is LOST. MODEL'S CHOICE (log
35): where the pin is gone by then, a link that was UP starts a loss relocation at that event, which waits where the plan is
overfull. -/
def Obligations.HeldEntryTimers : Prop :=
  (∀ (i : Fin 16) (e : OwnEntry) (d : Nat) (s : State), s.phase = .active → s.ownEntry i = some e →
    e.standing = .held → e.refresh = some d → s.biu.queue.length < 16 →
    ∃ t : State, exec (.holdRefreshExpiry i) s = .next t ∧ stationKept s t ∧ t.now = max s.now d ∧
      t.plan = { s.plan with own := s.plan.own.set i (some { e with
        cls := s.effectiveClass e.link, refresh := some (max s.now d + e.hold * 100000) }) } ∧
      waits false .planHold (planBody e (s.effectiveClass e.link)) s t ∧ t.lsup = s.lsup ∧ t.tally = s.tally ∧
      talkKept s t ∧ radioKept s t) ∧
  (∀ (i : Fin 16) (e : OwnEntry) (d : Nat) (s : State), s.phase = .active → s.ownEntry i = some e →
    e.standing = .held → e.defend = some d → e.owed = true → s.biu.queue.length < 16 →
    ∃ t : State, exec (.defendHoldOffExpiry i) s = .next t ∧ stationKept s t ∧ t.now = max s.now d ∧
      t.plan = { s.plan with own := s.plan.own.set i (some { e with
        cls := s.effectiveClass e.link, owed := false, defend := some (max s.now d + 100000) }) } ∧
      waits true .planHold (planBody e (s.effectiveClass e.link)) s t ∧ t.lsup = s.lsup ∧ t.tally = s.tally ∧
      talkKept s t ∧ radioKept s t) ∧
  (∀ (i : Fin 16) (e : OwnEntry) (d : Nat) (s : State), s.ownEntry i = some e → e.defend = some d → e.owed = false →
    exec (.defendHoldOffExpiry i) s = .next { s with
      now := max s.now d,
      plan := { s.plan with own := s.plan.own.set i (some { e with defend := none, owed := false }) } }.finish) ∧
  (∀ (i : Fin 16) (e : OwnEntry) (d : Nat) (x : LinkRec) (s : State), s.Inv → s.ownEntry i = some e →
    e.span.low ≤ e.span.high → e.standing = .yielding → e.allowance = some d → s.link e.link = some x →
    x.reloc = none → (x.state = .up → x.current = some e.span → x.pinned = true) →
    ∃ t : State, exec (.yieldingAllowanceExpiry i) s = .next t ∧ stationKept s t ∧ t.now = max s.now d ∧
      t.plan = { s.plan with own := s.plan.own.set i none } ∧
      (t.rport.fe[x.desc.frontEnd].state = .muted ∨ t.rport.fe[x.desc.frontEnd].state = .fault) ∧
      (∃ z : LinkRec, t.lsup.links[e.link] = some z ∧ z.tuneInFlight = false ∧ z.reloc = none ∧
        (x.current = some e.span → z.current = none ∧ z.state = if x.state = .up then .lost else x.state) ∧
        (x.current ≠ some e.span → z.current = x.current ∧ z.state = x.state)) ∧
      (s.biu.queue.length < 16 → waits true .planYield (Span.bytes e.span ++ [byte e.link]) s t) ∧
      t.tally = s.tally ∧ talkKept s t) ∧
  (∀ (i : Fin 16) (e : OwnEntry) (d : Nat) (x : LinkRec) (s : State), s.Inv → s.ownEntry i = some e →
    e.span.low ≤ e.span.high → e.standing = .yielding → e.allowance = some d → s.link e.link = some x →
    x.reloc = none → x.state = .up → x.current = some e.span → x.pinned = false → s.phase = .active →
    s.plan.overfull = true →
    ∃ t : State, exec (.yieldingAllowanceExpiry i) s = .next t ∧ stationKept s t ∧ t.now = max s.now d ∧
      t.plan = { s.plan with own := s.plan.own.set i none } ∧
      (t.rport.fe[x.desc.frontEnd].state = .muted ∨ t.rport.fe[x.desc.frontEnd].state = .fault) ∧
      (∃ z : LinkRec, t.lsup.links[e.link] = some z ∧ z.tuneInFlight = false ∧ z.current = none ∧ z.state = .lost ∧
        z.reloc = some (waiting .lost { x with current := none } none false false)) ∧
      (s.biu.queue.length < 16 → waits true .planYield (Span.bytes e.span ++ [byte e.link]) s t) ∧
      t.tally = s.tally ∧ talkKept s t)

/-! ## The radio port -/

/-- A record's tune is the one with this number, and its frame has been sent or not. -/
def Sys2Proof.Says.awaits (r : FrontEnd) (sent : Bool) (number : Nat) : Prop :=
  (∃ sp, r.state = .tuning sp) ∧ r.sent = sent ∧ r.tuneNo = number

/-- A front-end that comes out of FAULT goes back to a span (R116, R133): the current span of its link, which is UP or LOST,
holds it HELD, and has no relocation under way but one in WAITING or CLAIMING. -/
def Sys2Proof.Says.restores (l : Fin 8) (x : LinkRec) (sp : Span) (s : State) : Prop :=
  s.link l = some x ∧ (x.state = .up ∨ x.state = .lost) ∧ x.current = some sp ∧ s.ownStanding l sp = some .held ∧
    ∀ r : Reloc, x.reloc = some r → r.phase = .waiting ∨ r.phase = .claiming

/-- COMMAND_FRAME_SENT (R85, R87): on a free line, where no frame can end, it has no effect (DESIGN CHOICE, log 9); the line
is free, and the TUNE of the record's own number starts the tune timer of 1500 ms. TUNE_OUTCOME (R88): one not awaited has
no effect; the awaited one makes the record TUNED to its span or MUTED. TUNE_TIMER_EXPIRY (R89): the record is MUTED and a
MUTE waits; a stopped timer's has no effect (DEDUCED, log 2). A tune lost in TUNING (R125) sends the front-end back to the
old span, in RETURNING with reason TUNE_FAILED, where the old entry is still HELD; with no such entry, and in RETURNING
(R126, whatever the old entry's standing: DEDUCED, log 15), the relocation fails with TUNE_FAILED, the front-end muted, both
entries yielded, the link ACQUIRING (R127, R128). TUNED_OK in RETURNING (R126) makes the link UP on its old span and ends
the relocation failed with the return reason, the candidate yielded, the hold-off running. A lost restore tune has muted the
front-end off the span of a YIELDING entry of the link, which is yielded, and the current span becomes absent if it was that
one (R80, R81, R116; the span DEDUCED, log 38). REPORT (R92, R94, R95): the report fills the mailbox, fresh, a fresh one
under it an overwrite; FAULT makes the record FAULT; before the start of LOADING, in a part held in reset, a report has no
effect (R92, log 9). Status OK in FAULT (R94) makes the record MUTED, and a restore tune (R116, R133) sends the front-end to
the current span of its link where that is HELD, the link is UP or LOST and no relocation is under way but one in WAITING or
CLAIMING; else it stays muted and nothing goes to it. -/
def Obligations.RadioLineAndTunes : Prop :=
  (∀ s : State, s.rport.sending = none → exec .commandFrameSent s = .next s.finish) ∧
  (∀ (c : RadioCmd) (s : State), s.rport.sending = some c →
    (∀ (sp : Span) (n : Nat), c.kind = .tune sp n → ¬awaits s.rport.fe[c.addr] false n) →
    exec .commandFrameSent s = .next { s with rport := { s.rport with sending := none } }.finish) ∧
  (∀ (a : Fin 8) (sp : Span) (n : Nat) (s : State), s.rport.sending = some { addr := a, kind := .tune sp n } →
    awaits s.rport.fe[a] false n → exec .commandFrameSent s = .next { s with rport := { s.rport with
      sending := none,
      fe := s.rport.fe.set a { s.rport.fe[a] with sent := true, tuneTimer := some (s.now + 1500000) } } }.finish) ∧
  (∀ (a : Fin 8) (number : Byte) (ok : Bool) (s : State), ¬awaits s.rport.fe[a] true number.toNat →
    exec (.tuneOutcome a number ok) s = .next s.finish) ∧
  (∀ (a : Fin 8) (number : Byte) (sp : Span) (ok : Bool) (s : State), awaits s.rport.fe[a] true number.toNat →
    s.rport.fe[a].state = .tuning sp →
    (∀ (l : Fin 8) (r : Reloc), s.linkOf a = some l → s.reloc l = some r → r.phase = .waiting ∨ r.phase = .claiming) →
    (ok = false → ∀ (l : Fin 8) (i : Fin 16) (e : OwnEntry), s.linkOf a = some l → s.ownEntry i = some e → e.link = l →
      e.standing ≠ .yielding) →
    ∃ t : State, exec (.tuneOutcome a number ok) s = .next t ∧ stationKept s t ∧ t.now = s.now ∧
      t.rport.fe = s.rport.fe.set a { s.rport.fe[a] with
        state := if ok then .tuned sp else .muted, sent := false, tuneTimer := none } ∧
      commands t.rport = commands s.rport ∧
      (∀ (l : Fin 8) (x : LinkRec), s.linkOf a = some l → s.link l = some x →
        t.lsup = { s.lsup with links := s.lsup.links.set l (some { x with tuneInFlight := false }) }) ∧
      (s.linkOf a = none → t.lsup = s.lsup) ∧ t.plan = s.plan ∧ t.tally = s.tally ∧ talkKept s t) ∧
  (∀ (a : Fin 8) (s : State), s.rport.fe[a].tuneTimer = none → exec (.tuneTimerExpiry a) s = .next s.finish) ∧
  (∀ (a : Fin 8) (d : Nat) (s : State), s.rport.fe[a].tuneTimer = some d → (∃ sp, s.rport.fe[a].state = .tuning sp) →
    (∀ (l : Fin 8) (r : Reloc), s.linkOf a = some l → s.reloc l = some r → r.phase = .waiting ∨ r.phase = .claiming) →
    (∀ (l : Fin 8) (i : Fin 16) (e : OwnEntry), s.linkOf a = some l → s.ownEntry i = some e → e.link = l →
      e.standing ≠ .yielding) →
    ∃ t : State, exec (.tuneTimerExpiry a) s = .next t ∧ stationKept s t ∧ t.now = max s.now d ∧
      t.rport.fe = s.rport.fe.set a { s.rport.fe[a] with state := .muted, sent := false, tuneTimer := none } ∧
      { addr := a, kind := .mute } ∈ commands t.rport ∧
      (∀ (l : Fin 8) (x : LinkRec), s.linkOf a = some l → s.link l = some x →
        t.lsup = { s.lsup with links := s.lsup.links.set l (some { x with tuneInFlight := false }) }) ∧
      (s.linkOf a = none → t.lsup = s.lsup) ∧ t.plan = s.plan ∧ t.tally = s.tally ∧ talkKept s t) ∧
  (∀ (a l : Fin 8) (x : LinkRec) (r : Reloc) (number : Byte) (d : Nat) (c : Instr) (s : State), s.phase = .active →
    s.linkOf a = some l → s.link l = some x → x.reloc = some r → (∃ sp, s.rport.fe[a].state = .tuning sp) →
    (c = .tuneOutcome a number false ∧ awaits s.rport.fe[a] true number.toNat ∧ d = 0 ∨
      c = .tuneTimerExpiry a ∧ s.rport.fe[a].tuneTimer = some d) →
    (∀ old : Span, r.phase = .tuning → r.old = some old → r.cand ≠ some old → s.ownStanding l old = some .held →
      ∃ t : State, exec c s = .next t ∧ stationKept s t ∧ t.now = max s.now d ∧
        t.rport.fe = s.rport.fe.set a { s.rport.fe[a] with
          state := .tuning old, sent := false, tuneTimer := none, tuneNo := (s.rport.fe[a].tuneNo + 1) % 256 } ∧
        { addr := a, kind := .tune old ((s.rport.fe[a].tuneNo + 1) % 256) } ∈ commands t.rport ∧
        (c = .tuneTimerExpiry a → { addr := a, kind := .mute } ∈ commands t.rport) ∧
        t.lsup = { s.lsup with links := s.lsup.links.set l (some { x with
          tuneInFlight := true, reloc := some { r with phase := .returning, reason := some .tuneFailed } }) } ∧
        t.plan = s.plan ∧ t.tally = s.tally ∧ talkKept s t) ∧
    (r.phase = .returning ∨ (r.phase = .tuning ∧
        (∀ old : Span, r.old = some old → r.cand ≠ some old → s.ownStanding l old ≠ some .held) ∧
        ∀ sp : Span, x.current = some sp → s.ownStanding l sp ≠ some .held) →
      ∃ t : State, exec c s = .next t ∧ stationKept s t ∧ t.now = max s.now d ∧
        failedOff l x r.cause .tuneFailed s t ∧
        t.rport.fe = s.rport.fe.set a { s.rport.fe[a] with state := .muted, sent := false, tuneTimer := none } ∧
        { addr := a, kind := .mute } ∈ commands t.rport ∧ t.plan.peers = s.plan.peers ∧
        (s.biu.queue.length + (s.owns.filter fun e => e.link == l).length ≤ 16 →
          ∀ (i : Fin 16) (e : OwnEntry), s.ownEntry i = some e → e.link = l →
            waits true .planYield (Span.bytes e.span ++ [byte e.link]) s t) ∧
        t.mgmt.longTask = (if r.task then none else s.mgmt.longTask) ∧ t.tally = s.tally ∧ talkKept s t)) ∧
  (∀ (a l : Fin 8) (x : LinkRec) (r : Reloc) (number : Byte) (old sp : Span) (s : State), s.phase = .active →
    s.linkOf a = some l → s.link l = some x → x.reloc = some r → r.phase = .returning → x.current = some old →
    r.cand ≠ some old → s.ownStanding l old = some .held → awaits s.rport.fe[a] true number.toNat →
    s.rport.fe[a].state = .tuning sp →
    ∃ t : State, exec (.tuneOutcome a number true) s = .next t ∧ stationKept s t ∧ t.now = s.now ∧
      t.rport.fe = s.rport.fe.set a { s.rport.fe[a] with state := .tuned sp, sent := false, tuneTimer := none } ∧
      commands t.rport = commands s.rport ∧
      (∀ i : Fin 16, t.plan.own[i] = (s.ownEntry i).filter fun e => e.link != l || e.span == old) ∧
      t.plan.peers = s.plan.peers ∧
      (∃ z : LinkRec, t.lsup.links[l] = some z ∧ z.state = .up ∧ z.current = x.current ∧ z.reloc = none ∧
        z.tuneInFlight = false ∧ z.relocHoldOff = some (s.now + x.desc.holdOffS * 1000000) ∧
        z.lastOutcome = some (r.cause, .failed (r.reason.getD .tuneFailed))) ∧
      t.mgmt.longTask = (if r.task then none else s.mgmt.longTask) ∧ t.tally = s.tally ∧ talkKept s t) ∧
  (∀ (a l : Fin 8) (x : LinkRec) (i : Fin 16) (e : OwnEntry) (number : Byte) (d : Nat) (c : Instr) (s : State), s.Inv →
    s.linkOf a = some l → s.link l = some x → (∀ r : Reloc, x.reloc = some r → r.phase = .waiting ∨ r.phase = .claiming) →
    yieldingAt i e l s → (∃ sp, s.rport.fe[a].state = .tuning sp) →
    (c = .tuneOutcome a number false ∧ awaits s.rport.fe[a] true number.toNat ∧ d = 0 ∨
      c = .tuneTimerExpiry a ∧ s.rport.fe[a].tuneTimer = some d) →
    ∃ t : State, exec c s = .next t ∧ stationKept s t ∧ t.now = max s.now d ∧
      t.rport.fe = s.rport.fe.set a { s.rport.fe[a] with state := .muted, sent := false, tuneTimer := none } ∧
      t.plan = { s.plan with own := s.plan.own.set i none } ∧
      (s.biu.queue.length < 16 → waits true .planYield (Span.bytes e.span ++ [byte e.link]) s t ∧
        t.lsup = { s.lsup with
          links := s.lsup.links.set l (some { x with tuneInFlight := false, current := currentLess x e.span }) }) ∧
      t.tally = s.tally ∧ talkKept s t) ∧
  (∀ (a : Fin 8) (lock : Bool) (quality : Fin 16) (keys : BitVec 4) (fault : Bool) (s : State), s.resetHeld = false →
    ∃ t : State, exec (.report a lock quality keys fault) s = .next t ∧ stationKept s t ∧ t.now = s.now ∧
      t.rport.fe[a].mailbox = some { lock := lock && !fault, quality := quality, keys := keys, fault := fault } ∧
      t.rport.fe[a].fresh = true ∧
      t.rport.fe[a].overwrites =
        (if s.rport.fe[a].fresh then min 255 (s.rport.fe[a].overwrites + 1) else s.rport.fe[a].overwrites) ∧
      (fault = true → t.rport.fe[a].state = .fault) ∧
      (fault = false → s.rport.fe[a].state ≠ .fault → t.rport.fe[a].state = s.rport.fe[a].state) ∧
      (s.phase ≠ .loading → s.phase ≠ .halted → t.rport.fe[a].lastKeys = if fault then 0 else keys) ∧
      (s.phase = .loading ∨ s.phase = .halted → t.rport.fe[a].lastKeys = s.rport.fe[a].lastKeys) ∧
      t.tally = s.tally ∧ t.plan.peers = s.plan.peers) ∧
  (∀ (a : Fin 8) (lock : Bool) (quality : Fin 16) (keys : BitVec 4) (s : State), s.resetHeld = false →
    s.rport.fe[a].state = .fault →
    ∃ t : State, exec (.report a lock quality keys false) s = .next t ∧ stationKept s t ∧ t.now = s.now ∧
      t.tally = s.tally ∧
      ((∀ (l : Fin 8) (x : LinkRec) (sp : Span), s.linkOf a = some l → ¬restores l x sp s) →
        t.rport.fe[a].state = .muted ∧ commands t.rport = commands s.rport ∧ t.plan = s.plan) ∧
      ∀ (l : Fin 8) (x : LinkRec) (sp : Span), s.phase = .active → s.linkOf a = some l → restores l x sp s →
        x.tuneInFlight = false →
        t.rport.fe[a].state = .tuning sp ∧ t.rport.fe[a].sent = false ∧
        t.rport.fe[a].tuneNo = (s.rport.fe[a].tuneNo + 1) % 256 ∧
        { addr := a, kind := .tune sp ((s.rport.fe[a].tuneNo + 1) % 256) } ∈ commands t.rport ∧
        t.plan = s.plan ∧
        ∃ z : LinkRec, t.lsup.links[l] = some z ∧
          z = { x with tuneInFlight := true, announcedBad := z.announcedBad }) ∧
  (∀ (a : Fin 8) (lock : Bool) (quality : Fin 16) (keys : BitVec 4) (fault : Bool) (s : State), s.resetHeld = true →
    exec (.report a lock quality keys fault) s = .next s.finish)

/-- The cutover (R60, R115, R124): TUNE_OUTCOME with TUNED_OK on the front-end of a link whose relocation is in TUNING makes
the candidate the link's current span and the link UP; the search pointer moves on from it, supervision starts afresh, the
relocation hold-off runs, the old span's entry is yielded, and the relocation has ended DONE. A candidate that is the old
span itself was claimed anew, the old entry having gone, and stays HELD. -/
def Obligations.TunedCandidateIsCutOver : Prop :=
  ∀ (a : Fin 8) (number : Byte) (sp : Span) (l : Fin 8) (x : LinkRec) (r : Reloc) (s : State),
    awaits s.rport.fe[a] true number.toNat → s.rport.fe[a].state = .tuning sp → s.linkOf a = some l →
    s.link l = some x → x.reloc = some r → r.phase = .tuning → r.cand = some sp →
    ∃ t : State, exec (.tuneOutcome a number true) s = .next t ∧ stationKept s t ∧ t.now = s.now ∧
      t.rport.fe[a].state = .tuned sp ∧
      (∃ z : LinkRec, t.lsup.links[l] = some z ∧ z.current = some sp ∧ z.state = .up ∧ z.tuneInFlight = false ∧
        z.pointer = (if x.desc.winLow ≤ sp.low ∧ sp.low ≤ x.desc.winHigh then
          (if x.desc.winHigh < sp.low + x.desc.step + x.desc.width - 1 then x.desc.winLow else sp.low + x.desc.step)
          else x.pointer) ∧
        z.history = x.history ∧ z.fades = 0 ∧ z.unlocked = 0 ∧ z.previousBad = false ∧ z.announcedBad = false ∧
        z.lastSeverity = 0 ∧ z.prediction = none ∧ z.sightingHoldOff = none ∧
        z.sampleTimer = (if x.sampleTimer.isSome then x.sampleTimer else some (s.now + x.sampleMs * 1000)) ∧
        z.relocHoldOff = some (s.now + x.desc.holdOffS * 1000000) ∧ z.reloc = none ∧
        z.lastOutcome = some (r.cause, .done)) ∧
      (∀ (old : Span) (i : Fin 16), r.old = some old → old ≠ sp → s.ownSlot l old = some i →
        t.plan = { s.plan with own := s.plan.own.set i none }) ∧
      (r.old = none ∨ r.old = some sp → t.plan = s.plan) ∧ (r.task = true → t.mgmt.longTask = none) ∧
      (r.task = false → t.mgmt.longTask = s.mgmt.longTask) ∧ t.tally = s.tally ∧ talkKept s t ∧
      commands t.rport = commands s.rport

/-! ## Link supervision -/

/-- The outcome of a counted sample of a link (R101): whether it is BAD, whether it is unlocked, and its severity. -/
def Sys2Proof.Says.samples (x : LinkRec) (bad unlocked : Bool) (severity : Nat) (s : State) : Prop :=
  (∃ m : Report, s.rport.fe[x.desc.frontEnd].mailbox = some m ∧ s.rport.fe[x.desc.frontEnd].fresh = true ∧ m.lock = true ∧
    (x.desc.badThreshold ≤ m.quality ∧ bad = false ∧ unlocked = false ∧ severity = 0 ∨
      m.quality < x.desc.badThreshold ∧ bad = true ∧ unlocked = false ∧ severity = 15 - m.quality)) ∨
  ((s.rport.fe[x.desc.frontEnd].mailbox.all (fun m => !m.lock) = true ∨ s.rport.fe[x.desc.frontEnd].fresh = false) ∧
    bad = true ∧ unlocked = true ∧ severity = 15)

/-- The consecutive unlocked samples once a sample is counted (R102). -/
def Sys2Proof.Says.unlockedAfter (x : LinkRec) (unlocked : Bool) : Nat := if unlocked then min 255 (x.unlocked + 1) else 0

/-- The state of an UP or LOST link once a sample is counted (R103, R104). -/
def Sys2Proof.Says.stateAfter (x : LinkRec) (bad unlocked : Bool) : LinkState :=
  if x.state = .up ∧ x.desc.lossSamples ≤ unlockedAfter x unlocked then .lost
  else if x.state = .lost ∧ bad = false then .up else x.state

/-- The span that a sample of an UP or LOST link issues a sighting for (R111, R112). -/
def Sys2Proof.Says.sighted (x : LinkRec) (bad : Bool) : Option Span :=
  if bad ≠ x.announcedBad ∧ x.sightingHoldOff = none then x.current else none

/-- The consecutive FADE predictions once a sample of an UP or LOST link is counted (R102, R107, R108): the pending
prediction is resolved against the outcome, the histories take it, and the next prediction is made. -/
def Sys2Proof.Says.fadesAfter (x : LinkRec) (bad : Bool) (severity : Nat) (s : State) : Nat :=
  let y := match x.prediction with
    | some p => s.lsup.resolve p bad
    | none => s.lsup
  let h := match sighted x bad with
    | some sp => y.histories.set sp.band.index
        ((y.histories[sp.band.index] >>> 1) ||| if severity = 0 then 0#8 else 0x80#8)
    | none => y.histories
  if (y.predict ((x.history >>> 1) ||| if bad then 0x80#8 else 0#8) h[x.desc.band.index]).fade then min 255 (x.fades + 1)
  else 0

/-- A counted sample of an UP or LOST link starts no relocation (R103, R114): neither a loss nor the predictive trigger
does. -/
def Sys2Proof.Says.startsNone (l : Fin 8) (x : LinkRec) (bad unlocked : Bool) (severity : Nat) (s : State) : Prop :=
  x.pinned = true ∨ x.reloc ≠ none ∨ (stateAfter x bad unlocked = .lost ∧ x.state = .lost) ∨
    (stateAfter x bad unlocked = .up ∧
      (s.tally.onAir[l] = true ∨ x.relocHoldOff ≠ none ∨ fadesAfter x bad severity s < x.desc.fadeRun))

/-- SAMPLE_TIMER_EXPIRY (R99 to R104, R107 to R109, R111 to R114): the timer restarts and the mailbox is taken. With a tune
in flight the sample is held. A good sample of an UP link with no relocation to start shifts its history, clears its
unlocked count, resolves the pending prediction and makes the next; an unlocked one that brings a pinned UP link to its loss
count makes the link LOST. Any counted sample of an UP or LOST link (R101, R102), no relocation starting, moves its history,
its counts and its state on: a good one makes a LOST link UP again (R104). Where its outcome differs from the state last
announced and no sighting hold-off runs, a sighting is issued (R111, R112): it waits in the queue where that had room, the
outcome then being the state announced, the hold-off runs for 500 ms, the band's history takes it (R109), which the next
prediction reads, and its span is quarantined from the threshold on (R52, R53, R54). An unlocked sample that brings an UP
link that is not pinned to its loss count starts a relocation with cause LOST (R103); a run of FADE predictions of an UP
link, not pinned, off air, with no relocation under way and no relocation hold-off, starts one with cause PREDICTED, the
count then being 0 (R114). Such a relocation is under way or has failed as the link's last outcome; a replica that is
overfull leaves it WAITING (R121). -/
def Obligations.SamplesFollowTheLink : Prop :=
  (∀ (l : Fin 8) (x : LinkRec) (d : Nat) (s : State), s.link l = some x → x.sampleTimer = some d →
    x.tuneInFlight = true → exec (.sampleTimerExpiry l) s = .next { s with
      now := max s.now d,
      lsup := { s.lsup with links := s.lsup.links.set l (some { x with
        sampleTimer := some (max s.now d + x.sampleMs * 1000), prediction := none, fades := 0 }) },
      rport := { s.rport with
        fe := s.rport.fe.set x.desc.frontEnd { s.rport.fe[x.desc.frontEnd] with fresh := false } } }.finish) ∧
  (∀ (l : Fin 8) (x : LinkRec) (m : Report) (d : Nat) (s : State), s.link l = some x → x.sampleTimer = some d →
    x.tuneInFlight = false → x.state = .up → x.announcedBad = false → 1 ≤ x.desc.lossSamples →
    (x.pinned = true ∨ s.tally.onAir[l] = true ∨ x.reloc ≠ none ∨ x.relocHoldOff ≠ none) →
    s.rport.fe[x.desc.frontEnd].mailbox = some m → s.rport.fe[x.desc.frontEnd].fresh = true → m.lock = true →
    x.desc.badThreshold ≤ m.quality →
    ∃ t : State, exec (.sampleTimerExpiry l) s = .next t ∧ stationKept s t ∧ t.now = max s.now d ∧
      t.rport.fe[x.desc.frontEnd].fresh = false ∧ t.lsup.histories = s.lsup.histories ∧
      (x.prediction = none → t.lsup.localTable = s.lsup.localTable ∧ t.lsup.globalTable = s.lsup.globalTable ∧
        t.lsup.choiceTable = s.lsup.choiceTable) ∧
      (∀ p : Prediction, x.prediction = some p →
        (∀ i : BitVec 8, (entryAt t.lsup.localTable i).val =
            (entryAt s.lsup.localTable i).val - if i = p.localIx then 1 else 0) ∧
        (∀ i : BitVec 8, (entryAt t.lsup.globalTable i).val =
            (entryAt s.lsup.globalTable i).val - if i = p.globalIx then 1 else 0) ∧
        (p.localFade = p.globalFade → t.lsup.choiceTable = s.lsup.choiceTable)) ∧
      (∃ (z : LinkRec) (n : Prediction), t.lsup.links[l] = some z ∧ z.state = .up ∧ z.history = x.history >>> 1 ∧
        z.unlocked = 0 ∧ z.previousBad = false ∧ z.lastSeverity = 0 ∧ z.current = x.current ∧ z.reloc = x.reloc ∧
        z.sampleTimer = some (max s.now d + x.sampleMs * 1000) ∧ z.prediction = some n ∧ n.localIx = z.history ∧
        n.globalIx = s.lsup.histories[x.desc.band.index] ∧
        n.localFade = decide (2 ≤ (entryAt t.lsup.localTable n.localIx).val) ∧
        n.globalFade = decide (2 ≤ (entryAt t.lsup.globalTable n.globalIx).val) ∧
        n.fade = (if 2 ≤ (entryAt t.lsup.choiceTable n.globalIx).val then n.globalFade else n.localFade) ∧
        z.fades = if n.fade then min 255 (x.fades + 1) else 0) ∧
      t.plan = s.plan ∧ t.tally = s.tally ∧ talkKept s t ∧ t.biu.queue = s.biu.queue) ∧
  (∀ (l : Fin 8) (x : LinkRec) (d : Nat) (s : State), s.link l = some x → x.sampleTimer = some d →
    x.tuneInFlight = false → x.state = .up → x.pinned = true → x.desc.lossSamples ≤ min 255 (x.unlocked + 1) →
    (s.rport.fe[x.desc.frontEnd].mailbox.all (fun m => !m.lock) = true ∨ s.rport.fe[x.desc.frontEnd].fresh = false) →
    ∃ t : State, exec (.sampleTimerExpiry l) s = .next t ∧ stationKept s t ∧ t.now = max s.now d ∧
      t.rport.fe[x.desc.frontEnd].fresh = false ∧
      (∃ z : LinkRec, t.lsup.links[l] = some z ∧ z.state = .lost ∧ z.history = (x.history >>> 1 ||| 0x80#8) ∧
        z.unlocked = min 255 (x.unlocked + 1) ∧ z.previousBad = true ∧ z.lastSeverity = 15 ∧ z.current = x.current ∧
        z.reloc = x.reloc ∧ z.sampleTimer = some (max s.now d + x.sampleMs * 1000)) ∧
      t.plan.own = s.plan.own ∧ t.plan.peers = s.plan.peers ∧ t.tally = s.tally ∧ talkKept s t) ∧
  (∀ (l : Fin 8) (x : LinkRec) (bad unlocked : Bool) (severity d : Nat) (s : State), s.link l = some x →
    x.sampleTimer = some d → x.tuneInFlight = false → samples x bad unlocked severity s → x.state = .up ∨ x.state = .lost →
    startsNone l x bad unlocked severity s →
    ∃ t : State, exec (.sampleTimerExpiry l) s = .next t ∧ stationKept s t ∧ t.now = max s.now d ∧
      t.rport.fe[x.desc.frontEnd].fresh = false ∧
      (∃ (z : LinkRec) (n : Prediction), t.lsup.links[l] = some z ∧ z.state = stateAfter x bad unlocked ∧
        z.history = ((x.history >>> 1) ||| if bad then 0x80#8 else 0#8) ∧ z.unlocked = unlockedAfter x unlocked ∧
        z.previousBad = bad ∧ z.lastSeverity = severity ∧ z.current = x.current ∧ z.reloc = x.reloc ∧
        z.sampleTimer = some (max s.now d + x.sampleMs * 1000) ∧ z.prediction = some n ∧ n.localIx = z.history ∧
        n.globalIx = t.lsup.histories[x.desc.band.index] ∧
        z.fades = (if n.fade then min 255 (x.fades + 1) else 0) ∧ z.fades = fadesAfter x bad severity s ∧
        (∀ sp : Span, sighted x bad = some sp → z.sightingHoldOff = some (max s.now d + 500000) ∧
          (s.phase = .active → s.biu.queue.length < 16 → z.announcedBad = bad ∧
            waits false .sighting (Span.bytes sp ++ [byte severity]) s t)) ∧
        (sighted x bad = none → z.sightingHoldOff = x.sightingHoldOff ∧ z.announcedBad = x.announcedBad)) ∧
      (∀ sp : Span, sighted x bad = some sp →
        t.lsup.histories = s.lsup.histories.set sp.band.index
          ((s.lsup.histories[sp.band.index] >>> 1) ||| if severity = 0 then 0#8 else 0x80#8) ∧
        (severity < s.image.quarThreshold → t.plan = s.plan) ∧
        (s.image.quarThreshold ≤ severity → ∃ q ∈ t.plan.quarantine, q.span = sp ∧
          q.expiry = max s.now d + s.image.quarTimeS * 1000000)) ∧
      (sighted x bad = none → t.lsup.histories = s.lsup.histories ∧ t.plan = s.plan ∧ t.biu.queue = s.biu.queue) ∧
      t.plan.own = s.plan.own ∧ t.plan.peers = s.plan.peers ∧ t.tally = s.tally ∧ talkKept s t) ∧
  (∀ (l : Fin 8) (x : LinkRec) (bad unlocked : Bool) (severity d : Nat) (s : State), s.phase = .active →
    s.link l = some x → x.sampleTimer = some d → x.tuneInFlight = false → samples x bad unlocked severity s →
    (x.state = .up ∨ x.state = .lost) → x.pinned = false → x.reloc = none →
    (stateAfter x bad unlocked = .lost → x.state = .up →
      ∃ t : State, exec (.sampleTimerExpiry l) s = .next t ∧ stationKept s t ∧ t.now = max s.now d ∧
        t.tally = s.tally ∧ talkKept s t ∧
        ∃ z : LinkRec, t.lsup.links[l] = some z ∧
          ((∃ r : Reloc, z.reloc = some r ∧ r.cause = .lost) ∨
            (z.reloc = none ∧ ∃ why : FailCause, z.lastOutcome = some (.lost, .failed why))) ∧
          (s.plan.overfull = true → z.state = .lost ∧ z.reloc = some (waiting .lost x none false false))) ∧
    (stateAfter x bad unlocked = .up → s.tally.onAir[l] = false → x.relocHoldOff = none →
      x.desc.fadeRun ≤ fadesAfter x bad severity s →
      ∃ t : State, exec (.sampleTimerExpiry l) s = .next t ∧ stationKept s t ∧ t.now = max s.now d ∧
        t.tally = s.tally ∧ talkKept s t ∧
        ∃ z : LinkRec, t.lsup.links[l] = some z ∧ z.fades = 0 ∧
          ((∃ r : Reloc, z.reloc = some r ∧ r.cause = .predicted) ∨
            (z.reloc = none ∧ ∃ why : FailCause, z.lastOutcome = some (.predicted, .failed why))) ∧
          (s.plan.overfull = true → z.state = .up ∧ z.reloc = some (waiting .predicted x none false false))))

/-- The other timers of a link. RELOCATION_HOLD_OFF_EXPIRY (R105): the hold-off is over, and a LOST link that is not pinned
begins a loss relocation. SIGHTING_HOLD_OFF_EXPIRY (R112): the hold-off is over, and a state that still differs from the
one announced is issued, which starts it again. ACQUIRE_RETRY_EXPIRY (R128): an ACQUIRING link begins a relocation. A
relocation begun while the replica is overfull waits (R121). -/
def Obligations.LinkHoldOffsAndRetries : Prop :=
  (∀ (l : Fin 8) (x : LinkRec) (d : Nat) (s : State), s.link l = some x → x.relocHoldOff = some d →
    (x.state ≠ .lost ∨ x.pinned = true → exec (.relocationHoldOffExpiry l) s = .next { s with
      now := max s.now d,
      lsup := { s.lsup with links := s.lsup.links.set l (some { x with relocHoldOff := none }) } }.finish) ∧
    (x.state = .lost → x.pinned = false → x.reloc = none → s.phase = .active → s.plan.overfull = true →
      exec (.relocationHoldOffExpiry l) s = .next { s with
        now := max s.now d,
        lsup := { s.lsup with links := s.lsup.links.set l (some { x with
          relocHoldOff := none, acquireRetry := none, reloc := some (waiting .lost x none false false) }) } }.finish)) ∧
  (∀ (l : Fin 8) (x : LinkRec) (d : Nat) (s : State), s.link l = some x → x.sightingHoldOff = some d →
    (x.announcedBad = x.previousBad → exec (.sightingHoldOffExpiry l) s = .next { s with
      now := max s.now d,
      lsup := { s.lsup with links := s.lsup.links.set l (some { x with sightingHoldOff := none }) } }.finish) ∧
    (∀ sp : Span, x.announcedBad ≠ x.previousBad → (x.state = .up ∨ x.state = .lost) → x.current = some sp →
      s.phase = .active → s.biu.queue.length < 16 →
      ∃ t : State, exec (.sightingHoldOffExpiry l) s = .next t ∧ stationKept s t ∧ t.now = max s.now d ∧
        t.lsup.links = s.lsup.links.set l (some { x with
          announcedBad := x.previousBad, sightingHoldOff := some (max s.now d + 500000) }) ∧
        t.lsup.histories = s.lsup.histories.set sp.band.index
          ((s.lsup.histories[sp.band.index] >>> 1) ||| if x.lastSeverity = 0 then 0#8 else 0x80#8) ∧
        waits false .sighting (Span.bytes sp ++ [byte x.lastSeverity]) s t ∧
        (x.lastSeverity < s.image.quarThreshold → t.plan = s.plan) ∧
        (s.image.quarThreshold ≤ x.lastSeverity → ∃ q ∈ t.plan.quarantine, q.span = sp ∧
          q.expiry = max s.now d + s.image.quarTimeS * 1000000) ∧
        t.plan.own = s.plan.own ∧ t.plan.peers = s.plan.peers ∧ t.tally = s.tally ∧ talkKept s t ∧ radioKept s t)) ∧
  (∀ (l : Fin 8) (x : LinkRec) (d : Nat) (s : State), s.link l = some x → x.acquireRetry = some d →
    (x.state ≠ .acquiring → exec (.acquireRetryExpiry l) s = .next { s with
      now := max s.now d,
      lsup := { s.lsup with links := s.lsup.links.set l (some { x with acquireRetry := none }) } }.finish) ∧
    (x.state = .acquiring → x.reloc = none → s.phase = .active → s.plan.overfull = true →
      exec (.acquireRetryExpiry l) s = .next { s with
        now := max s.now d,
        lsup := { s.lsup with links := s.lsup.links.set l (some { x with
          acquireRetry := none, reloc := some (waiting .acquire x none false false) }) } }.finish))

/-! ## Tally -/

/-- The timers and contact lines of TALLY. STALE_TIMER_EXPIRY (R138, R144): the layer is STALE for the stale hold, and a
source that stood by publishes it again, in ACTIVE at once and URGENT. UNSET_TIMER_EXPIRY (R139): the layer is UNSET with
every input OFF. SOURCE_REFRESH_EXPIRY (R143): the layer is published, NORMAL. CONTACT_LEVEL_CHANGE and
CONTACT_DEBOUNCE_EXPIRY (R141, R142): a change of level runs the debounce time, the level then present is accepted, and a
source layer whose content changes is published, URGENT. A publication (R143) is a TALLY_STATE that waits in the queue where
it had room, the station's own layer record filled, and the refresh timer restarted; each of these events but a level change
ends in an evaluation of the map where it has changed a layer record (R148 to R152). A level commanded that the line has
already is no change (DESIGN CHOICE, log 4). -/
def Obligations.TallyTimersAndContacts : Prop :=
  (∀ (k : Fin 8) (d : Nat) (s : State), (s.layer k).staleTimer = some d →
    ((∀ x : Source, s.source k = some x → x.standby = true → s.phase ≠ .active) →
      ∃ t : State, exec (.staleTimerExpiry k) s = .next t ∧ stationKept s t ∧ t.now = max s.now d ∧
        t.tally.layers = s.tally.layers.set k { s.layer k with
          state := .stale, staleTimer := none, unsetTimer := some (max s.now d + s.image.staleHoldS * 1000000) } ∧
        (∀ x : Source, s.source k = some x →
          t.tally.sources = s.tally.sources.set k (some { x with standby := false })) ∧
        (s.source k = none → t.tally.sources = s.tally.sources) ∧
        evaluated s t ∧ t.plan.peers = s.plan.peers ∧ talkKept s t ∧ t.rport.fe = s.rport.fe) ∧
    (∀ x : Source, s.source k = some x → x.standby = true → s.phase = .active →
      ∃ t : State, exec (.staleTimerExpiry k) s = .next t ∧ stationKept s t ∧ t.now = max s.now d ∧
        t.tally.layers = s.tally.layers.set k (ownLayer s (max s.now d) (s.content k) k) ∧
        t.tally.sources = s.tally.sources.set k (some {
          standby := false, published := some (s.content k),
          refreshTimer := some (max s.now d + s.image.refreshUnits * 100000) }) ∧
        (s.biu.queue.length < 16 → waits true .tallyState (tallyBody s k (s.content k)) s t) ∧
        evaluated s t ∧ t.plan.peers = s.plan.peers ∧ talkKept s t ∧ t.rport.fe = s.rport.fe)) ∧
  (∀ (k : Fin 8) (d : Nat) (s : State), (s.layer k).unsetTimer = some d →
    ∃ t : State, exec (.unsetTimerExpiry k) s = .next t ∧ stationKept s t ∧ t.now = max s.now d ∧
      t.tally.layers = s.tally.layers.set k {
        state := .unset, source := none, refresh := none, count := none,
        inputs := Vector.replicate 64 .off, staleTimer := none, unsetTimer := none } ∧
      t.tally.sources = s.tally.sources ∧
      evaluated s t ∧ t.plan.peers = s.plan.peers ∧ talkKept s t ∧ t.rport.fe = s.rport.fe) ∧
  (∀ (k : Fin 8) (d : Nat) (x : Source) (s : State), s.source k = some x → x.refreshTimer = some d →
    (s.phase = .active → x.standby = false →
      ∃ t : State, exec (.sourceRefreshExpiry k) s = .next t ∧ stationKept s t ∧ t.now = max s.now d ∧
        t.tally.layers = s.tally.layers.set k (ownLayer s (max s.now d) (s.content k) k) ∧
        t.tally.sources = s.tally.sources.set k (some { x with
          published := some (s.content k),
          refreshTimer := some (max s.now d + s.image.refreshUnits * 100000) }) ∧
        (s.biu.queue.length < 16 → (∀ l : Fin 8, s.reloc l = none) →
          waits false .tallyState (tallyBody s k (s.content k)) s t) ∧
        evaluated s t ∧ t.plan.peers = s.plan.peers ∧ talkKept s t ∧ t.rport.fe = s.rport.fe) ∧
    ((s.phase ≠ .active ∨ x.standby = true) → exec (.sourceRefreshExpiry k) s = .next { s with
      now := max s.now d,
      tally := { s.tally with sources := s.tally.sources.set k (some { x with refreshTimer := none }) } }.finish)) ∧
  (∀ (c : Fin 32) (closed : Bool) (s : State),
    (s.pins.contacts.getLsbD c = closed → exec (.contactLevelChange c closed) s = .next s.finish) ∧
    (s.pins.contacts.getLsbD c ≠ closed →
      ∃ t : State, exec (.contactLevelChange c closed) s = .next t ∧ t.now = s.now ∧ t.phase = s.phase ∧
        (∀ j : Fin 32, t.pins.contacts.getLsbD j = if j = c then closed else s.pins.contacts.getLsbD j) ∧
        t.pins.keys = s.pins.keys ∧
        (s.phase ≠ .loading → s.phase ≠ .halted → t.tally = { s.tally with
          contacts := s.tally.contacts.set c
            { accepted := s.tally.contacts[c].accepted, timer := some (s.now + s.image.contactDebounceMs * 1000) } }) ∧
        (s.phase = .loading ∨ s.phase = .halted → t.tally = s.tally) ∧ t.biu = s.biu ∧ t.plan = s.plan ∧
        t.lsup = s.lsup ∧ talkKept s t ∧ radioKept s t)) ∧
  (∀ (c : Fin 32) (d : Nat) (s : State), s.tally.contacts[c].timer = some d →
    ((s.tally.contacts[c].accepted = s.pins.contacts.getLsbD c ∨ s.phase ≠ .active ∨
        (s.image.contacts[c]).all (fun m => (s.source m.layer).all fun x => x.standby) = true) →
      exec (.contactDebounceExpiry c) s = .next { s with
        now := max s.now d,
        tally := { s.tally with
          contacts := s.tally.contacts.set c { accepted := s.pins.contacts.getLsbD c, timer := none } } }.finish) ∧
    (∀ (m : ContactCfg) (x : Source), s.tally.contacts[c].accepted ≠ s.pins.contacts.getLsbD c →
      s.image.contacts[c] = some m → s.phase = .active → s.source m.layer = some x → x.standby = false →
      ∃ t : State, exec (.contactDebounceExpiry c) s = .next t ∧ stationKept s t ∧ t.now = max s.now d ∧
        t.tally.contacts = s.tally.contacts.set c { accepted := s.pins.contacts.getLsbD c, timer := none } ∧
        (x.published = some (t.content m.layer) → t.tally = { s.tally with contacts := t.tally.contacts } ∧
          t.biu = s.biu ∧ t.plan = s.plan ∧ t.lsup = s.lsup ∧ radioKept s t) ∧
        (x.published ≠ some (t.content m.layer) →
          t.tally.layers = s.tally.layers.set m.layer (ownLayer s (max s.now d) (t.content m.layer) m.layer) ∧
          t.tally.sources = s.tally.sources.set m.layer (some { x with
            published := some (t.content m.layer),
            refreshTimer := some (max s.now d + s.image.refreshUnits * 100000) }) ∧
          (s.biu.queue.length < 16 → waits true .tallyState (tallyBody s m.layer (t.content m.layer)) s t) ∧
          evaluated s t) ∧
        t.plan.peers = s.plan.peers ∧ talkKept s t ∧ t.rport.fe = s.rport.fe))

/-! ## Talkback -/

/-- A key line is settled, and nothing else happens. -/
def Sys2Proof.Says.settled (k : Fin 16) (d : Nat) (s : State) : State :=
  { s with
    now := max s.now d
    tbk := { s.tbk with keys := s.tbk.keys.set k { accepted := s.pins.keys.getLsbD k, timer := none } } }

/-- KEY_LEVEL_CHANGE and KEY_DEBOUNCE_EXPIRY (R156): a change of level runs the debounce time, and the level then present is
accepted. In ACTIVE a change to held is a press: TALK on a line with room makes the port TALKING (R162), CALL to a station
in the roster rings it (R168), FOLLOW holds follow talk toward the layer's programme input (R164), ANSWER/CLEAR answers a
ring with a CALL_ANSWER and ends any other call with a CALL_END, reason CLEARED (R171, R172); and a change to released ends
the talk that the key began (R157, R162). A level commanded that the line has already is no change (DESIGN CHOICE, log 4).
-/
def Obligations.KeysActForTheirPorts : Prop :=
  (∀ (k : Fin 16) (closed : Bool) (s : State),
    (s.pins.keys.getLsbD k = closed → exec (.keyLevelChange k closed) s = .next s.finish) ∧
    (s.pins.keys.getLsbD k ≠ closed →
      ∃ t : State, exec (.keyLevelChange k closed) s = .next t ∧ t.now = s.now ∧ t.phase = s.phase ∧
        (∀ j : Fin 16, t.pins.keys.getLsbD j = if j = k then closed else s.pins.keys.getLsbD j) ∧
        t.pins.contacts = s.pins.contacts ∧
        (s.phase ≠ .loading → s.phase ≠ .halted → t.tbk.keys = s.tbk.keys.set k
          { accepted := s.tbk.keys[k].accepted, timer := some (s.now + s.image.keyDebounceMs * 1000) }) ∧
        (s.phase = .loading ∨ s.phase = .halted → t.tbk.keys = s.tbk.keys) ∧ t.tbk.ports = s.tbk.ports ∧
        t.tbk.lines = s.tbk.lines ∧ t.tbk.calls = s.tbk.calls ∧ t.biu = s.biu ∧ t.plan = s.plan ∧ t.lsup = s.lsup ∧
        t.tally = s.tally ∧ radioKept s t)) ∧
  (∀ (k : Fin 16) (d : Nat) (s : State), s.tbk.keys[k].timer = some d →
    (s.tbk.keys[k].accepted = s.pins.keys.getLsbD k ∨ s.image.keys[k].fn = .unmapped ∨ s.phase ≠ .active) →
    exec (.keyDebounceExpiry k) s = .next (settled k d s).finish) ∧
  (∀ (k : Fin 16) (d : Nat) (q : Fin 12) (r : TbPort) (s : State), s.tbk.keys[k].timer = some d → s.phase = .active →
    s.tbk.keys[k].accepted = false → s.pins.keys.getLsbD k = true → s.image.keys[k].port = q → s.tbPort q = some r →
    (∀ (n : Fin 16) (m : Membership), s.image.keys[k].fn = .talk n → r.talk = .idle → r.follow = none →
      r.member n = some m → m.talk = true → (s.line n).talkers.length < s.image.caps[n] → s.image.caps[n] ≤ 8 →
      ∃ t : State, exec (.keyDebounceExpiry k) s = .next t ∧ stationKept s t ∧ t.now = max s.now d ∧
        t.tbk.keys = (settled k d s).tbk.keys ∧
        t.tbk.ports[q] = some { r with
          talk := .talking n (.line k), talkRefresh := some (max s.now d + 500000) } ∧
        { station := s.station, port := q.val, cls := r.talkClass, expiry := none } ∈ t.tbk.lines[n].talkers ∧
        (s.biu.queue.length < 16 → waits true .talk [byte n, byte q, byte r.talkClass, 1] s t) ∧
        t.plan = s.plan ∧ t.tally = s.tally ∧ radioKept s t) ∧
    (∀ (station port : Nat) (n : Fin 127) (slot : Fin 4) (c : Fin 15), s.image.keys[k].fn = .call station port →
      station = n.val → (s.biu.roster[n]).isSome = true → s.slotOf q = none → s.idleSlot = some slot →
      s.freeCircuitOf = some c →
      ∃ t : State, exec (.keyDebounceExpiry k) s = .next t ∧ stationKept s t ∧ t.now = max s.now d ∧
        t.tbk.calls = s.tbk.calls.set slot (some {
          state := .ringingOut, caller := true, port := q,
          peer := (station, port), circuit := c, ringTimer := some (max s.now d + 20000000),
          keepTimer := some (max s.now d + 2000000), callExpiry := none }) ∧
        t.tbk.circuits = s.tbk.circuits.set c
          (some { caller := (s.station, q.val), expiry := max s.now d + 6000000 }) ∧
        (s.biu.queue.length < 16 → waits true .callRing
          [byte s.station, byte q, byte station, byte port, byte (c.val + 17), 0] s t) ∧
        t.tbk.lines = s.tbk.lines ∧ t.plan = s.plan ∧ t.tally = s.tally ∧ radioKept s t) ∧
    (∀ (layer : Fin 8) (input : Nat), s.image.keys[k].fn = .follow layer → r.talk = .idle → r.follow = none →
      (s.layer layer).programInput = some input →
      ∃ t : State, exec (.keyDebounceExpiry k) s = .next t ∧ stationKept s t ∧ t.now = max s.now d ∧
        t.tbk.ports = s.tbk.ports.set q (some { r with
          follow := some { layer := layer, input := input, key := .line k },
          followRefresh := some (max s.now d + 500000) }) ∧
        (s.biu.queue.length < 16 → waits true .followTalk [byte (layer.val + 1), byte input, byte q, 1] s t) ∧
        t.tbk.lines = s.tbk.lines ∧ t.tbk.calls = s.tbk.calls ∧ t.plan = s.plan ∧ t.tally = s.tally ∧
        radioKept s t) ∧
    (∀ (slot : Fin 4) (c : CallRec), s.image.keys[k].fn = .answerClear → s.slotOf q = some slot →
      s.call slot = some c →
      ∃ t : State, exec (.keyDebounceExpiry k) s = .next t ∧ stationKept s t ∧ t.now = max s.now d ∧
        t.tbk.calls = s.tbk.calls.set slot (if c.state = .ringingIn then some { c with
          state := .connected, ringTimer := none, keepTimer := some (max s.now d + 2000000),
          callExpiry := some (max s.now d + 6000000) } else none) ∧
        (s.biu.queue.length < 16 → waits true (if c.state = .ringingIn then .callAnswer else .callEnd)
          [byte (c.callerOf s.station).1, byte (c.callerOf s.station).2, byte (c.calleeOf s.station).1,
           byte (c.calleeOf s.station).2, byte (c.circuit.val + 17), if c.state = .ringingIn then 0 else 1] s t) ∧
        t.tbk.lines = s.tbk.lines ∧ t.tbk.ports = s.tbk.ports ∧ t.plan = s.plan ∧ t.tally = s.tally ∧
        radioKept s t)) ∧
  (∀ (k : Fin 16) (d : Nat) (q : Fin 12) (r : TbPort) (n : Fin 16) (s : State), s.tbk.keys[k].timer = some d →
    s.phase = .active → s.tbk.keys[k].accepted = true → s.pins.keys.getLsbD k = false → s.image.keys[k].port = q →
    s.image.keys[k].fn = .talk n → s.tbPort q = some r → r.talk = .talking n (.line k) →
    ∃ t : State, exec (.keyDebounceExpiry k) s = .next t ∧ stationKept s t ∧ t.now = max s.now d ∧
      (∃ r' : TbPort, t.tbk.ports[q] = some r' ∧ r'.talk = .idle ∧ r'.talkRefresh = none) ∧
      (∀ x ∈ t.tbk.lines[n].talkers, ¬(x.station = s.station ∧ x.port = q.val)) ∧
      (s.biu.queue.length < 16 → waits true .talk [byte n, byte q, byte r.talkClass, 0] s t) ∧
      t.plan = s.plan ∧ t.tally = s.tally ∧ radioKept s t)

/-- The timers of talk. TALKER_ENTRY_EXPIRY (R161): the peer talker leaves its line's list. TALK_REFRESH_EXPIRY (R162) and
FOLLOW_REFRESH_EXPIRY (R164): the port's talk, or its follow talk, is announced again and its refresh timer restarts. -/
def Obligations.TalkTimers : Prop :=
  (∀ (n : Fin 16) (station port : Nat) (x : Talker) (d : Nat) (s : State),
    s.talker n station port = some x → x.expiry = some d →
    ∃ t : State, exec (.talkerEntryExpiry n station port) s = .next t ∧ stationKept s t ∧ t.now = max s.now d ∧
      (∀ y ∈ t.tbk.lines[n].talkers, y ∈ (s.line n).talkers ∧ ¬(y.station = station ∧ y.port = port)) ∧
      (∀ y ∈ (s.line n).talkers, y.station ≠ s.station → ¬(y.station = station ∧ y.port = port) →
        y ∈ t.tbk.lines[n].talkers) ∧
      t.tbk.lines[n].roster = (s.line n).roster ∧ t.tbk.lines[n].overfull = (s.line n).overfull ∧
      (∀ k : Fin 16, k ≠ n → t.tbk.lines[k] = s.tbk.lines[k]) ∧ t.tbk.calls = s.tbk.calls ∧
      t.tbk.follows = s.tbk.follows ∧ t.plan = s.plan ∧ t.tally = s.tally ∧ radioKept s t) ∧
  (∀ (q : Fin 12) (r : TbPort) (n : Fin 16) (key : KeyId) (d : Nat) (s : State), s.phase = .active →
    s.tbPort q = some r → r.talkRefresh = some d → r.talk = .talking n key →
    ∃ t : State, exec (.talkRefreshExpiry q) s = .next t ∧ stationKept s t ∧ t.now = max s.now d ∧
      t.tbk.ports = s.tbk.ports.set q (some { r with talkRefresh := some (max s.now d + 500000) }) ∧
      t.tbk.lines = s.tbk.lines ∧ t.tbk.calls = s.tbk.calls ∧ t.plan = s.plan ∧ t.lsup = s.lsup ∧
      t.tally = s.tally ∧ radioKept s t ∧
      (s.biu.queue.length < 16 → waits false .talk [byte n, byte q, byte r.talkClass, 1] s t)) ∧
  (∀ (q : Fin 12) (r : TbPort) (f : FollowState) (d : Nat) (s : State), s.phase = .active →
    s.tbPort q = some r → r.followRefresh = some d → r.follow = some f →
    ∃ t : State, exec (.followRefreshExpiry q) s = .next t ∧ stationKept s t ∧ t.now = max s.now d ∧
      t.tbk.ports = s.tbk.ports.set q (some { r with followRefresh := some (max s.now d + 500000) }) ∧
      t.tbk.lines = s.tbk.lines ∧ t.tbk.calls = s.tbk.calls ∧ t.plan = s.plan ∧ t.lsup = s.lsup ∧
      t.tally = s.tally ∧ radioKept s t ∧
      (s.biu.queue.length < 16 → waits false .followTalk [byte (f.layer.val + 1), byte f.input, byte q, 1] s t))

/-- The timers of a call, and the lines of TBK and MGMT. RING_TIMER_EXPIRY and CALL_EXPIRY (R172, R174): the call ends with
NO_ANSWER or LOST, a CALL_END goes out, a circuit USED by its caller is FREE, and a port with a call lamp shows the refusal
indication. KEEP_TIMER_EXPIRY (R167, R168, R171): the ring or the keep goes out again, the circuit's usage and the timer
restart. CROSSPOINT_UPDATE_SENT (R176): on a free line, where no update can end, it has no effect (DESIGN CHOICE, log 9);
the line is free, and an entry changed meanwhile is pending again. TASK_TIMER_EXPIRY (R134, R181): the long task is answered
TIMED_OUT and its relocation goes on without it. -/
def Obligations.CallTimersAndLines : Prop :=
  (∀ (k : Fin 4) (c : CallRec) (d : Nat) (lost : Bool) (s : State), s.phase = .active → s.call k = some c →
    (if lost then c.callExpiry else c.ringTimer) = some d →
    ∃ t : State, exec (if lost then .callExpiry k else .ringTimerExpiry k) s = .next t ∧ stationKept s t ∧
      t.now = max s.now d ∧ t.tbk.calls = s.tbk.calls.set k none ∧
      (∀ u : CircuitUse, s.tbk.circuits[c.circuit] = some u → u.caller = c.callerOf s.station →
        t.tbk.circuits = s.tbk.circuits.set c.circuit none) ∧
      (∀ r : TbPort, s.tbPort c.port = some r → r.callLamp.isSome = true →
        t.tbk.ports = s.tbk.ports.set c.port (some { r with indication := some (max s.now d + 2000000) })) ∧
      (s.biu.queue.length < 16 → waits true .callEnd
        [byte (c.callerOf s.station).1, byte (c.callerOf s.station).2, byte (c.calleeOf s.station).1,
         byte (c.calleeOf s.station).2, byte (c.circuit.val + 17), if lost then 4 else 3] s t) ∧
      t.tbk.lines = s.tbk.lines ∧ t.tbk.follows = s.tbk.follows ∧ t.plan = s.plan ∧ t.tally = s.tally ∧
      radioKept s t) ∧
  (∀ (k : Fin 4) (c : CallRec) (d : Nat) (s : State), s.phase = .active → s.call k = some c → c.keepTimer = some d →
    c.state ≠ .ringingIn →
    ∃ t : State, exec (.keepTimerExpiry k) s = .next t ∧ stationKept s t ∧ t.now = max s.now d ∧
      t.tbk.calls = s.tbk.calls.set k (some { c with keepTimer := some (max s.now d + 2000000) }) ∧
      t.tbk.circuits = s.tbk.circuits.set c.circuit
        (some { caller := c.callerOf s.station, expiry := max s.now d + 6000000 }) ∧
      (s.biu.queue.length < 16 → waits (decide (c.state = .ringingOut))
        (if c.state = .ringingOut then .callRing else .callKeep)
        [byte (c.callerOf s.station).1, byte (c.callerOf s.station).2, byte (c.calleeOf s.station).1,
         byte (c.calleeOf s.station).2, byte (c.circuit.val + 17), 0] s t) ∧
      t.tbk.ports = s.tbk.ports ∧ t.tbk.lines = s.tbk.lines ∧ t.plan = s.plan ∧ t.tally = s.tally ∧ radioKept s t) ∧
  (∀ s : State, s.tbk.xp.sending = none → exec .crosspointUpdateSent s = .next s.finish) ∧
  (∀ (n : Fin 20) (x : XEntry) (s : State), s.tbk.xp.sending = some (n, x) → exec .crosspointUpdateSent s = .next
    { s with tbk := { s.tbk with xp := { s.tbk.xp with
      sending := none, again := false,
      pending := if s.tbk.xp.again then s.tbk.xp.pending ++ [n] else s.tbk.xp.pending } } }.finish) ∧
  (∀ (x : LongTask) (s : State), s.phase = .active → s.mgmt.longTask = some x →
    ∃ t : State, exec .taskTimerExpiry s = .next t ∧ stationKept s t ∧ t.now = max s.now x.timer ∧
      t.mgmt.longTask = none ∧ t.mgmt.recent = s.mgmt.recent ∧
      (∀ (y : LinkRec) (r : Reloc), s.link x.link = some y → y.reloc = some r → t.lsup = { s.lsup with
          links := s.lsup.links.set x.link (some { y with reloc := some { r with task := false } }) }) ∧
      t.plan = s.plan ∧ t.tally = s.tally ∧ talkKept s t ∧ radioKept s t ∧
      (s.biu.queue.length < 16 → ∃ e ∈ t.biu.queue, e.urgent = false ∧ e.bulletin =
        { kind := 0x41, origin := byte s.station, target := byte x.origin, hopPrio := byte s.image.hops,
          body := [byte x.tag, x.code.code, 3] }))
end

