-- ==== Sys2Proof/Laws/Arrival.lean ====
section
/-! SUPPORT. What the steps of the receive path around a block's own handling (R6) can do: the steps before dispatch, and
the captures after it. A statement about a received bulletin reads the blocks through these two. -/

namespace Sys2Proof.Machine

/-- What the steps before dispatch leave alone: every block, and of BIU and MGMT all but the port, the origin table, the
forward queues, the counters and the capture rules' marks. -/
structure Arrived (s t : State) : Prop where
  now       : t.now = s.now
  phase     : t.phase = s.phase
  resetHeld : t.resetHeld = s.resetHeld
  faultLine : t.faultLine = s.faultLine
  pins      : t.pins = s.pins
  cfg       : t.cfg = s.cfg
  pending   : t.pending = s.pending
  plan      : t.plan = s.plan
  rport     : t.rport = s.rport
  lsup      : t.lsup = s.lsup
  tally     : t.tally = s.tally
  tbk       : t.tbk = s.tbk
  queue     : t.biu.queue = s.biu.queue
  nextAge   : t.biu.nextAge = s.biu.nextAge
  roster    : t.biu.roster = s.biu.roster
  presenceTimer : t.biu.presenceTimer = s.biu.presenceTimer
  joinTimer     : t.biu.joinTimer = s.biu.joinTimer
  leaveTimer    : t.biu.leaveTimer = s.biu.leaveTimer
  leaveOffers   : t.biu.leaveOffers = s.biu.leaveOffers
  longTask  : t.mgmt.longTask = s.mgmt.longTask
  recent    : t.mgmt.recent = s.mgmt.recent

/-- What the captures of one bulletin leave alone: all but the queue, which they only lengthen, and MGMT's rules and
counters. -/
structure Captured (s t : State) : Prop where
  now       : t.now = s.now
  phase     : t.phase = s.phase
  resetHeld : t.resetHeld = s.resetHeld
  faultLine : t.faultLine = s.faultLine
  pins      : t.pins = s.pins
  cfg       : t.cfg = s.cfg
  pending   : t.pending = s.pending
  plan      : t.plan = s.plan
  rport     : t.rport = s.rport
  lsup      : t.lsup = s.lsup
  tally     : t.tally = s.tally
  tbk       : t.tbk = s.tbk
  portA     : t.biu.portA = s.biu.portA
  portB     : t.biu.portB = s.biu.portB
  fwdA      : t.biu.fwdA = s.biu.fwdA
  fwdB      : t.biu.fwdB = s.biu.fwdB
  origins   : t.biu.origins = s.biu.origins
  roster    : t.biu.roster = s.biu.roster
  presenceTimer : t.biu.presenceTimer = s.biu.presenceTimer
  joinTimer     : t.biu.joinTimer = s.biu.joinTimer
  leaveTimer    : t.biu.leaveTimer = s.biu.leaveTimer
  leaveOffers   : t.biu.leaveOffers = s.biu.leaveOffers
  queue     : s.biu.queue <+: t.biu.queue
  longTask  : t.mgmt.longTask = s.mgmt.longTask
  recent    : t.mgmt.recent = s.mgmt.recent

theorem Arrived.refl (s : State) : Arrived s s := by constructor <;> rfl

theorem Arrived.trans {s t u : State} (a : Arrived s t) (b : Arrived t u) : Arrived s u where
  now := b.now.trans a.now
  phase := b.phase.trans a.phase
  resetHeld := b.resetHeld.trans a.resetHeld
  faultLine := b.faultLine.trans a.faultLine
  pins := b.pins.trans a.pins
  cfg := b.cfg.trans a.cfg
  pending := b.pending.trans a.pending
  plan := b.plan.trans a.plan
  rport := b.rport.trans a.rport
  lsup := b.lsup.trans a.lsup
  tally := b.tally.trans a.tally
  tbk := b.tbk.trans a.tbk
  queue := b.queue.trans a.queue
  nextAge := b.nextAge.trans a.nextAge
  roster := b.roster.trans a.roster
  presenceTimer := b.presenceTimer.trans a.presenceTimer
  joinTimer := b.joinTimer.trans a.joinTimer
  leaveTimer := b.leaveTimer.trans a.leaveTimer
  leaveOffers := b.leaveOffers.trans a.leaveOffers
  longTask := b.longTask.trans a.longTask
  recent := b.recent.trans a.recent

theorem Captured.refl (s : State) : Captured s s := by
  constructor <;> rfl

theorem Captured.trans {s t u : State} (a : Captured s t) (b : Captured t u) : Captured s u where
  now := b.now.trans a.now
  phase := b.phase.trans a.phase
  resetHeld := b.resetHeld.trans a.resetHeld
  faultLine := b.faultLine.trans a.faultLine
  pins := b.pins.trans a.pins
  cfg := b.cfg.trans a.cfg
  pending := b.pending.trans a.pending
  plan := b.plan.trans a.plan
  rport := b.rport.trans a.rport
  lsup := b.lsup.trans a.lsup
  tally := b.tally.trans a.tally
  tbk := b.tbk.trans a.tbk
  portA := b.portA.trans a.portA
  portB := b.portB.trans a.portB
  fwdA := b.fwdA.trans a.fwdA
  fwdB := b.fwdB.trans a.fwdB
  origins := b.origins.trans a.origins
  roster := b.roster.trans a.roster
  presenceTimer := b.presenceTimer.trans a.presenceTimer
  joinTimer := b.joinTimer.trans a.joinTimer
  leaveTimer := b.leaveTimer.trans a.leaveTimer
  leaveOffers := b.leaveOffers.trans a.leaveOffers
  queue := a.queue.trans b.queue
  longTask := b.longTask.trans a.longTask
  recent := b.recent.trans a.recent

/-! ## The steps before dispatch -/

theorem State.count_arrived (ev : Event) (n : Option Nat) (s : State) : Arrived s (s.count ev n) := by
  constructor <;> rfl

theorem State.setPort_arrived (p : BusPort) (st : PortState) (s : State) : Arrived s (s.setPort p st) := by
  cases p <;> constructor <;> rfl

theorem State.learn_arrived (p : BusPort) (b : Bulletin) (s : State) : Arrived s (s.learn p b) := by
  unfold State.learn
  repeat' split
  all_goals constructor <;> rfl

theorem State.forward_arrived (p : BusPort) (b : Bulletin) (s : State) : Arrived s (s.forward p b) := by
  unfold State.forward State.forwardTo
  repeat' split
  all_goals first
    | exact State.count_arrived _ _ _
    | exact Arrived.refl s
    | cases p <;> constructor <;> rfl

theorem State.captureHook_arrived (b : Bulletin) (s : State) : Arrived s (s.captureHook b) := by
  constructor <;> rfl

/-- Duplicate-station detection concerns no other station's bulletin (R20). -/
theorem State.detectDuplicate_foreign {b : Bulletin} {s : State} (h : s.isOwn b = false) : s.detectDuplicate b = s := by
  simp [State.detectDuplicate, h]

/-! ## The captures -/

/-- An offer with no key, of NORMAL priority, adds an entry or is refused: nothing leaves the queue. -/
theorem State.offer_plain {o : Offer} (hk : o.key = none) (hu : o.urgent = false) (s : State) :
    Captured s (s.offer o).1 ∧ ((s.offer o).1.mgmt.rules = s.mgmt.rules) := by
  have hd : s.dropSuperseded o = s := by
    simp [State.dropSuperseded, Offer.supersedes, hk, State.setQueue]
  have hq : s.queued o.key = none := by simp [State.queued, hk]
  unfold State.offer
  simp only [hd, hq]
  unfold State.addEntry
  rw [if_neg (c := o.urgent = true) (by simp [hu])]
  repeat' split
  all_goals first
    | exact ⟨Captured.refl s, rfl⟩
    | (refine ⟨?_, rfl⟩; constructor <;> first | rfl | exact List.prefix_append _ _)

theorem State.makeCapture_captured (b : Bulletin) (d : Disposition) (k : Fin 4) (s : State) :
    Captured s (State.makeCapture b d s k) := by
  unfold State.makeCapture
  dsimp only
  generalize ho : ({ kind := .capture, urgent := false, target := _, body := _, key := none, block := .mgmt,
                     ticket := .capture k } : Offer) = o
  have h := (State.offer_plain (o := o) (by rw [← ho]) (by rw [← ho]) s).1
  refine h.trans ?_
  constructor <;> rfl

theorem State.captures_captured (b : Bulletin) (d : Disposition) (l : List (Fin 4)) (s : State) :
    Captured s (l.foldl (State.makeCapture b d) s) := by
  induction l generalizing s with
  | nil => exact Captured.refl s
  | cons k l ih => exact (State.makeCapture_captured b d k s).trans (ih _)

/-! ## The receive path around a block -/

/-- A bulletin of another station that a port hears: some steps, the dispatch, and some captures. -/
theorem State.receive_foreign {p : BusPort} {k : Kind} {rx : Rx} {s : State} (hp : s.hears p = true)
    (ha : rx.acceptable = true) (ho : rx.origin.toNat ≠ s.station) :
    ∃ u once, Arrived s u ∧ s.receive p k rx =
      List.foldl (State.makeCapture (rx.bulletin k) (u.dispatch (rx.bulletin k)).2) (u.dispatch (rx.bulletin k)).1 once := by
  have acc : rx.accept k = some (rx.bulletin k) := by simp [Rx.accept, ha]
  let v := (s.setPort p (s.biu.port p).ended).count .rxAccepted (some (Bulletin.length (rx.bulletin k)))
  have av : Arrived s v := (State.setPort_arrived p _ s).trans (State.count_arrived _ _ _)
  have al := av.trans (State.learn_arrived p (rx.bulletin k) v)
  have hown : (v.learn p (rx.bulletin k)).isOwn (rx.bulletin k) = false := by
    have : (v.learn p (rx.bulletin k)).station = s.station := by simp [State.station, State.image, al.cfg]
    unfold State.isOwn
    rw [this]
    simpa [Rx.bulletin] using ho
  have af := al.trans (State.forward_arrived p (rx.bulletin k) _)
  refine ⟨_, State.onceHits (rx.bulletin k) ((v.learn p (rx.bulletin k)).forward p (rx.bulletin k)), af.trans (State.captureHook_arrived (rx.bulletin k) _), ?_⟩
  show s.heardRun p _ (rx.accept k) = _
  rw [acc]
  unfold State.heardRun
  rw [if_pos hp]
  show v.receivePath p (rx.bulletin k) = _
  unfold State.receivePath
  rw [State.detectDuplicate_foreign hown]

/-- A bulletin that passes the target test goes to the block of its kind (R22). -/
theorem State.dispatch_deliver {k : Kind} {rx : Rx} {u : State} (ho : rx.origin.toNat ≠ u.station)
    (ht : rx.target = 0 ∨ rx.target.toNat = u.station) :
    u.dispatch (rx.bulletin k) = u.deliver k (rx.bulletin k) := by
  have hown : u.isOwn (rx.bulletin k) = false := by simp [State.isOwn, Rx.bulletin, ho]
  have hk : Kind.ofCode (rx.bulletin k).kind = some k := by cases k <;> rfl
  have ht' : ¬ ((rx.bulletin k).target ≠ 0 ∧ (rx.bulletin k).target.toNat ≠ u.station) := by
    rintro ⟨h1, h2⟩
    rcases ht with h | h
    · exact h1 h
    · exact h2 h
  unfold State.dispatch
  rw [if_neg (by simp [hown]), if_neg ht', hk]

/-- A bulletin of another station that a port hears and that is for this station: its block takes it as the station
stands, and captures follow. -/
theorem State.receive_deliver {p : BusPort} {k : Kind} {rx : Rx} {s : State} (hp : s.hears p = true)
    (ha : rx.acceptable = true) (ho : rx.origin.toNat ≠ s.station) (ht : rx.target = 0 ∨ rx.target.toNat = s.station) :
    ∃ u v, Arrived s u ∧ Captured (u.deliver k (rx.bulletin k)).1 v ∧ s.receive p k rx = v := by
  obtain ⟨u, once, au, he⟩ := State.receive_foreign (k := k) hp ha ho
  have hs : u.station = s.station := by simp [State.station, State.image, au.cfg]
  rw [State.dispatch_deliver (by rw [hs]; exact ho) (by rw [hs]; exact ht)] at he
  exact ⟨u, _, au, State.captures_captured _ _ _ _, he⟩

end Sys2Proof.Machine
end

