-- ==== Sys2Proof/Laws/Evolves.lean ====
section
/-! SUPPORT. What one shared operation can do to the station, said once: it keeps the station's own part, keeps the bounds
of the queues, keeps a quiet station quiet, and writes only the blocks it is allowed to write. -/

namespace Sys2Proof.Machine

/-- The blocks an operation may write, beside BIU, LSUP and MGMT, which every offer may reach. -/
structure Writes where
  /-- The own plan entries, or more of PLAN. -/
  plan  : Bool
  /-- PLAN's replica: the peer entries, the quarantine list and the overfull condition. -/
  replica : Bool := true
  rport : Bool
  tally : Bool
  tbk   : Bool

/-- What every operation inside an event leaves of the state it starts from. -/
structure Evolves (w : Writes) (s t : State) : Prop where
  now         : t.now = s.now
  phase       : t.phase = s.phase
  resetHeld   : t.resetHeld = s.resetHeld
  faultLine   : t.faultLine = s.faultLine
  pins        : t.pins = s.pins
  cfg         : t.cfg = s.cfg
  pending     : t.pending = s.pending
  joinTimer   : t.biu.joinTimer = s.biu.joinTimer
  leaveTimer  : t.biu.leaveTimer = s.biu.leaveTimer
  leaveOffers : t.biu.leaveOffers = s.biu.leaveOffers
  bound   : s.biu.queue.length ≤ 16 → t.biu.queue.length ≤ 16
  shut    : s.takesOffers = false → t.biu.queue.length ≤ s.biu.queue.length
  forward : ∀ p, (s.biu.fwd p).length ≤ 8 → (t.biu.fwd p).length ≤ 8
  quiet   : s.phase ≠ .active → s.Quiet → t.Quiet
  line    : s.biu.LineRight → t.biu.LineRight
  ownLaw  : s.OwnLaw → t.OwnLaw
  replica : w.replica = false → t.plan.peers = s.plan.peers ∧ t.plan.quarantine = s.plan.quarantine ∧
    t.plan.overfull = s.plan.overfull ∧ t.plan.overfullTimer = s.plan.overfullTimer
  plan  : w.plan = false → t.plan = s.plan
  rport : w.rport = false → t.rport = s.rport
  tally : w.tally = false → t.tally = s.tally
  tbk   : w.tbk = false → t.tbk = s.tbk

namespace Evolves

variable {w : Writes} {s t u : State}

theorem refl (w : Writes) (s : State) : Evolves w s s :=
  ⟨rfl, rfl, rfl, rfl, rfl, rfl, rfl, rfl, rfl, rfl, id, fun _ => Nat.le_refl _, fun _ => id, fun _ => id, id, id,
    fun _ => ⟨rfl, rfl, rfl, rfl⟩, fun _ => rfl, fun _ => rfl, fun _ => rfl, fun _ => rfl⟩

theorem takesOffers (h : Evolves w s t) : t.takesOffers = s.takesOffers := by
  simp [State.takesOffers, h.phase, h.leaveOffers]

theorem trans (a : Evolves w s t) (b : Evolves w t u) : Evolves w s u where
  now := b.now.trans a.now
  phase := b.phase.trans a.phase
  resetHeld := b.resetHeld.trans a.resetHeld
  faultLine := b.faultLine.trans a.faultLine
  pins := b.pins.trans a.pins
  cfg := b.cfg.trans a.cfg
  pending := b.pending.trans a.pending
  joinTimer := b.joinTimer.trans a.joinTimer
  leaveTimer := b.leaveTimer.trans a.leaveTimer
  leaveOffers := b.leaveOffers.trans a.leaveOffers
  bound h := b.bound (a.bound h)
  shut h := Nat.le_trans (b.shut (a.takesOffers.trans h)) (a.shut h)
  forward p h := b.forward p (a.forward p h)
  quiet h q := b.quiet (by rw [a.phase]; exact h) (a.quiet h q)
  line h := b.line (a.line h)
  ownLaw h := b.ownLaw (a.ownLaw h)
  replica h :=
    let a := a.replica h
    let b := b.replica h
    ⟨b.1.trans a.1, b.2.1.trans a.2.1, b.2.2.1.trans a.2.2.1, b.2.2.2.trans a.2.2.2⟩
  plan h := (b.plan h).trans (a.plan h)
  rport h := (b.rport h).trans (a.rport h)
  tally h := (b.tally h).trans (a.tally h)
  tbk h := (b.tbk h).trans (a.tbk h)

/-- A fold evolves where its step does. -/
theorem foldl {α : Type} (f : State → α → State) (hf : ∀ t a, Evolves w t (f t a)) (l : List α) (h : Evolves w s t) :
    Evolves w s (l.foldl f t) := by
  induction l generalizing t with
  | nil => exact h
  | cons a l ih => exact ih (h.trans (hf t a))

/-- A fold over states and reports evolves where its step does. -/
theorem foldlFst {α β : Type} (f : State × β → α → State × β) (hf : ∀ t a, Evolves w t.1 (f t a).1) (l : List α)
    (x : State × β) (h : Evolves w s x.1) : Evolves w s (l.foldl f x).1 := by
  induction l generalizing x with
  | nil => exact h
  | cons a l ih => exact ih _ (h.trans (hf x a))

/-! ## Updates of one block -/

theorem mgmt {m : Mgmt} (h : Evolves w s t) : Evolves w s { t with mgmt := m } :=
  h.trans ⟨rfl, rfl, rfl, rfl, rfl, rfl, rfl, rfl, rfl, rfl, id, fun _ => Nat.le_refl _, fun _ => id, fun _ => id, id, id,
    fun _ => ⟨rfl, rfl, rfl, rfl⟩, fun _ => rfl, fun _ => rfl, fun _ => rfl, fun _ => rfl⟩

theorem biu {x : Biu} (h : Evolves w s t) (join : x.joinTimer = t.biu.joinTimer) (leave : x.leaveTimer = t.biu.leaveTimer)
    (offers : x.leaveOffers = t.biu.leaveOffers) (hq : x.queue.length ≤ t.biu.queue.length)
    (hf : ∀ p, (t.biu.fwd p).length ≤ 8 → (x.fwd p).length ≤ 8) (hl : t.biu.LineRight → x.LineRight) :
    Evolves w s { t with biu := x } :=
  h.trans ⟨rfl, rfl, rfl, rfl, rfl, rfl, rfl, join, leave, offers, fun b => Nat.le_trans hq b, fun _ => hq, hf,
    fun _ => id, hl, id, fun _ => ⟨rfl, rfl, rfl, rfl⟩, fun _ => rfl, fun _ => rfl, fun _ => rfl, fun _ => rfl⟩

theorem planBlock {x : Plan} (hw : w.plan = true) (h : Evolves w s t)
    (hx : t.phase ≠ .active → (∀ i : Fin 16, t.plan.own[i] = none) → ∀ i : Fin 16, x.own[i] = none)
    (ho : t.OwnLaw → State.OwnLaw { t with plan := x })
    (hr : w.replica = false → x.peers = t.plan.peers ∧ x.quarantine = t.plan.quarantine ∧
      x.overfull = t.plan.overfull ∧ x.overfullTimer = t.plan.overfullTimer) : Evolves w s { t with plan := x } :=
  h.trans ⟨rfl, rfl, rfl, rfl, rfl, rfl, rfl, rfl, rfl, rfl, id, fun _ => Nat.le_refl _, fun _ => id,
    fun a q => ⟨hx a q.1, q.2⟩, id, ho, hr, fun h => by simp [hw] at h, fun _ => rfl, fun _ => rfl, fun _ => rfl⟩

theorem rportBlock {x : Rport} (hw : w.rport = true) (h : Evolves w s t)
    (hx : t.phase ≠ .active → (∀ a : Fin 8, t.rport.fe[a].state.off = true) → ∀ a : Fin 8, x.fe[a].state.off = true) :
    Evolves w s { t with rport := x } :=
  h.trans ⟨rfl, rfl, rfl, rfl, rfl, rfl, rfl, rfl, rfl, rfl, id, fun _ => Nat.le_refl _, fun _ => id,
    fun a q => ⟨q.1, hx a q.2.1, q.2.2⟩, id, id, fun _ => ⟨rfl, rfl, rfl, rfl⟩, fun _ => rfl, fun h => by simp [hw] at h, fun _ => rfl, fun _ => rfl⟩

theorem lsup {x : Lsup} (h : Evolves w s t)
    (hx : t.phase ≠ .active → (∀ l : Fin 8, (t.lsup.links[l]).bind (·.reloc) = none) →
      ∀ l : Fin 8, (x.links[l]).bind (·.reloc) = none) :
    Evolves w s { t with lsup := x } :=
  h.trans ⟨rfl, rfl, rfl, rfl, rfl, rfl, rfl, rfl, rfl, rfl, id, fun _ => Nat.le_refl _, fun _ => id,
    fun a q => ⟨q.1, q.2.1, hx a q.2.2⟩, id, id, fun _ => ⟨rfl, rfl, rfl, rfl⟩, fun _ => rfl, fun _ => rfl, fun _ => rfl, fun _ => rfl⟩

theorem tallyBlock {x : Tally} (hw : w.tally = true) (h : Evolves w s t) : Evolves w s { t with tally := x } :=
  h.trans ⟨rfl, rfl, rfl, rfl, rfl, rfl, rfl, rfl, rfl, rfl, id, fun _ => Nat.le_refl _, fun _ => id, fun _ => id, id, id,
    fun _ => ⟨rfl, rfl, rfl, rfl⟩, fun _ => rfl, fun _ => rfl, fun h => by simp [hw] at h, fun _ => rfl⟩

theorem tbkBlock {x : Tbk} (hw : w.tbk = true) (h : Evolves w s t) : Evolves w s { t with tbk := x } :=
  h.trans ⟨rfl, rfl, rfl, rfl, rfl, rfl, rfl, rfl, rfl, rfl, id, fun _ => Nat.le_refl _, fun _ => id, fun _ => id, id, id,
    fun _ => ⟨rfl, rfl, rfl, rfl⟩, fun _ => rfl, fun _ => rfl, fun _ => rfl, fun h => by simp [hw] at h⟩

end Evolves
end Sys2Proof.Machine
end

