-- ==== Sys2Proof/Laws/EvolvesPlan.lean ====
section
/-! SUPPORT. The operations of the transmit queue, the radio port and the plan evolve the station (Laws/Evolves.lean). -/

namespace Sys2Proof.Machine

variable {w : Writes} {s t : State}

/-! ## The transmit queue -/

@[simp] theorem State.count_evolves {ev : Event} {n : Option Nat} (h : Evolves w s t) : Evolves w s (t.count ev n) := h.mgmt

@[simp] theorem State.captureHook_evolves {b : Bulletin} (h : Evolves w s t) : Evolves w s (t.captureHook b) := h.mgmt

theorem Biu.fwd_setPort (x : Biu) (p q : BusPort) (st : PortState) : (x.setPort p st).fwd q = x.fwd q := by
  cases p <;> cases q <;> rfl

@[simp] theorem State.setPort_evolves {p : BusPort} {st : PortState} (h : Evolves w s t) : Evolves w s (t.setPort p st) := by
  cases p <;> exact h.biu rfl rfl rfl (Nat.le_refl _) (fun q => by cases q <;> exact id) id

theorem State.setFwd_evolves {p : BusPort} {q : List FwdEntry} (hq : (t.biu.fwd p).length ≤ 8 → q.length ≤ 8)
    (h : Evolves w s t) : Evolves w s (t.setFwd p q) := by
  cases p <;> exact h.biu rfl rfl rfl (Nat.le_refl _) (fun q => by cases q <;> first | exact id | exact hq) id

theorem State.setQueue_evolves {q : List QueueEntry} (hq : q.length ≤ t.biu.queue.length)
    (hl : t.biu.LineRight → Biu.LineRight { t.biu with queue := q }) (h : Evolves w s t) : Evolves w s (t.setQueue q) :=
  h.biu rfl rfl rfl hq (fun _ => id) hl

theorem Biu.LineRight.filter {x : Biu} (p : QueueEntry → Bool) (h : x.LineRight) :
    Biu.LineRight { x with queue := x.queue.filter p } :=
  ⟨h.1.filter p, fun e he => h.2.1 e (List.mem_of_mem_filter he), h.2.2.filter p⟩

theorem Biu.LineRight.map {x : Biu} {f : QueueEntry → QueueEntry} (hf : ∀ e, (f e).age = e.age ∧ (f e).key = e.key)
    (h : x.LineRight) : Biu.LineRight { x with queue := x.queue.map f } := by
  refine ⟨?_, fun e he => ?_, ?_⟩
  · simpa [List.pairwise_map, hf] using h.1
  · obtain ⟨y, hy, rfl⟩ := List.mem_map.mp he
    rw [(hf y).1]
    exact h.2.1 y hy
  · simpa [List.pairwise_map, hf] using h.2.2

/-- A new entry takes the next age (R8), and its key is not in the queue (R9). -/
theorem Biu.LineRight.append {x : Biu} {n : QueueEntry} (ha : n.age = x.nextAge)
    (hk : ∀ e ∈ x.queue, e.key.isSome = true → e.key ≠ n.key) (h : x.LineRight) :
    Biu.LineRight { x with queue := x.queue ++ [n], nextAge := x.nextAge + 1 } := by
  refine ⟨List.pairwise_append.mpr ⟨h.1, List.pairwise_singleton _ _, fun e he f hf => ?_⟩, fun e he => ?_,
    List.pairwise_append.mpr ⟨h.2.2, List.pairwise_singleton _ _, fun e he f hf => ?_⟩⟩
  · rw [List.mem_singleton.mp hf, ha]
    exact h.2.1 e he
  · rcases List.mem_append.mp he with he | he
    · exact Nat.lt_succ_of_lt (h.2.1 e he)
    · rw [List.mem_singleton.mp he, ha]
      exact Nat.lt_succ_self _
  · rw [List.mem_singleton.mp hf]
    exact hk e he

/-- Two entries with one subject key are one entry. -/
theorem Biu.LineRight.unique {x : Biu} (h : x.LineRight) {e f : QueueEntry} (he : e ∈ x.queue) (hf : f ∈ x.queue)
    (hs : e.key.isSome = true) (hk : e.key = f.key) : e = f := by
  by_contra hne
  have : Std.Symm fun e f : QueueEntry => e.key.isSome = true → e.key ≠ f.key :=
    ⟨fun a b hab hb hba => hab (hba ▸ hb) hba.symm⟩
  exact h.2.2.forall he hf hne hs hk

@[simp] theorem State.filterQueue_evolves {p : QueueEntry → Bool} (h : Evolves w s t) :
    Evolves w s (t.setQueue (t.biu.queue.filter p)) :=
  State.setQueue_evolves (List.length_filter_le _ _) (fun hl => hl.filter p) h

theorem State.mapQueue_evolves {f : QueueEntry → QueueEntry} (hf : ∀ e, (f e).age = e.age ∧ (f e).key = e.key)
    (h : Evolves w s t) : Evolves w s (t.setQueue (t.biu.queue.map f)) :=
  State.setQueue_evolves (by simp) (fun hl => hl.map hf) h

@[simp] theorem State.removeQueued_evolves {age : Nat} (h : Evolves w s t) : Evolves w s (t.removeQueued age) := by
  simp [State.removeQueued, h]

@[simp] theorem State.dropSuperseded_evolves {o : Offer} (h : Evolves w s t) : Evolves w s (t.dropSuperseded o) := by
  simp [State.dropSuperseded, h]

@[simp] theorem State.replaceQueued_evolves {age : Nat} {o : Offer} (h : Evolves w s t) :
    Evolves w s (t.replaceQueued age o) :=
  State.mapQueue_evolves (fun e => by split <;> exact ⟨rfl, rfl⟩) h

theorem State.modLink_evolves {l : Fin 8} {f : LinkRec → LinkRec}
    (hf : ∀ x, t.phase ≠ .active → x.reloc = none → (f x).reloc = none)
    (h : Evolves w s t) : Evolves w s (t.modLink l f) := by
  unfold State.modLink
  split
  · rename_i r hr
    refine h.lsup fun ha q k => ?_
    by_cases e : l = k
    · subst e
      have := q l
      have hr' : t.lsup.links[l] = some r := hr
      rw [hr'] at this
      simpa using hf r ha this
    · have : (l : Nat) ≠ k := fun h => e (Fin.ext h)
      simpa [Vector.getElem_set, this] using q k
  · exact h

@[simp] theorem State.sightingRefused_evolves {l : Fin 8} {sp : Span} {bad : Bool} (h : Evolves w s t) :
    Evolves w s (t.sightingRefused l sp bad) :=
  State.modLink_evolves (fun x _ hx => by split <;> exact hx) h

@[simp] theorem State.captureReport_evolves {k : Fin 4} {age : Nat} {d : Delivery} (h : Evolves w s t) :
    Evolves w s (t.captureReport k age d) := by
  unfold State.captureReport
  dsimp only
  split
  · split
    · exact h.mgmt
    · exact h
  · exact h

@[simp] theorem State.reportEvicted_evolves {e : QueueEntry} (h : Evolves w s t) : Evolves w s (t.reportEvicted e) := by
  unfold State.reportEvicted
  split <;> (try split) <;> simp [h]

@[simp] theorem State.evict_evolves {e : QueueEntry} (h : Evolves w s t) : Evolves w s (t.evict e) := by
  simp (maxDischargeDepth := 30) [State.evict, h]

@[simp] theorem State.refuseOffer_evolves {o : Offer} (h : Evolves w s t) : Evolves w s (t.refuseOffer o) := by
  simp [State.refuseOffer, h]

/-- No entry of the queue has the subject key of an offer. -/
def State.keyFree (o : Offer) (s : State) : Prop := ∀ e ∈ s.biu.queue, e.key.isSome = true → e.key ≠ o.key

theorem State.appendEntry_evolves {o : Offer} (ho : t.takesOffers = true)
    (hl : s.biu.queue.length ≤ 16 → t.biu.queue.length < 16) (hk : s.biu.LineRight → t.keyFree o) (h : Evolves w s t) :
    Evolves w s (t.appendEntry o) where
  now := h.now
  phase := h.phase
  resetHeld := h.resetHeld
  faultLine := h.faultLine
  pins := h.pins
  cfg := h.cfg
  pending := h.pending
  joinTimer := h.joinTimer
  leaveTimer := h.leaveTimer
  leaveOffers := h.leaveOffers
  bound b := by simp [State.appendEntry]; have := hl b; omega
  shut b := by rw [← h.takesOffers, ho] at b; cases b
  forward := h.forward
  quiet := h.quiet
  line b := Biu.LineRight.append rfl (hk b) (h.line b)
  ownLaw := h.ownLaw
  replica := h.replica
  plan := h.plan
  rport := h.rport
  tally := h.tally
  tbk := h.tbk

theorem State.evict_queue (e : QueueEntry) (s : State) :
    (s.evict e).biu.queue = s.biu.queue.filter fun x => x.age != e.age := by
  unfold State.evict State.reportEvicted State.removeQueued State.sightingRefused State.modLink State.captureReport
  dsimp only
  repeat' split
  all_goals rfl

theorem State.victim_mem {s : State} {v : QueueEntry} (h : s.victim = some v) : v ∈ s.biu.queue :=
  List.mem_of_mem_filter (List.mem_of_getLast? h)

theorem State.evict_lt {v : QueueEntry} (hv : v ∈ s.biu.queue) : (s.evict v).biu.queue.length < s.biu.queue.length := by
  rw [State.evict_queue]
  exact List.length_filter_lt_length_iff_exists.mpr ⟨v, hv, by simp⟩

theorem State.addEntry_evolves {o : Offer} (ho : t.takesOffers = true) (hk : s.biu.LineRight → t.keyFree o)
    (h : Evolves w s t) : Evolves w s (t.addEntry o).1 := by
  unfold State.addEntry
  split
  · rename_i hl
    exact State.appendEntry_evolves ho (fun _ => hl) hk h
  · split
    · split
      · rename_i v hv
        have he : Evolves w s (t.evict v) := State.evict_evolves h
        have := State.evict_lt (State.victim_mem hv)
        exact State.appendEntry_evolves ((State.evict_evolves (Evolves.refl w t)).takesOffers.trans ho)
          (fun b => by have := h.bound b; omega)
          (fun hl e hm => hk hl e (by rw [State.evict_queue] at hm; exact List.mem_of_mem_filter hm)) he
      · exact State.refuseOffer_evolves h
    · exact State.refuseOffer_evolves h

/-- An offer (R8, R9, R11) writes the queue, the counters, a held capture's delivery and a link's last announced state. -/
@[simp] theorem State.offer_evolves {o : Offer} (h : Evolves w s t) : Evolves w s (t.offer o).1 := by
  refine h.trans ?_
  unfold State.offer
  split
  · rename_i ho
    have hd : Evolves w t (t.dropSuperseded o) := State.dropSuperseded_evolves (Evolves.refl w t)
    have key (u : State) (hu : Evolves w t u) (hk : t.biu.LineRight → u.keyFree o) : Evolves w t (u.addEntry o).1 :=
      State.addEntry_evolves (hu.takesOffers.trans ho) hk hu
    dsimp only
    split
    · rename_i e he
      have hm := List.mem_of_find?_eq_some he
      have hp := List.find?_some he
      simp only [Bool.and_eq_true, beq_iff_eq] at hp
      split
      · refine key _ (State.removeQueued_evolves hd) fun hl f hf hs hfk => ?_
        have hf' := List.mem_filter.mp hf
        have hfe : f = e := (hd.line hl).unique hf'.1 hm hs (hfk.trans hp.2.symm)
        simp [hfe] at hf'
      · exact State.replaceQueued_evolves hd
    · rename_i hn
      refine key _ hd fun _ f hf hs hfk => ?_
      have := List.find?_eq_none.mp hn f hf
      rw [← hfk, hs] at this
      simp at this
  · exact Evolves.refl w t

@[simp] theorem State.offered_evolves {o : Offer} (h : Evolves w s t) : Evolves w s (t.offered o) := State.offer_evolves h

@[simp] theorem State.reply_evolves {urgent : Bool} {origin tag : Nat} {code : Byte} {ret : ReturnCode} {data : List Byte}
    (h : Evolves w s t) : Evolves w s (t.reply urgent origin tag code ret data) := State.offered_evolves h

/-! ## The radio port -/

theorem State.setFe_evolves {a : Fin 8} {r : FrontEnd} (hr : w.rport = true)
    (ha : t.phase ≠ .active → t.rport.fe[a].state.off = true → r.state.off = true)
    (h : Evolves w s t) : Evolves w s (t.setFe a r) := by
  refine h.rportBlock hr fun hp q k => ?_
  by_cases e : a = k
  · subst e; simpa using ha hp (q a)
  · have : (a : Nat) ≠ k := fun h => e (Fin.ext h)
    simpa [Vector.getElem_set, this] using q k

@[simp] theorem State.queueCmd_evolves {c : RadioCmd} (hr : w.rport = true) (h : Evolves w s t) :
    Evolves w s (t.queueCmd c) := h.rportBlock hr fun _ => id

@[simp] theorem State.mapCmds_evolves {f : RadioCmd → RadioCmd} (hr : w.rport = true) (h : Evolves w s t) :
    Evolves w s (t.mapCmds f) := h.rportBlock hr fun _ => id

@[simp] theorem State.dropCmds_evolves {p : RadioCmd → Bool} (hr : w.rport = true) (h : Evolves w s t) :
    Evolves w s (t.dropCmds p) := h.rportBlock hr fun _ => id

@[simp] theorem State.withdrawTune_evolves {a : Fin 8} (hr : w.rport = true) (h : Evolves w s t) :
    Evolves w s (t.withdrawTune a) := State.dropCmds_evolves hr h

@[simp] theorem State.queueMute_evolves {a : Fin 8} (hr : w.rport = true) (h : Evolves w s t) :
    Evolves w s (t.queueMute a) := by
  unfold State.queueMute; split <;> simp [h, hr]

@[simp] theorem State.muteLine_evolves {a : Fin 8} (hr : w.rport = true) (h : Evolves w s t) :
    Evolves w s (t.muteLine a) := by
  unfold State.muteLine; repeat' split
  all_goals simp [h, hr]

theorem FrontEnd.muted_off (r : FrontEnd) : r.muted.state.off = true := by
  unfold FrontEnd.muted; split <;> simp_all [CmdState.off]

@[simp] theorem State.mute_evolves {a : Fin 8} (hr : w.rport = true) (h : Evolves w s t) : Evolves w s (t.mute a) :=
  State.setFe_evolves hr (fun _ _ => FrontEnd.muted_off _) (State.muteLine_evolves hr h)

@[simp] theorem State.tune_evolves {a : Fin 8} {sp : Span} (hr : w.rport = true) (h : Evolves w s t) :
    Evolves w s (t.tune a sp).1 := by
  unfold State.tune
  split
  · rename_i hp
    split <;>
      first
      | exact State.queueCmd_evolves hr (State.setFe_evolves hr (fun hn _ => absurd hp hn) h)
      | exact h
  · exact h

@[simp] theorem State.lamp_evolves {a : Fin 8} {c : Colour} (hr : w.rport = true) (h : Evolves w s t) :
    Evolves w s (t.lamp a c) := by
  unfold State.lamp; split <;> simp [h, hr]

@[simp] theorem State.takeMailbox_evolves {a : Fin 8} (hr : w.rport = true) (h : Evolves w s t) :
    Evolves w s (t.takeMailbox a).1 := State.setFe_evolves hr (fun _ x => x) h

@[simp] theorem State.tuneFrameSent_evolves {a : Fin 8} {n : Nat} (hr : w.rport = true) (h : Evolves w s t) :
    Evolves w s (t.tuneFrameSent a n) := by
  unfold State.tuneFrameSent
  dsimp only
  split
  · split
    · exact State.setFe_evolves hr (fun _ x => x) h
    · exact h
  all_goals exact h

@[simp] theorem State.commandSent_evolves (hr : w.rport = true) (h : Evolves w s t) : Evolves w s t.commandSent := by
  unfold State.commandSent
  split
  · exact h
  · have h' := h.rportBlock (x := { t.rport with sending := none }) hr fun _ => id
    dsimp only
    split
    · exact State.tuneFrameSent_evolves hr h'
    all_goals exact h'

/-! ## The plan table -/

@[simp] theorem State.setPeer_evolves {j : Fin 96} {e : Option PeerEntry} (hp : w.plan = true) (hq : w.replica = true) (h : Evolves w s t) :
    Evolves w s (t.setPeer j e) := h.planBlock hp (fun _ => id) id fun h => by simp [hq] at h

/-- A later form of an own entry: the same span and link, and the same standing unless it has become HELD. -/
def OwnEntry.Keeps (e e' : OwnEntry) : Prop :=
  e'.span = e.span ∧ e'.link = e.link ∧ (e'.standing = e.standing ∨ e'.standing = .held)

/-- The law of R63 holds where every own entry is a later form of the one its slot held before. -/
theorem State.OwnLaw.of_keeps (hc : t.cfg = s.cfg)
    (hk : ∀ i e', t.ownEntry i = some e' → ∃ e, s.ownEntry i = some e ∧ e.Keeps e') (h : s.OwnLaw) : t.OwnLaw := by
  have hcon (x y : Span) : t.conflicts x y = s.conflicts x y := by simp [State.conflicts, State.guard, State.image, hc]
  refine ⟨fun i j k e f g he hf hg h1 h2 => ?_, fun i j e f he hf h1 h2 h3 => ?_, fun i j e f he hf h1 => ?_⟩
  · obtain ⟨e₀, he₀, ke⟩ := hk i e he
    obtain ⟨f₀, hf₀, kf⟩ := hk j f hf
    obtain ⟨g₀, hg₀, kg⟩ := hk k g hg
    exact h.1 i j k e₀ f₀ g₀ he₀ hf₀ hg₀ (by rw [← ke.2.1, ← kf.2.1, h1]) (by rw [← kf.2.1, ← kg.2.1, h2])
  · obtain ⟨e₀, he₀, ke⟩ := hk i e he
    obtain ⟨f₀, hf₀, kf⟩ := hk j f hf
    have hne : e.standing ≠ .held := by rcases h3 with h3 | h3 <;> simp [h3]
    have e1 : e.standing = e₀.standing := ke.2.2.resolve_right hne
    have e2 : f.standing = f₀.standing := kf.2.2.resolve_right (h2 ▸ hne)
    exact h.2.1 i j e₀ f₀ he₀ hf₀ (by rw [← ke.2.1, ← kf.2.1, h1]) (by rw [← e1, ← e2, h2]) (e1 ▸ h3)
  · obtain ⟨e₀, he₀, ke⟩ := hk i e he
    obtain ⟨f₀, hf₀, kf⟩ := hk j f hf
    exact h.2.2 i j e₀ f₀ he₀ hf₀ (by rw [← ke.1, ← kf.1, ← hcon]; exact h1)

theorem State.ownEntry_setOwn (i k : Fin 16) (e : Option OwnEntry) (s : State) :
    (s.setOwn i e).ownEntry k = if i = k then e else s.ownEntry k := by
  simp only [State.setOwn, State.ownEntry, Fin.getElem_fin, Vector.getElem_set]
  by_cases h : i = k
  · simp [h]
  · have : (i : Nat) ≠ k := fun h' => h (Fin.ext h')
    simp [h, this]

theorem State.setOwn_evolves {i : Fin 16} {e : Option OwnEntry} (hp : w.plan = true)
    (he : t.phase ≠ .active → t.ownEntry i = none → e = none) (ho : t.OwnLaw → (t.setOwn i e).OwnLaw)
    (h : Evolves w s t) : Evolves w s (t.setOwn i e) := by
  refine h.planBlock hp (fun ha q k => ?_) ho fun _ => ⟨rfl, rfl, rfl, rfl⟩
  by_cases e' : i = k
  · subst e'; simpa using he ha (q i)
  · have : (i : Nat) ≠ k := fun h => e' (Fin.ext h)
    simpa [Vector.getElem_set, this] using q k

/-- A slot that holds an entry may be written outside ACTIVE too: there is none to write. -/
theorem State.setOwn_some_evolves {i : Fin 16} {e' e : OwnEntry} (hp : w.plan = true)
    (he : t.ownEntry i = some e') (hk : e'.Keeps e) (h : Evolves w s t) : Evolves w s (t.setOwn i (some e)) :=
  State.setOwn_evolves hp (fun _ hn => by simp [he] at hn)
    (State.OwnLaw.of_keeps rfl fun j f hf => by
      rw [State.ownEntry_setOwn] at hf
      split at hf
      · rename_i hij
        obtain rfl := Option.some.inj hf
        exact ⟨e', hij ▸ he, hk⟩
      · exact ⟨f, hf, rfl, rfl, Or.inl rfl⟩) h

@[simp] theorem State.setOwn_none_evolves {i : Fin 16} (hp : w.plan = true) (h : Evolves w s t) :
    Evolves w s (t.setOwn i none) :=
  State.setOwn_evolves hp (fun _ _ => rfl)
    (State.OwnLaw.of_keeps rfl fun j f hf => by
      rw [State.ownEntry_setOwn] at hf
      split at hf
      · simp at hf
      · exact ⟨f, hf, rfl, rfl, Or.inl rfl⟩) h

theorem State.modOwn_evolves {i : Fin 16} {f : OwnEntry → OwnEntry} (hf : ∀ e, OwnEntry.Keeps e (f e)) (hp : w.plan = true)
    (h : Evolves w s t) : Evolves w s (t.modOwn i f) := by
  unfold State.modOwn
  split
  · exact State.setOwn_some_evolves hp (by assumption) (hf _) h
  · exact h

@[simp] theorem State.quarantine_evolves {sp : Span} (hp : w.plan = true) (hq : w.replica = true) (h : Evolves w s t) :
    Evolves w s (t.quarantine sp) := h.planBlock hp (fun _ => id) id fun h => by simp [hq] at h

@[simp] theorem State.takeSighting_evolves {sp : Span} {n : Nat} (hp : w.plan = true) (hq : w.replica = true) (h : Evolves w s t) :
    Evolves w s (t.takeSighting sp n) := by
  unfold State.takeSighting; split <;> simp [h, hp, hq]

@[simp] theorem State.overfullBy_evolves {m n : Nat} (hp : w.plan = true) (hq : w.replica = true) (h : Evolves w s t) :
    Evolves w s (t.overfullBy m n) := (State.count_evolves h).planBlock hp (fun _ => id) id fun h => by simp [hq] at h

@[simp] theorem State.storePeer_evolves {b : Bool} {n m : Nat} {x : PlanBody} (hp : w.plan = true) (hq : w.replica = true) (h : Evolves w s t) :
    Evolves w s (t.storePeer b n x m).1 := by
  unfold State.storePeer
  dsimp only
  repeat' split
  all_goals simp [h, hp, hq]

@[simp] theorem State.removePeer_evolves {n m : Nat} {sp : Span} (hp : w.plan = true) (hq : w.replica = true) (h : Evolves w s t) :
    Evolves w s (t.removePeer n m sp) := by
  unfold State.removePeer; split <;> simp [h, hp, hq]

@[simp] theorem State.removeRivals_evolves {ps : List (Nat × Nat)} {sp : Span} (hp : w.plan = true) (hq : w.replica = true) (h : Evolves w s t) :
    Evolves w s (t.removeRivals ps sp) := h.planBlock hp (fun _ => id) id fun h => by simp [hq] at h

end Sys2Proof.Machine
end

