-- ==== Sys2Proof/Laws/EvolvesClaims.lean ====
section
/-! SUPPORT. The life of the station's own plan entries evolves the station (Laws/Evolves.lean): it writes PLAN, and through
its offers the transmit queue; the radio port, TALLY and TBK are left as they are. -/

namespace Sys2Proof.Machine

variable {w : Writes} {s t : State}

@[simp] theorem State.offerClaim_evolves {u : Bool} {e : OwnEntry} (h : Evolves w s t) :
    Evolves w s (t.offerClaim u e).1 := State.offer_evolves h

theorem State.offer_plan (o : Offer) (s : State) : (s.offer o).1.plan = s.plan :=
  (State.offer_evolves (w := { plan := false, rport := false, tally := false, tbk := false }) (Evolves.refl _ s)).plan rfl

theorem State.offerClaim_plan (u : Bool) (e : OwnEntry) (s : State) : (s.offerClaim u e).1.plan = s.plan :=
  State.offer_plan _ s

@[simp] theorem State.announceHold_evolves {u : Bool} {i : Fin 16} (hp : w.plan = true) (h : Evolves w s t) :
    Evolves w s (t.announceHold u i) := by
  unfold State.announceHold
  split
  · exact h
  · rename_i e he
    dsimp only
    split
    · exact State.setOwn_some_evolves (e' := e) hp (by simp only [State.ownEntry, State.offer_plan]; exact he)
        ⟨rfl, rfl, Or.inl rfl⟩ (State.offer_evolves h)
    · exact State.offer_evolves h

@[simp] theorem State.removeOwn_evolves {i : Fin 16} (hp : w.plan = true) (h : Evolves w s t) :
    Evolves w s (t.removeOwn i) := by
  unfold State.removeOwn; split <;> simp [h, hp]

@[simp] theorem State.yieldRequest_evolves {l : Fin 8} {sp : Span} (hp : w.plan = true) (h : Evolves w s t) :
    Evolves w s (t.yieldRequest l sp) := by
  unfold State.yieldRequest; split <;> simp [h, hp]

@[simp] theorem State.yieldWhere_evolves {l : Fin 8} {p : OwnEntry → Bool} (hp : w.plan = true) (h : Evolves w s t) :
    Evolves w s (t.yieldWhere l p) := by
  refine Evolves.foldl _ (fun u i => ?_) _ h
  have := Evolves.refl w u
  repeat' split
  all_goals simp [this, hp]

@[simp] theorem State.sendFailure_evolves {r : Bool} {i : Fin 16} (hp : w.plan = true) (h : Evolves w s t) :
    Evolves w s (t.sendFailure r i).1 := by
  unfold State.sendFailure
  split
  · exact h
  · rename_i e he
    have hs {e'} (h1 : e'.span = e.span) (h2 : e'.link = e.link) (h3 : e'.standing = e.standing) :
        Evolves w s (t.setOwn i (some e')) := State.setOwn_some_evolves hp he ⟨h1, h2, Or.inl h3⟩ h
    dsimp only
    repeat' split
    all_goals simp (maxDischargeDepth := 30) [hs, h, hp]

/-- An own entry of the list stands in a slot. -/
theorem State.mem_owns {s : State} {e : OwnEntry} : e ∈ s.owns ↔ ∃ i, s.ownEntry i = some e := by
  simp only [State.owns, List.mem_filterMap, Vector.mem_toList_iff, id]
  constructor
  · rintro ⟨x, hx, rfl⟩
    obtain ⟨i, hi, hx⟩ := Vector.mem_iff_getElem.mp hx
    exact ⟨⟨i, hi⟩, hx⟩
  · rintro ⟨i, hi⟩
    exact ⟨some e, hi ▸ Vector.getElem_mem i.isLt, rfl⟩

/-- Two slots with entries of a link make two entries of it in the list. -/
theorem two_of_filterMap {α : Type} (p : α → Bool) (v : List (Option α)) (i j : Nat) (x y : α) (hij : i < j)
    (hx : v[i]? = some (some x)) (hy : v[j]? = some (some y)) (px : p x = true) (py : p y = true) :
    2 ≤ ((v.filterMap id).filter p).length := by
  induction v generalizing i j with
  | nil => simp at hx
  | cons a v ih =>
    obtain ⟨j, rfl⟩ : ∃ k, j = k + 1 := ⟨j - 1, by omega⟩
    rw [List.getElem?_cons_succ] at hy
    cases i with
    | zero =>
      have ha : a = some x := by simpa using hx
      have hm : y ∈ (v.filterMap id).filter p :=
        List.mem_filter.mpr ⟨List.mem_filterMap.mpr ⟨some y, List.mem_of_getElem? hy, rfl⟩, py⟩
      have := List.length_pos_of_mem hm
      rw [ha, List.filterMap_cons_some (f := id) (b := x) rfl, List.filter_cons_of_pos px]
      simp only [List.length_cons]
      omega
    | succ i =>
      rw [List.getElem?_cons_succ] at hx
      have := ih i j (by omega) hx hy
      cases a with
      | none => simpa using this
      | some a =>
        rw [List.filterMap_cons_some (f := id) (b := a) rfl, List.filter_cons]
        split
        · simp only [List.length_cons]
          omega
        · exact this

theorem State.two_owns {s : State} {l : Fin 8} {i j : Fin 16} {e f : OwnEntry} (hij : i ≠ j)
    (he : s.ownEntry i = some e) (hf : s.ownEntry j = some f) (hel : e.link = l) (hfl : f.link = l) :
    2 ≤ (s.owns.filter fun e => e.link == l).length := by
  have get (k : Fin 16) : s.plan.own.toList[k.val]? = some (s.ownEntry k) := by
    rw [List.getElem?_eq_getElem (by simp)]
    simp [State.ownEntry]
  rcases Nat.lt_or_gt_of_ne fun h => hij (Fin.ext h) with h | h
  · exact two_of_filterMap _ _ i j e f h ((get i).trans (by rw [he])) ((get j).trans (by rw [hf])) (by simp [hel])
      (by simp [hfl])
  · exact two_of_filterMap _ _ j i f e h ((get j).trans (by rw [hf])) ((get i).trans (by rw [he])) (by simp [hfl])
      (by simp [hel])

theorem conflictsHard_comm (g : Nat) (x y : Span) : conflictsHard g x y = conflictsHard g y x := by
  unfold conflictsHard
  rw [Bool.and_right_comm]
  congr 2
  exact Bool.beq_comm

/-- The hard conflict test has no order: it is under the guard of the one band (R48). -/
theorem State.conflicts_comm (s : State) (x y : Span) : s.conflicts x y = s.conflicts y x := by
  by_cases h : x.band = y.band
  · unfold State.conflicts
    rw [h, conflictsHard_comm]
  · have h' : ¬ y.band = x.band := fun e => h e.symm
    simp [State.conflicts, conflictsHard, beq_eq_false_iff_ne.mpr h, beq_eq_false_iff_ne.mpr h']

/-- The law after one slot has changed: what the new entry must not meet among the others. -/
theorem State.OwnLaw.replace {u : State} {i : Fin 16} {y : OwnEntry} (hc : u.cfg = t.cfg) (hi : u.ownEntry i = some y)
    (hk : ∀ k f, k ≠ i → u.ownEntry k = some f → t.ownEntry k = some f)
    (h1 : ∀ j k f g, j ≠ i → k ≠ i → t.ownEntry j = some f → t.ownEntry k = some g → f.link = y.link → g.link = y.link →
      j = k)
    (h2 : ∀ k f, k ≠ i → u.ownEntry k = some f → f.link = y.link → f.standing = y.standing → y.standing = .held)
    (h3 : ∀ k f, k ≠ i → t.ownEntry k = some f → t.conflicts f.span y.span = false) (h : t.OwnLaw) : u.OwnLaw := by
  have hcon (x y : Span) : u.conflicts x y = t.conflicts x y := by simp [State.conflicts, State.guard, State.image, hc]
  have eqy {k f} (hki : k = i) (hf : u.ownEntry k = some f) : f = y := by
    rw [hki, hi] at hf
    exact (Option.some.inj hf).symm
  refine ⟨fun a b c e f g he hf hg l1 l2 => ?_, fun a b e f he hf l1 l2 l3 => ?_, fun a b e f he hf l1 => ?_⟩
  · by_contra hne
    obtain ⟨n1, n2, n3⟩ := not_or.mp hne |>.imp id not_or.mp
    by_cases ha : a = i
    · subst ha
      have := eqy rfl he
      subst this
      exact n2 (h1 b c f g (Ne.symm n1) (Ne.symm n3) (hk b f (Ne.symm n1) hf) (hk c g (Ne.symm n3) hg) l1.symm
        (l1.trans l2).symm)
    · by_cases hb : b = i
      · subst hb
        have := eqy rfl hf
        subst this
        exact n3 (h1 a c e g n1 (Ne.symm n2) (hk a e n1 he) (hk c g (Ne.symm n2) hg) l1 l2.symm)
      · by_cases hcc : c = i
        · subst hcc
          have := eqy rfl hg
          subst this
          exact n1 (h1 a b e f n3 n2 (hk a e n3 he) (hk b f n2 hf) (l1.trans l2) l2)
        · rcases h.1 a b c e f g (hk a e ha he) (hk b f hb hf) (hk c g hcc hg) l1 l2 with x | x | x
          exacts [n1 x, n2 x, n3 x]
  · by_contra hne
    by_cases ha : a = i
    · subst ha
      have := eqy rfl he
      subst this
      have := h2 b f (Ne.symm hne) hf l1.symm l2.symm
      rcases l3 with l3 | l3 <;> simp [this] at l3
    · by_cases hb : b = i
      · subst hb
        have := eqy rfl hf
        subst this
        have := h2 a e hne he l1 l2
        rcases l3 with l3 | l3 <;> simp [← l2, l3] at this
      · exact hne (h.2.1 a b e f (hk a e ha he) (hk b f hb hf) l1 l2 l3)
  · rw [hcon] at l1
    by_contra hne
    by_cases ha : a = i
    · subst ha
      have := eqy rfl he
      subst this
      have := h3 b f (Ne.symm hne) (hk b f (Ne.symm hne) hf)
      rw [State.conflicts_comm, this] at l1
      cases l1
    · by_cases hb : b = i
      · subst hb
        have := eqy rfl hf
        subst this
        rw [h3 a e hne (hk a e hne he)] at l1
        cases l1
      · exact hne (h.2.2 a b e f (hk a e ha he) (hk b f hb hf) l1)

/-- The new entry of a claim start keeps the law (R63). -/
theorem State.claimed_ownLaw {l : Fin 8} {sp : Span} {i : Fin 16}
    (h1 : ((t.owns.filter fun e => e.link == l).any fun e => e.standing == .tentative) = false)
    (h1' : ¬ 2 ≤ (t.owns.filter fun e => e.link == l).length)
    (h2 : (t.owns.any fun e => t.conflicts e.span sp) = false) (h : t.OwnLaw) :
    (t.setOwn i (some (t.newOwn l sp))).OwnLaw := by
  refine State.OwnLaw.replace (t := t) (i := i) (y := t.newOwn l sp) rfl (by simp [State.ownEntry_setOwn]) (fun k f hk hf => ?_)
    (fun j k f g _ _ hf hg l1 l2 => ?_) (fun k f hk hf l1 l2 => ?_) (fun k f _ hf => ?_) h
  · rwa [State.ownEntry_setOwn, if_neg (Ne.symm hk)] at hf
  · by_contra hne
    exact h1' (State.two_owns hne hf hg l1 l2)
  · rw [State.ownEntry_setOwn, if_neg (Ne.symm hk)] at hf
    have hm : f ∈ t.owns.filter fun e => e.link == l :=
      List.mem_filter.mpr ⟨State.mem_owns.mpr ⟨k, hf⟩, beq_iff_eq.mpr l1⟩
    exact absurd (beq_iff_eq.mpr l2) (List.any_eq_false.mp h1 f hm)
  · have := List.any_eq_false.mp h2 f (State.mem_owns.mpr ⟨k, hf⟩)
    exact Bool.not_eq_true _ ▸ this

@[simp] theorem State.claimStart_evolves {l : Fin 8} {sp : Span} (hp : w.plan = true) (h : Evolves w s t) :
    Evolves w s (t.claimStart l sp).1 := by
  unfold State.claimStart
  dsimp only
  split
  · exact h
  · rename_i ha
    split
    · exact h
    · split
      · exact h
      · rename_i h1
        simp only [Bool.or_eq_true, decide_eq_true_eq, not_or, Bool.not_eq_true] at h1
        split
        · exact h
        · rename_i h2
          split
          · exact State.count_evolves h
          · split
            · exact h
            · rename_i i hi
              have hs : Evolves w s (t.setOwn i (some (t.newOwn l sp))) :=
                State.setOwn_evolves hp (fun hn _ => absurd hn ha)
                  (State.claimed_ownLaw h1.1 h1.2 (by simpa using h2)) h
              split
              · exact State.offerClaim_evolves hs
              · exact State.sendFailure_evolves hp (State.offerClaim_evolves hs)

@[simp] theorem State.claimSent_evolves {l : Fin 8} {sp : Span} (hp : w.plan = true) (h : Evolves w s t) :
    Evolves w s (t.claimSent l sp) := by
  unfold State.claimSent
  split
  · exact State.modOwn_evolves (fun e => by split <;> exact ⟨rfl, rfl, Or.inl rfl⟩) hp h
  · exact h

@[simp] theorem State.claimAbandoned_evolves {l : Fin 8} {sp : Span} (hp : w.plan = true) (h : Evolves w s t) :
    Evolves w s (t.claimAbandoned l sp).1 := by
  unfold State.claimAbandoned
  repeat' split
  all_goals simp [h, hp]

@[simp] theorem State.becomeHeld_evolves {i : Fin 16} (hp : w.plan = true) (h : Evolves w s t) :
    Evolves w s (t.becomeHeld i).1 := by
  unfold State.becomeHeld
  split
  · exact h
  · rename_i e he
    exact State.modOwn_evolves (fun _ => ⟨rfl, rfl, Or.inl rfl⟩) hp
      (State.announceHold_evolves hp (State.setOwn_some_evolves hp he ⟨rfl, rfl, Or.inr rfl⟩ h))

@[simp] theorem State.dropPair_evolves {x : Nat × Nat} {i : Fin 16} (hp : w.plan = true) (h : Evolves w s t) :
    Evolves w s (t.dropPair x i).1 := by
  unfold State.dropPair
  split
  · exact h
  · rename_i e he
    have hs {e'} (h1 : e'.span = e.span) (h2 : e'.link = e.link) (h3 : e'.standing = e.standing) :
        Evolves w s (t.setOwn i (some e')) := State.setOwn_some_evolves hp he ⟨h1, h2, Or.inl h3⟩ h
    dsimp only
    split
    · exact State.becomeHeld_evolves hp (hs rfl rfl rfl)
    · exact hs rfl rfl rfl

theorem State.overOwns_evolves {f : Fin 16 → State → State × List PlanNews} (hf : ∀ i u, Evolves w u (f i u).1)
    (h : Evolves w s t) : Evolves w s (t.overOwns f).1 :=
  Evolves.foldlFst (fun x i => ((f i x.1).1, x.2 ++ (f i x.1).2)) (fun x i => hf i x.1) _ _ h

@[simp] theorem State.pairYielded_evolves {n m : Nat} {sp : Span} (hp : w.plan = true) (h : Evolves w s t) :
    Evolves w s (t.pairYielded n m sp).1 := by
  refine State.overOwns_evolves (fun i u => ?_) h
  have := Evolves.refl w u
  repeat' split
  all_goals simp [this, hp]

@[simp] theorem State.pairRemoved_evolves {n m : Nat} (hp : w.plan = true) (h : Evolves w s t) :
    Evolves w s (t.pairRemoved n m).1 := by
  refine State.overOwns_evolves (fun i u => ?_) h
  have := Evolves.refl w u
  repeat' split
  all_goals simp [this, hp]

@[simp] theorem State.sendDefence_evolves {i : Fin 16} (hp : w.plan = true) (h : Evolves w s t) :
    Evolves w s (t.sendDefence i) := by
  unfold State.sendDefence
  repeat' split
  all_goals simp [h, hp]

@[simp] theorem State.defend_evolves {i : Fin 16} (hp : w.plan = true) (h : Evolves w s t) : Evolves w s (t.defend i) := by
  unfold State.defend
  split
  · rename_i e he
    split
    · exact State.setOwn_some_evolves hp he ⟨rfl, rfl, Or.inl rfl⟩ h
    · exact State.modOwn_evolves (fun _ => ⟨rfl, rfl, Or.inl rfl⟩) hp (State.sendDefence_evolves hp h)
  · exact h

@[simp] theorem State.claimLost_evolves {n : Nat} {i : Fin 16} {e : OwnEntry} (hp : w.plan = true) (h : Evolves w s t) :
    Evolves w s (t.claimLost n i e).1 := by
  simp [State.claimLost, h, hp]

/-- The two writes of a preemption keep the law (R79): the older YIELDING entry of the link goes. -/
theorem State.preempted_ownLaw {u : State} {i : Fin 16} {e y : OwnEntry} (he : t.ownEntry i = some e)
    (hl : y.link = e.link) (hsp : y.span = e.span) (hc : u.cfg = t.cfg) (hi : u.ownEntry i = some y)
    (hk : ∀ k f, k ≠ i → u.ownEntry k = some f → t.ownEntry k = some f ∧ (f.link = e.link → f.standing ≠ .yielding))
    (hy : y.standing = .yielding) (h : t.OwnLaw) : u.OwnLaw := by
  refine State.OwnLaw.replace (t := t) hc hi (fun k f n hf => (hk k f n hf).1) (fun j k f g n1 n2 hf hg l1 l2 => ?_)
    (fun k f n hf l1 l2 => ?_) (fun k f n hf => ?_) h
  · rcases h.1 i j k e f g he hf hg (by rw [l1, hl]) (by rw [l1, l2]) with x | x | x
    exacts [absurd x.symm n1, x, absurd x.symm n2]
  · exact absurd (l2.trans hy) ((hk k f n hf).2 (l1.trans hl))
  · cases hx : t.conflicts f.span y.span
    · rfl
    · exact absurd (h.2.2 k i f e hf he (hsp ▸ hx)) n

/-- A slot of the first YIELDING entry of a link beside slot `i`. -/
theorem State.olderYielding_some {i j : Fin 16} {l : Fin 8} {o : OwnEntry} (h : s.olderYielding i l = some (j, o)) :
    j ≠ i ∧ s.ownEntry j = some o ∧ o.link = l ∧ o.standing = .yielding := by
  obtain ⟨k, _, hk⟩ := List.exists_of_findSome?_eq_some h
  split at hk
  · split at hk
    · rename_i f hf hc
      obtain ⟨rfl, rfl⟩ := Prod.mk.inj (Option.some.inj hk)
      exact ⟨hc.1, hf, hc.2.1, hc.2.2⟩
    · cases hk
  · cases hk

theorem State.olderYielding_none {i : Fin 16} {l : Fin 8} (h : s.olderYielding i l = none) {k : Fin 16} {f : OwnEntry}
    (hk : k ≠ i) (hf : s.ownEntry k = some f) (hl : f.link = l) : f.standing ≠ .yielding := by
  intro hy
  have := List.findSome?_eq_none_iff.mp h k (List.mem_finRange k)
  simp [hf, hk, hl, hy] at this

theorem State.preempt_evolves {n : Nat} {i : Fin 16} {e : OwnEntry} (he : t.ownEntry i = some e)
    (hp : w.plan = true) (h : Evolves w s t) : Evolves w s (t.preempt n i e).1 := by
  unfold State.preempt
  dsimp only
  split
  · rename_i j o ho
    obtain ⟨hji, hj, hol, hos⟩ := State.olderYielding_some ho
    unfold State.removeOwn
    rw [State.ownEntry_setOwn, if_neg (Ne.symm hji), hj]
    refine State.count_evolves (State.offered_evolves ?_)
    refine Evolves.planBlock (t := t) hp h (fun ha q k => ?_) (fun hlaw => ?_) fun _ => ⟨rfl, rfl, rfl, rfl⟩
    · have := q i
      rw [show t.plan.own[i] = some e from he] at this
      cases this
    · refine State.preempted_ownLaw (i := i) he (y := OwnEntry.preempted (t.after (ms 2000)) e) rfl rfl rfl ?_
        (fun k f hk hf => ?_) rfl hlaw
      · show ((t.setOwn i _).setOwn j none).ownEntry i = _
        rw [State.ownEntry_setOwn, if_neg hji, State.ownEntry_setOwn, if_pos rfl]
      · have hf' : 
            ((t.setOwn i (some (OwnEntry.preempted (t.after (ms 2000)) e))).setOwn j none).ownEntry k = some f := hf
        rw [State.ownEntry_setOwn] at hf'
        split at hf'
        · cases hf'
        · rename_i hjk
          rw [State.ownEntry_setOwn, if_neg (Ne.symm hk)] at hf'
          exact ⟨hf', fun hl hy => hjk (hlaw.2.1 j k o f hj hf' (hol.trans hl.symm) (hos.trans hy.symm) (Or.inr hos))⟩
  · rename_i ho
    refine State.count_evolves (State.setOwn_evolves hp (fun _ hn => by simp [he] at hn) (fun hlaw => ?_) h)
    refine State.preempted_ownLaw (i := i) he (y := OwnEntry.preempted (t.after (ms 2000)) e) rfl rfl rfl
      ((State.ownEntry_setOwn _ _ _ _).trans (if_pos rfl)) (fun k f hk hf => ?_) rfl hlaw
    rw [State.ownEntry_setOwn, if_neg (Ne.symm hk)] at hf
    exact ⟨hf, State.olderYielding_none ho hk hf⟩

theorem OwnEntry.addPair_keeps (x : Nat × Nat) (e : OwnEntry) : e.Keeps (e.addPair x) := by
  unfold OwnEntry.addPair
  split <;> exact ⟨rfl, rfl, Or.inl rfl⟩

@[simp] theorem State.testOwn_evolves {b : Bool} {n m : Nat} {x : PlanBody} {i : Fin 16} (hp : w.plan = true)
    (h : Evolves w s t) : Evolves w s (t.testOwn b n x m i).1 := by
  unfold State.testOwn
  split
  · exact h
  · rename_i e he
    have hs : Evolves w s (t.setOwn i (some (e.addPair (n, x.link)))) :=
      State.setOwn_some_evolves hp he (OwnEntry.addPair_keeps _ _) h
    dsimp only
    repeat' split
    all_goals first
      | exact h
      | exact hs
      | exact State.preempt_evolves he hp h
      | exact State.defend_evolves hp hs
      | simp (maxDischargeDepth := 30) [h, hp]

@[simp] theorem State.planArrival_evolves {b : Bool} {n m : Nat} {x : PlanBody} (hp : w.plan = true) (hq : w.replica = true) (h : Evolves w s t) :
    Evolves w s (t.planArrival b n x m).1 := by
  unfold State.planArrival
  dsimp only
  refine State.overOwns_evolves (f := State.testOwn b n x m) (fun i u => State.testOwn_evolves hp (Evolves.refl w u)) ?_
  split <;> simp [h, hp, hq]

@[simp] theorem State.planYielded_evolves {n m : Nat} {sp : Span} (hp : w.plan = true) (hq : w.replica = true) (h : Evolves w s t) :
    Evolves w s (t.planYielded n m sp).1 := State.pairYielded_evolves hp (State.removePeer_evolves hp hq h)

@[simp] theorem State.retryClaim_evolves {i : Fin 16} (hp : w.plan = true) (h : Evolves w s t) :
    Evolves w s (t.retryClaim i).1 := by
  unfold State.retryClaim
  split
  · rename_i e he
    have hs {e'} (h1 : e'.span = e.span) (h2 : e'.link = e.link) (h3 : e'.standing = e.standing) :
        Evolves w s (t.setOwn i (some e')) := State.setOwn_some_evolves hp he ⟨h1, h2, Or.inl h3⟩ h
    dsimp only
    split <;> simp (maxDischargeDepth := 30) [hs, hp]
  · exact h

@[simp] theorem State.closeWindow_evolves {i : Fin 16} (hp : w.plan = true) (h : Evolves w s t) :
    Evolves w s (t.closeWindow i).1 := by
  unfold State.closeWindow
  split
  · rename_i e he
    split
    · exact State.becomeHeld_evolves hp h
    · exact State.setOwn_some_evolves hp he ⟨rfl, rfl, Or.inl rfl⟩ h
  · exact h

@[simp] theorem State.endAllowance_evolves {i : Fin 16} (hp : w.plan = true) (hq : w.replica = true) (h : Evolves w s t) :
    Evolves w s (t.endAllowance i).1 := by
  unfold State.endAllowance; split <;> simp (maxDischargeDepth := 30) [h, hp, hq]

@[simp] theorem State.refreshClaim_evolves {i : Fin 16} (hp : w.plan = true) (h : Evolves w s t) :
    Evolves w s (t.refreshClaim i) := by
  unfold State.refreshClaim
  split
  · exact State.modOwn_evolves (fun _ => ⟨rfl, rfl, Or.inl rfl⟩) hp (State.offerClaim_evolves h)
  · exact h

@[simp] theorem State.refreshHold_evolves {i : Fin 16} (hp : w.plan = true) (h : Evolves w s t) :
    Evolves w s (t.refreshHold i) := 
  State.modOwn_evolves (fun _ => ⟨rfl, rfl, Or.inl rfl⟩) hp (State.announceHold_evolves hp h)

@[simp] theorem State.endHoldOff_evolves {i : Fin 16} (hp : w.plan = true) (h : Evolves w s t) :
    Evolves w s (t.endHoldOff i) := by
  unfold State.endHoldOff
  split
  · rename_i e he
    have hs {e'} (h1 : e'.span = e.span) (h2 : e'.link = e.link) (h3 : e'.standing = e.standing) :
        Evolves w s (t.setOwn i (some e')) := State.setOwn_some_evolves hp he ⟨h1, h2, Or.inl h3⟩ h
    dsimp only
    split
    · exact State.modOwn_evolves (fun _ => ⟨rfl, rfl, Or.inl rfl⟩) hp (State.sendDefence_evolves hp (hs rfl rfl rfl))
    · exact hs rfl rfl rfl
  · exact h

@[simp] theorem State.allowanceOver_evolves {i : Fin 16} (hp : w.plan = true) (h : Evolves w s t) :
    Evolves w s (t.allowanceOver i).1 := by
  unfold State.allowanceOver
  split
  · rename_i e he; exact State.setOwn_some_evolves hp he ⟨rfl, rfl, Or.inl rfl⟩ h
  · exact h

@[simp] theorem State.onAirHolds_evolves {l : Fin 8} (hp : w.plan = true) (h : Evolves w s t) :
    Evolves w s (t.onAirHolds l) := by
  refine Evolves.foldl _ (fun u i => ?_) _ h
  have := Evolves.refl w u
  repeat' split
  all_goals simp [this, hp]

end Sys2Proof.Machine
end

