-- ==== Sys2Proof/Laws/EvolvesReloc.lean ====
section
/-! SUPPORT. Relocation and link supervision evolve the station (Laws/Evolves.lean): they write LSUP, PLAN and the radio port,
and leave TALLY and TBK as they are. -/

namespace Sys2Proof.Machine

variable {w : Writes} {s t : State}

/-! ## The old entry (R117) -/

/-- The old entry is on the old span, where there is one. -/
theorem Reloc.old_eq_of_oldEntry {r : Reloc} {sp : Span} (h : r.oldEntry = some sp) : r.old = some sp := by
  unfold Reloc.oldEntry at h
  split at h
  · exact h
  · exact h
  all_goals
    split at h
    · exact absurd h (by simp)
    · exact h

/-- Only a claim of the old span anew leaves an old span without its entry. -/
theorem Reloc.oldEntry_of_ne {r : Reloc} (h : r.cand ≠ r.old) : r.oldEntry = r.old := by
  unfold Reloc.oldEntry
  split <;> simp [h]

/-! ## Link records -/

theorem State.setLink_evolves {l : Fin 8} {r : LinkRec}
    (hr : t.phase ≠ .active → (t.lsup.links[l]).bind (·.reloc) = none → r.reloc = none)
    (h : Evolves w s t) : Evolves w s (t.setLink l r) := by
  refine h.lsup fun ha q k => ?_
  by_cases e : l = k
  · subst e; simpa using hr ha (q l)
  · have : (l : Nat) ≠ k := fun h => e (Fin.ext h)
    simpa [Vector.getElem_set, this] using q k

/-- A link's record may be written anywhere if its relocation is left as it was. -/
theorem State.setLink_keep_evolves {l : Fin 8} {x r : LinkRec} (hx : t.link l = some x) (hr : r.reloc = x.reloc)
    (h : Evolves w s t) : Evolves w s (t.setLink l r) := by
  have hx' : t.lsup.links[l] = some x := hx
  exact State.setLink_evolves (fun _ hn => by rw [hx'] at hn; rw [hr]; exact hn) h

@[simp] theorem State.modReloc_evolves {l : Fin 8} {f : Reloc → Reloc} (h : Evolves w s t) :
    Evolves w s (t.modReloc l f) :=
  State.modLink_evolves (fun x _ hx => by simp [hx]) h

/-- A change of a link's record that leaves a missing relocation missing. -/
theorem State.modLink_keep_evolves {l : Fin 8} {f : LinkRec → LinkRec} (hf : ∀ x, x.reloc = none → (f x).reloc = none)
    (h : Evolves w s t) : Evolves w s (t.modLink l f) := State.modLink_evolves (fun x _ => hf x) h

@[simp] theorem State.muteLink_evolves {l : Fin 8} (hr : w.rport = true) (h : Evolves w s t) :
    Evolves w s (t.muteLink l) := by
  unfold State.muteLink
  split
  · exact State.modLink_keep_evolves (fun _ hx => hx) (State.mute_evolves hr h)
  · exact h

@[simp] theorem State.leaveSpan_evolves {l : Fin 8} {sp : Span} (h : Evolves w s t) : Evolves w s (t.leaveSpan l sp) :=
  State.modLink_keep_evolves (fun _ hx => by split <;> exact hx) h

@[simp] theorem State.leaveYielding_evolves {l : Fin 8} (hp : w.plan = true) (h : Evolves w s t) :
    Evolves w s (t.leaveYielding l) :=
  Evolves.foldl _ (fun u _ => State.leaveSpan_evolves (Evolves.refl w u)) _ (State.yieldWhere_evolves hp h)

@[simp] theorem State.issueTune_evolves {l : Fin 8} {sp : Span} (hp : w.plan = true) (hr : w.rport = true)
    (h : Evolves w s t) : Evolves w s (t.issueTune l sp).1 := by
  unfold State.issueTune
  split
  · exact h
  · have hm : Evolves w s ((t.muteLink l).leaveYielding l) := State.leaveYielding_evolves hp (State.muteLink_evolves hr h)
    dsimp only
    repeat' split
    all_goals first
      | exact State.modLink_keep_evolves (fun _ hx => hx) (State.tune_evolves hr hm)
      | exact State.modLink_keep_evolves (fun _ hx => hx) (State.tune_evolves hr h)
      | exact State.tune_evolves hr hm
      | exact State.tune_evolves hr h

/-! ## Ends -/

@[simp] theorem State.tellTask_evolves {l : Fin 8} {e : Ending} (h : Evolves w s t) : Evolves w s (t.tellTask l e) := by
  unfold State.tellTask
  split
  · exact State.reply_evolves h.mgmt
  · exact h

@[simp] theorem State.endReloc_evolves {l : Fin 8} {r : Reloc} {e : Ending} (h : Evolves w s t) :
    Evolves w s (t.endReloc l r e) := by
  have hm : Evolves w s (t.modLink l fun x => { x with reloc := none, lastOutcome := some (r.cause, e) }) :=
    State.modLink_keep_evolves (fun _ _ => rfl) h
  unfold State.endReloc
  dsimp only
  split
  · exact State.tellTask_evolves hm
  · exact hm

@[simp] theorem State.relocFail_evolves {l : Fin 8} {c : FailCause} {f : Bool} (hp : w.plan = true) (hr : w.rport = true)
    (h : Evolves w s t) : Evolves w s (t.relocFail l c f) := by
  unfold State.relocFail
  split
  · exact h
  · dsimp only
    refine State.endReloc_evolves ?_
    split
    · exact State.modLink_keep_evolves (fun _ hx => hx) (State.yieldWhere_evolves hp (State.count_evolves h))
    · exact State.modLink_keep_evolves (fun _ hx => hx)
        (State.yieldWhere_evolves hp (State.muteLink_evolves hr (State.count_evolves h)))

/-! ## Search and start -/

theorem State.searchRun_evolves {l : Fin 8} (n : Nat) (hp : w.plan = true) (hr : w.rport = true) :
    ∀ {t}, Evolves w s t → Evolves w s (State.searchRun l n t) := by
  induction n with
  | zero => intro t h; exact h
  | succ n ih =>
    intro t h
    unfold State.searchRun
    split
    · split
      · exact State.modReloc_evolves h
      · exact State.relocFail_evolves hp hr h
      · exact State.endReloc_evolves h
      · dsimp only
        have hc {f sp} : Evolves w s ((t.modReloc l f).claimStart l sp).1 :=
          State.claimStart_evolves hp (State.modReloc_evolves h)
        repeat' split
        all_goals first
          | exact hc
          | exact State.modReloc_evolves hc
          | exact State.relocFail_evolves hp hr hc
          | exact State.relocFail_evolves hp hr (State.modReloc_evolves hc)
          | exact ih (State.modReloc_evolves (State.modReloc_evolves hc))
    · exact h

@[simp] theorem State.enterSearch_evolves {l : Fin 8} (hp : w.plan = true) (hr : w.rport = true) (h : Evolves w s t) :
    Evolves w s (t.enterSearch l) := State.searchRun_evolves 5 hp hr (State.modReloc_evolves h)

@[simp] theorem State.startReloc_evolves {l : Fin 8} {c : Cause} {sp : Option Span} {a b : Bool} (hp : w.plan = true)
    (hr : w.rport = true) (h : Evolves w s t) : Evolves w s (t.startReloc l c sp a b) := by
  unfold State.startReloc
  split
  · split
    · rename_i ha
      exact State.enterSearch_evolves hp hr (State.setLink_evolves (fun hn _ => absurd ha.1 hn) h)
    · exact h
  · exact h

/-! ## Tuning, cutover and return -/

@[simp] theorem State.startReturn_evolves {l : Fin 8} {sp : Span} {c : FailCause} (hp : w.plan = true)
    (hr : w.rport = true) (h : Evolves w s t) : Evolves w s (t.startReturn l sp c) := by
  have hi {f} : Evolves w s ((t.modReloc l f).issueTune l sp).1 := State.issueTune_evolves hp hr (State.modReloc_evolves h)
  unfold State.startReturn
  dsimp only
  split
  · exact hi
  · exact State.relocFail_evolves hp hr hi

@[simp] theorem State.tuneFailed_evolves {l : Fin 8} (hp : w.plan = true) (hr : w.rport = true) (h : Evolves w s t) :
    Evolves w s (t.tuneFailed l) := by
  unfold State.tuneFailed
  repeat' split
  all_goals simp [h, hp, hr]

@[simp] theorem State.tuneCandidate_evolves {l : Fin 8} (hp : w.plan = true) (hr : w.rport = true) (h : Evolves w s t) :
    Evolves w s (t.tuneCandidate l) := by
  unfold State.tuneCandidate
  repeat' split
  all_goals try dsimp only
  all_goals repeat' split
  all_goals simp (maxDischargeDepth := 30) [h, hp, hr]

@[simp] theorem State.cutover_evolves {l : Fin 8} {r : Reloc} {sp : Span} (hp : w.plan = true) (h : Evolves w s t) :
    Evolves w s (t.cutover l r sp) := by
  unfold State.cutover
  dsimp only
  refine State.endReloc_evolves (State.count_evolves (State.modLink_keep_evolves (fun _ hx => hx) ?_))
  split <;> simp [h, hp]

@[simp] theorem State.returned_evolves {l : Fin 8} {r : Reloc} (hp : w.plan = true) (hr : w.rport = true)
    (h : Evolves w s t) : Evolves w s (t.returned l r) := by
  unfold State.returned
  dsimp only
  refine State.relocFail_evolves hp hr (State.modLink_keep_evolves (fun _ hx => hx) ?_)
  split <;> simp [h, hp]

@[simp] theorem State.landTune_evolves {l : Fin 8} (h : Evolves w s t) : Evolves w s (t.landTune l) :=
  State.modLink_keep_evolves (fun _ hx => hx) h

@[simp] theorem State.tunedOk_evolves {l : Fin 8} (hp : w.plan = true) (hr : w.rport = true) (h : Evolves w s t) :
    Evolves w s (t.tunedOk l) := by
  unfold State.tunedOk
  dsimp only
  repeat' split
  all_goals simp [h, hp, hr]

@[simp] theorem State.tuneLost_evolves {l : Fin 8} (hp : w.plan = true) (hr : w.rport = true) (h : Evolves w s t) :
    Evolves w s (t.tuneLost l) := by
  unfold State.tuneLost
  dsimp only
  repeat' split
  all_goals simp [h, hp, hr]

/-! ## What overtakes a relocation -/

@[simp] theorem State.hearLostRank_evolves {l : Fin 8} {sp : Span} (hp : w.plan = true) (hr : w.rport = true)
    (h : Evolves w s t) : Evolves w s (t.hearLostRank l sp) := by
  unfold State.hearLostRank
  repeat' split
  all_goals simp [h, hp, hr]

@[simp] theorem State.hearBusFault_evolves {l : Fin 8} {sp : Span} (hp : w.plan = true) (hr : w.rport = true)
    (h : Evolves w s t) : Evolves w s (t.hearBusFault l sp) := by
  unfold State.hearBusFault
  repeat' split
  all_goals simp [h, hp, hr]

@[simp] theorem State.hearHeld_evolves {l : Fin 8} {sp : Span} (hp : w.plan = true) (hr : w.rport = true)
    (h : Evolves w s t) : Evolves w s (t.hearHeld l sp) := by
  unfold State.hearHeld
  repeat' split
  all_goals simp [h, hp, hr]

@[simp] theorem State.candidateLost_evolves {l : Fin 8} {r : Reloc} {sp : Span} (hp : w.plan = true) (hr : w.rport = true)
    (h : Evolves w s t) : Evolves w s (t.candidateLost l r sp) := by
  unfold State.candidateLost
  dsimp only
  repeat' split
  all_goals simp (maxDischargeDepth := 30) [h, hp, hr]

@[simp] theorem State.hearPreempted_evolves {l : Fin 8} {sp : Span} (hp : w.plan = true) (hr : w.rport = true)
    (h : Evolves w s t) : Evolves w s (t.hearPreempted l sp) := by
  unfold State.hearPreempted
  repeat' split
  all_goals simp [h, hp, hr]

@[simp] theorem State.lossReloc_evolves {l : Fin 8} (hp : w.plan = true) (hr : w.rport = true) (h : Evolves w s t) :
    Evolves w s (t.lossReloc l) := by
  unfold State.lossReloc
  repeat' split
  all_goals simp [h, hp, hr]

@[simp] theorem State.loseLink_evolves {l : Fin 8} (hp : w.plan = true) (hr : w.rport = true) (h : Evolves w s t) :
    Evolves w s (t.loseLink l) := by
  unfold State.loseLink
  split
  · rename_i x hx
    split
    · exact State.lossReloc_evolves hp hr (State.count_evolves (State.setLink_keep_evolves hx rfl h))
    · exact h
  · exact h

@[simp] theorem State.hearAllowance_evolves {l : Fin 8} {sp : Span} (hp : w.plan = true) (hr : w.rport = true)
    (h : Evolves w s t) : Evolves w s (t.hearAllowance l sp) := by
  unfold State.hearAllowance
  dsimp only
  repeat' split
  all_goals simp (maxDischargeDepth := 30) [h, hp, hr]

@[simp] theorem State.hear_evolves {n : PlanNews} (hp : w.plan = true) (hr : w.rport = true) (h : Evolves w s t) :
    Evolves w s (t.hear n) := by
  unfold State.hear
  split <;> simp [h, hp, hr]

/-- PLAN's part of an event with LSUP's answers. -/
theorem State.withNews_evolves {r : State × List PlanNews} (hp : w.plan = true) (hr : w.rport = true)
    (h : Evolves w s r.1) : Evolves w s (State.withNews r) :=
  Evolves.foldl _ (fun u _ => State.hear_evolves hp hr (Evolves.refl w u)) _ h

@[simp] theorem State.onAirSet_evolves {l : Fin 8} (hp : w.plan = true) (h : Evolves w s t) :
    Evolves w s (t.onAirSet l) := by
  unfold State.onAirSet
  repeat' split
  all_goals simp [h, hp]

@[simp] theorem State.resumeWaiting_evolves (hp : w.plan = true) (hr : w.rport = true) (h : Evolves w s t) :
    Evolves w s t.resumeWaiting :=
  Evolves.foldl _ (fun u l => by
    have := Evolves.refl w u
    split
    · exact State.enterSearch_evolves hp hr this
    · exact this) _ h

@[simp] theorem State.retryAcquire_evolves {l : Fin 8} (hp : w.plan = true) (hr : w.rport = true) (h : Evolves w s t) :
    Evolves w s (t.retryAcquire l) := by
  unfold State.retryAcquire
  split
  · rename_i x hx
    have hs : Evolves w s (t.setLink l { x with acquireRetry := none }) := State.setLink_keep_evolves hx rfl h
    dsimp only
    split
    · exact State.startReloc_evolves hp hr hs
    · exact hs
  · exact h

@[simp] theorem State.hearFault_evolves {l : Fin 8} (hp : w.plan = true) (h : Evolves w s t) :
    Evolves w s (t.hearFault l) :=
  State.leaveYielding_evolves hp (State.landTune_evolves h)

@[simp] theorem State.hearRecovered_evolves {l : Fin 8} (hp : w.plan = true) (hr : w.rport = true) (h : Evolves w s t) :
    Evolves w s (t.hearRecovered l) := by
  unfold State.hearRecovered
  split
  · exact h
  · dsimp only
    repeat' split
    all_goals simp [h, hp, hr]

theorem State.disableLinks_evolves (h : Evolves w s t) : Evolves w s t.disableLinks := by
  refine h.lsup fun _ _ l => ?_
  simp only [Fin.getElem_fin, Vector.getElem_map]
  cases t.lsup.links[l.val] <;> rfl

/-! ## Supervision -/

@[simp] theorem State.fold_evolves {sp : Span} {n : Nat} (h : Evolves w s t) : Evolves w s (t.fold sp n) :=
  h.lsup fun _ => id

@[simp] theorem State.setFilter_evolves {band : Band} {q : List CopyEntry} (h : Evolves w s t) :
    Evolves w s (t.setFilter band q) := h.lsup fun _ => id

@[simp] theorem State.foldReceived_evolves {n m : Nat} {sp : Span} (h : Evolves w s t) :
    Evolves w s (t.foldReceived n sp m) := by
  unfold State.foldReceived
  dsimp only
  split <;> simp [h]

@[simp] theorem State.issueSighting_evolves {l : Fin 8} {sp : Span} {bad : Bool} {n : Nat} (hp : w.plan = true) (hq : w.replica = true)
    (h : Evolves w s t) : Evolves w s (t.issueSighting l sp bad n) := by
  have hm {o f} (hf : ∀ x, x.reloc = none → (f x).reloc = none) :
      Evolves w s ((((t.offer o).1.takeSighting sp n).fold sp n).modLink l f) :=
    State.modLink_keep_evolves hf (State.fold_evolves (State.takeSighting_evolves hp hq (State.offer_evolves h)))
  unfold State.issueSighting
  dsimp only
  split
  · exact hm fun _ hx => hx
  · exact State.sightingRefused_evolves (hm fun _ hx => hx)

@[simp] theorem State.resolveStep_evolves {l : Fin 8} {m : Sample} (h : Evolves w s t) : Evolves w s (t.resolveStep l m) := by
  unfold State.resolveStep
  split
  · exact State.modLink_keep_evolves (fun _ hx => hx) (h.lsup fun _ => id)
  · exact h

@[simp] theorem State.lossStep_evolves {l : Fin 8} {m : Sample} (hp : w.plan = true) (hr : w.rport = true)
    (h : Evolves w s t) : Evolves w s (t.lossStep l m) := by
  unfold State.lossStep
  split
  · rename_i x hx
    split
    · split <;> simp [h, hp, hr]
    · split
      · exact h
      · exact State.setLink_keep_evolves hx rfl h
    all_goals exact h
  · exact h

@[simp] theorem State.sightStep_evolves {l : Fin 8} {m : Sample} (hp : w.plan = true) (hq : w.replica = true) (h : Evolves w s t) :
    Evolves w s (t.sightStep l m) := by
  have hm : Evolves w s (t.modLink l fun x => { x with previousBad := m.bad, lastSeverity := m.severity }) :=
    State.modLink_keep_evolves (fun _ hx => hx) h
  unfold State.sightStep
  dsimp only
  repeat' split
  all_goals simp [hm, hp, hq]

@[simp] theorem State.predictStep_evolves {l : Fin 8} (h : Evolves w s t) : Evolves w s (t.predictStep l) :=
  State.modLink_keep_evolves (fun _ hx => hx) h

@[simp] theorem State.triggerStep_evolves {l : Fin 8} (hp : w.plan = true) (hr : w.rport = true) (h : Evolves w s t) :
    Evolves w s (t.triggerStep l) := by
  unfold State.triggerStep
  split
  · rename_i x hx
    split
    · exact State.startReloc_evolves hp hr (State.setLink_keep_evolves hx rfl h)
    · exact h
  · exact h

@[simp] theorem State.countedSample_evolves {l : Fin 8} {m : Sample} (hp : w.plan = true) (hq : w.replica = true) (hr : w.rport = true)
    (h : Evolves w s t) : Evolves w s (t.countedSample l m) :=
  State.triggerStep_evolves hp hr (State.predictStep_evolves (State.sightStep_evolves hp hq (State.lossStep_evolves hp hr
    (State.modLink_keep_evolves (fun _ hx => hx) (State.resolveStep_evolves h)))))

@[simp] theorem State.sample_evolves {l : Fin 8} (hp : w.plan = true) (hq : w.replica = true) (hr : w.rport = true) (h : Evolves w s t) :
    Evolves w s (t.sample l) := by
  unfold State.sample
  split
  · rename_i x hx
    have ht : Evolves w s ((t.setLink l { x with sampleTimer := some (t.after (ms x.sampleMs)) }).takeMailbox
        x.desc.frontEnd).1 := State.takeMailbox_evolves hr (State.setLink_keep_evolves hx rfl h)
    dsimp only
    split
    · exact State.modLink_keep_evolves (fun _ hx => hx) ht
    · split
      · exact State.countedSample_evolves hp hq hr ht
      · exact State.countedSample_evolves hp hq hr (State.count_evolves ht)
  · exact h

@[simp] theorem State.endSightingHoldOff_evolves {l : Fin 8} (hp : w.plan = true) (hq : w.replica = true) (h : Evolves w s t) :
    Evolves w s (t.endSightingHoldOff l) := by
  unfold State.endSightingHoldOff
  split
  · rename_i x hx
    have hs : Evolves w s (t.setLink l { x with sightingHoldOff := none }) := State.setLink_keep_evolves hx rfl h
    dsimp only
    split
    · exact State.issueSighting_evolves hp hq hs
    · exact hs
  · exact h

@[simp] theorem State.endRelocHoldOff_evolves {l : Fin 8} (hp : w.plan = true) (hr : w.rport = true) (h : Evolves w s t) :
    Evolves w s (t.endRelocHoldOff l) :=
  State.lossReloc_evolves hp hr (State.modLink_keep_evolves (fun _ hx => hx) h)

end Sys2Proof.Machine
end

