-- ==== Sys2Proof/Laws/EvolvesTalk.lean ====
section
/-! SUPPORT. TALLY, TBK and MGMT evolve the station (Laws/Evolves.lean). TALLY writes its own block and, through on-air marks
and link lamps, PLAN, LSUP and the radio port; TBK writes its own block alone, beside its offers. -/

namespace Sys2Proof.Machine

variable {w : Writes} {s t : State}

/-! ## TALLY -/

@[simp] theorem State.setLayer_evolves {k : Fin 8} {y : Layer} (ht : w.tally = true) (h : Evolves w s t) :
    Evolves w s (t.setLayer k y) := h.tallyBlock ht

@[simp] theorem State.setSource_evolves {k : Fin 8} {x : Option Source} (ht : w.tally = true) (h : Evolves w s t) :
    Evolves w s (t.setSource k x) := h.tallyBlock ht

@[simp] theorem State.standBy_evolves {k : Fin 8} {n : Nat} (ht : w.tally = true) (h : Evolves w s t) :
    Evolves w s (t.standBy k n) := by
  unfold State.standBy
  repeat' split
  all_goals simp [h, ht]

@[simp] theorem State.handMark_evolves {v : Vector Bool 8} {l : Fin 8} (hp : w.plan = true) (h : Evolves w s t) :
    Evolves w s (t.handMark v l) := by
  unfold State.handMark
  dsimp only
  repeat' split
  all_goals simp [h, hp]

@[simp] theorem State.handLamp_evolves {v : Vector Colour 8} {l : Fin 8} (hr : w.rport = true) (h : Evolves w s t) :
    Evolves w s (t.handLamp v l) := by
  unfold State.handLamp
  repeat' split
  all_goals simp [h, hr]

@[simp] theorem State.evaluate_evolves (hp : w.plan = true) (hr : w.rport = true) (ht : w.tally = true)
    (h : Evolves w s t) : Evolves w s t.evaluate :=
  Evolves.foldl _ (fun u _ => State.handLamp_evolves hr (Evolves.refl w u)) _
    (Evolves.foldl _ (fun u _ => State.handMark_evolves hp (Evolves.refl w u)) _ (h.tallyBlock ht))

@[simp] theorem State.takeLayer_evolves {n m : Nat} {b : TallyBody} (hp : w.plan = true) (hr : w.rport = true)
    (ht : w.tally = true) (h : Evolves w s t) : Evolves w s (t.takeLayer n b m).1 := by
  unfold State.takeLayer
  split <;> simp (maxDischargeDepth := 30) [h, hp, hr, ht]

@[simp] theorem State.publish_evolves {u : Bool} {k : Fin 8} (ht : w.tally = true) (h : Evolves w s t) :
    Evolves w s (t.publish u k) := by
  unfold State.publish
  split
  · dsimp only
    simp (maxDischargeDepth := 30) [h, ht]
  · exact h

@[simp] theorem State.contactChanged_evolves {k : Fin 8} (hp : w.plan = true) (hr : w.rport = true) (ht : w.tally = true)
    (h : Evolves w s t) : Evolves w s (t.contactChanged k) := by
  unfold State.contactChanged
  split <;> simp (maxDischargeDepth := 30) [h, hp, hr, ht]

@[simp] theorem State.startSources_evolves (hp : w.plan = true) (hr : w.rport = true) (ht : w.tally = true)
    (h : Evolves w s t) : Evolves w s t.startSources :=
  State.evaluate_evolves hp hr ht (Evolves.foldl _ (fun u k => by
    have := Evolves.refl w u
    split <;> simp [this, ht]) _ h)

@[simp] theorem State.stopSources_evolves (ht : w.tally = true) (h : Evolves w s t) : Evolves w s t.stopSources :=
  h.tallyBlock ht

@[simp] theorem State.resume_evolves {k : Fin 8} (ht : w.tally = true) (h : Evolves w s t) : Evolves w s (t.resume k) := by
  unfold State.resume
  dsimp only
  repeat' split
  all_goals simp [h, ht]

@[simp] theorem State.stale_evolves {k : Fin 8} (hp : w.plan = true) (hr : w.rport = true) (ht : w.tally = true)
    (h : Evolves w s t) : Evolves w s (t.stale k) := by
  simp (maxDischargeDepth := 30) [State.stale, h, hp, hr, ht]

@[simp] theorem State.unset_evolves {k : Fin 8} (hp : w.plan = true) (hr : w.rport = true) (ht : w.tally = true)
    (h : Evolves w s t) : Evolves w s (t.unset k) := by
  simp [State.unset, h, hp, hr, ht]

@[simp] theorem State.refreshSource_evolves {k : Fin 8} (hp : w.plan = true) (hr : w.rport = true) (ht : w.tally = true)
    (h : Evolves w s t) : Evolves w s (t.refreshSource k) := by
  unfold State.refreshSource
  repeat' split
  all_goals simp [h, hp, hr, ht]

@[simp] theorem State.contactSettled_evolves {c : Fin 32} (hp : w.plan = true) (hr : w.rport = true) (ht : w.tally = true)
    (h : Evolves w s t) : Evolves w s (t.contactSettled c) := by
  have hc {x} : Evolves w s { t with tally := { t.tally with contacts := x } } := h.tallyBlock ht
  unfold State.contactSettled
  dsimp only
  repeat' split
  all_goals first
    | exact hc
    | exact State.contactChanged_evolves hp hr ht hc

@[simp] theorem State.clearHits_evolves (ht : w.tally = true) (h : Evolves w s t) : Evolves w s t.clearHits :=
  h.tallyBlock ht

/-! ## TBK: lines, talk and follow talk -/

@[simp] theorem State.setTbPort_evolves {q : Fin 12} {r : TbPort} (hk : w.tbk = true) (h : Evolves w s t) :
    Evolves w s (t.setTbPort q r) := h.tbkBlock hk

@[simp] theorem State.modTbPort_evolves {q : Fin 12} {f : TbPort → TbPort} (hk : w.tbk = true) (h : Evolves w s t) :
    Evolves w s (t.modTbPort q f) := by
  unfold State.modTbPort
  split <;> simp [h, hk]

@[simp] theorem State.setLine_evolves {n : Fin 16} {x : Line} (hk : w.tbk = true) (h : Evolves w s t) :
    Evolves w s (t.setLine n x) := h.tbkBlock hk

@[simp] theorem State.indicate_evolves {q : Fin 12} (hk : w.tbk = true) (h : Evolves w s t) :
    Evolves w s (t.indicate q) := State.modTbPort_evolves hk h

@[simp] theorem State.offerTalk_evolves {u on : Bool} {n : Fin 16} {q : Fin 12} {c : Nat} (h : Evolves w s t) :
    Evolves w s (t.offerTalk u on n q c) := State.offered_evolves h

@[simp] theorem State.endTalk_evolves {n : Fin 16} {q : Fin 12} {x : TalkState} (hk : w.tbk = true) (h : Evolves w s t) :
    Evolves w s (t.endTalk n q x) := by
  unfold State.endTalk
  split <;> simp (maxDischargeDepth := 30) [h, hk]

@[simp] theorem State.bumpPort_evolves {n : Fin 16} {q : Fin 12} (hk : w.tbk = true) (h : Evolves w s t) :
    Evolves w s (t.bumpPort n q) := by
  unfold State.bumpPort
  repeat' split
  all_goals simp [h, hk]

@[simp] theorem State.capEval_evolves {n : Fin 16} (hk : w.tbk = true) (h : Evolves w s t) : Evolves w s (t.capEval n) :=
  Evolves.foldl _ (fun u _ => State.bumpPort_evolves hk (Evolves.refl w u)) _ h

@[simp] theorem State.changeLine_evolves {n : Fin 16} {f : Line → Line} (hk : w.tbk = true) (h : Evolves w s t) :
    Evolves w s (t.changeLine n f) := State.capEval_evolves hk (State.setLine_evolves hk h)

@[simp] theorem State.pressTalk_evolves {q : Fin 12} {n : Fin 16} {k : KeyId} (hk : w.tbk = true) (h : Evolves w s t) :
    Evolves w s (t.pressTalk q n k) := by
  unfold State.pressTalk
  dsimp only
  repeat' split
  all_goals simp (maxDischargeDepth := 30) [h, hk]

@[simp] theorem State.refreshTalk_evolves {q : Fin 12} (hk : w.tbk = true) (h : Evolves w s t) :
    Evolves w s (t.refreshTalk q) := by
  unfold State.refreshTalk
  repeat' split
  all_goals simp [h, hk]

@[simp] theorem State.offerFollow_evolves {u on : Bool} {q : Fin 12} {f : FollowState} (h : Evolves w s t) :
    Evolves w s (t.offerFollow u on q f) := State.offered_evolves h

@[simp] theorem State.pressFollow_evolves {q : Fin 12} {l : Fin 8} {k : KeyId} (hk : w.tbk = true) (h : Evolves w s t) :
    Evolves w s (t.pressFollow q l k) := by
  unfold State.pressFollow
  dsimp only
  repeat' split
  all_goals simp [h, hk]

@[simp] theorem State.refreshFollow_evolves {q : Fin 12} (hk : w.tbk = true) (h : Evolves w s t) :
    Evolves w s (t.refreshFollow q) := by
  unfold State.refreshFollow
  repeat' split
  all_goals simp [h, hk]

@[simp] theorem State.endFollow_evolves {q : Fin 12} {f : FollowState} (hk : w.tbk = true) (h : Evolves w s t) :
    Evolves w s (t.endFollow q f) := State.modTbPort_evolves hk (State.offerFollow_evolves h)

@[simp] theorem State.release_evolves {q : Fin 12} {k : KeyId} (hk : w.tbk = true) (h : Evolves w s t) :
    Evolves w s (t.release q k) := by
  unfold State.release
  dsimp only
  repeat' split
  all_goals simp (maxDischargeDepth := 30) [h, hk]

@[simp] theorem State.takeJoin_evolves {o p : Nat} {n : Fin 16} {a b : Bool} (hk : w.tbk = true) (h : Evolves w s t) :
    Evolves w s (t.takeJoin o n p a b) := State.changeLine_evolves hk h

@[simp] theorem State.takeLeave_evolves {o p : Nat} {n : Fin 16} (hk : w.tbk = true) (h : Evolves w s t) :
    Evolves w s (t.takeLeave o n p) := State.changeLine_evolves hk h

@[simp] theorem State.agreeMembers_evolves {o : Nat} {rs : List PresenceRecord} (hk : w.tbk = true) (h : Evolves w s t) :
    Evolves w s (t.agreeMembers o rs) :=
  Evolves.foldl _ (fun u _ => State.changeLine_evolves hk (Evolves.refl w u)) _ h

@[simp] theorem State.dropStation_evolves {o : Nat} (hk : w.tbk = true) (h : Evolves w s t) :
    Evolves w s (t.dropStation o) :=
  Evolves.foldl _ (fun u _ => State.changeLine_evolves hk (Evolves.refl w u)) _ h

@[simp] theorem State.takeTalk_evolves {o p c m : Nat} {n : Fin 16} {on : Bool} (hk : w.tbk = true) (h : Evolves w s t) :
    Evolves w s (t.takeTalk o n p c on m).1 := by
  unfold State.takeTalk
  repeat' split
  all_goals simp [h, hk]

@[simp] theorem State.talkerGone_evolves {o p : Nat} {n : Fin 16} (hk : w.tbk = true) (h : Evolves w s t) :
    Evolves w s (t.talkerGone n o p) := State.changeLine_evolves hk h

@[simp] theorem State.setFollows_evolves {q : List FollowEntry} (hk : w.tbk = true) (h : Evolves w s t) :
    Evolves w s (t.setFollows q) := h.tbkBlock hk

@[simp] theorem State.takeFollow_evolves {o i p : Nat} {l : Fin 8} {on : Bool} (hk : w.tbk = true) (h : Evolves w s t) :
    Evolves w s (t.takeFollow o l i p on) := by
  unfold State.takeFollow
  dsimp only
  repeat' split
  all_goals simp [h, hk]

@[simp] theorem State.followGone_evolves {o p : Nat} (hk : w.tbk = true) (h : Evolves w s t) :
    Evolves w s (t.followGone o p) := State.setFollows_evolves hk h

theorem State.overPorts_evolves {f : Fin 12 → TbPort → State → State} (hf : ∀ q r u, Evolves w u (f q r u))
    (h : Evolves w s t) : Evolves w s (t.overPorts f) :=
  Evolves.foldl _ (fun u q => by
    split
    · exact hf _ _ u
    · exact Evolves.refl w u) _ h

theorem State.offerAll_evolves {α : Type} (f : α → Offer) (l : List α) (h : Evolves w s t) :
    Evolves w s (l.foldl (fun s m => s.offered (f m)) t) :=
  Evolves.foldl (fun s m => s.offered (f m)) (fun u _ => State.offered_evolves (Evolves.refl w u)) _ h

@[simp] theorem State.joinAll_evolves (h : Evolves w s t) : Evolves w s t.joinAll :=
  State.overPorts_evolves (fun q r u => State.offerAll_evolves (joinOffer q) r.members (Evolves.refl w u)) h

@[simp] theorem State.putMembership_evolves {q : Fin 12} {m : Membership} (hk : w.tbk = true) (h : Evolves w s t) :
    Evolves w s (t.putMembership q m) := by
  simp (maxDischargeDepth := 30) [State.putMembership, h, hk]

@[simp] theorem State.dropMembership_evolves {q : Fin 12} {n : Fin 16} (hk : w.tbk = true) (h : Evolves w s t) :
    Evolves w s (t.dropMembership q n) := by
  simp (maxDischargeDepth := 30) [State.dropMembership, h, hk]

/-! ## TBK: calls and keys -/

@[simp] theorem State.setCall_evolves {k : Fin 4} {c : Option CallRec} (hk : w.tbk = true) (h : Evolves w s t) :
    Evolves w s (t.setCall k c) := h.tbkBlock hk

@[simp] theorem State.setCircuit_evolves {c : Fin 15} {u : Option CircuitUse} (hk : w.tbk = true) (h : Evolves w s t) :
    Evolves w s (t.setCircuit c u) := h.tbkBlock hk

@[simp] theorem State.useCircuit_evolves {c : Fin 15} {x : Nat × Nat} (hk : w.tbk = true) (h : Evolves w s t) :
    Evolves w s (t.useCircuit c x) := State.setCircuit_evolves hk h

@[simp] theorem State.freeCircuit_evolves {c : Fin 15} {x : Nat × Nat} (hk : w.tbk = true) (h : Evolves w s t) :
    Evolves w s (t.freeCircuit c x) := by
  unfold State.freeCircuit
  split <;> simp [h, hk]

@[simp] theorem State.takeCircuit_evolves {c : Fin 15} {x : Nat × Nat} (hk : w.tbk = true) (h : Evolves w s t) :
    Evolves w s (t.takeCircuit c x) := by
  unfold State.takeCircuit
  repeat' split
  all_goals simp [h, hk]

@[simp] theorem State.offerCall_evolves {k : Kind} {u : Bool} {n : Nat} {x y : Nat × Nat} {c : Fin 15} {r : Nat}
    (hk : w.tbk = true) (h : Evolves w s t) : Evolves w s (t.offerCall k u n x y c r) := by
  unfold State.offerCall
  dsimp only
  split <;> simp [h, hk]

@[simp] theorem State.offerFor_evolves {k : Kind} {u : Bool} {n : Fin 4} {x : CallRec} {r : Nat}
    (hk : w.tbk = true) (h : Evolves w s t) : Evolves w s (t.offerFor k u n x r) := State.offerCall_evolves hk h

@[simp] theorem State.openCall_evolves {k : Fin 4} {c : CallRec} (hk : w.tbk = true) (h : Evolves w s t) :
    Evolves w s (t.openCall k c) := by
  unfold State.openCall
  dsimp only
  split <;> simp [h, hk]

@[simp] theorem State.answer_evolves {k : Fin 4} {c : CallRec} (hk : w.tbk = true) (h : Evolves w s t) :
    Evolves w s (t.answer k c) := State.offerFor_evolves hk (State.openCall_evolves hk h)

@[simp] theorem State.closeCall_evolves {k : Fin 4} {c : CallRec} {r : EndReason} (hk : w.tbk = true)
    (h : Evolves w s t) : Evolves w s (t.closeCall k c r) := by
  unfold State.closeCall
  dsimp only
  split <;> simp [h, hk]

@[simp] theorem State.endCall_evolves {k : Fin 4} {c : CallRec} {r : EndReason} (hk : w.tbk = true)
    (h : Evolves w s t) : Evolves w s (t.endCall k c r) := State.offerFor_evolves hk (State.closeCall_evolves hk h)

@[simp] theorem State.pressCall_evolves {q : Fin 12} {n p : Nat} (hk : w.tbk = true) (h : Evolves w s t) :
    Evolves w s (t.pressCall q n p) := by
  unfold State.pressCall
  dsimp only
  repeat' split
  all_goals simp [h, hk]

@[simp] theorem State.pressAnswer_evolves {q : Fin 12} (hk : w.tbk = true) (h : Evolves w s t) :
    Evolves w s (t.pressAnswer q) := by
  unfold State.pressAnswer
  repeat' split
  all_goals simp [h, hk]

@[simp] theorem State.keepCall_evolves {k : Fin 4} (hk : w.tbk = true) (h : Evolves w s t) :
    Evolves w s (t.keepCall k) := by
  unfold State.keepCall
  dsimp only
  repeat' split
  all_goals simp [h, hk]

@[simp] theorem State.expireCall_evolves {k : Fin 4} {r : EndReason} (hk : w.tbk = true) (h : Evolves w s t) :
    Evolves w s (t.expireCall k r) := by
  unfold State.expireCall
  split <;> simp [h, hk]

@[simp] theorem State.loseCalls_evolves {n : Nat} (hk : w.tbk = true) (h : Evolves w s t) :
    Evolves w s (t.loseCalls n) :=
  Evolves.foldl _ (fun u _ => by
    have := Evolves.refl w u
    repeat' split
    all_goals simp [this, hk]) _ h

@[simp] theorem State.stationGone_evolves {n : Nat} (hk : w.tbk = true) (h : Evolves w s t) :
    Evolves w s (t.stationGone n) := State.loseCalls_evolves hk (State.dropStation_evolves hk h)

theorem State.readCall_evolves {e : Bool} {o m : Nat} {b : List Byte} {r : State × Disposition} (h : Evolves w s t)
    (hr : t.readCall e o b m = .inl r) : Evolves w s r.1 := by
  unfold State.readCall at hr
  split at hr
  · cases hr; exact h
  · split at hr
    · cases hr
    · cases hr; exact State.count_evolves h

@[simp] theorem State.clashSlot_evolves {c : Fin 15} {x : Nat × Nat} {k : Fin 4} (hk : w.tbk = true) (h : Evolves w s t) :
    Evolves w s (t.clashSlot c x k) := by
  unfold State.clashSlot
  dsimp only
  repeat' split
  all_goals simp [h, hk]

@[simp] theorem State.clash_evolves {c : Fin 15} {x : Nat × Nat} (hk : w.tbk = true) (h : Evolves w s t) :
    Evolves w s (t.clash c x) :=
  Evolves.foldl _ (fun u _ => State.clashSlot_evolves hk (Evolves.refl w u)) _ h

@[simp] theorem State.glare_evolves {k : Fin 4} {c : CallRec} {b : CallBody} (hk : w.tbk = true) (h : Evolves w s t) :
    Evolves w s (t.glare k c b) := by
  unfold State.glare
  dsimp only
  split <;> simp [h, hk]

@[simp] theorem State.ringAgain_evolves {k : Fin 4} {b : CallBody} (hk : w.tbk = true) (h : Evolves w s t) :
    Evolves w s (t.ringAgain k b) := by
  unfold State.ringAgain
  dsimp only
  repeat' split
  all_goals simp [h, hk]

@[simp] theorem State.newRing_evolves {b : CallBody} (hk : w.tbk = true) (h : Evolves w s t) :
    Evolves w s (t.newRing b) := by
  unfold State.newRing
  dsimp only
  repeat' split
  all_goals simp [h, hk]

@[simp] theorem State.ringElsewhere_evolves {o : Nat} {b : CallBody} (hk : w.tbk = true) (h : Evolves w s t) :
    Evolves w s (t.ringElsewhere o b) := by
  unfold State.ringElsewhere
  dsimp only
  split <;> simp (maxDischargeDepth := 30) [h, hk]

@[simp] theorem State.takeRing_evolves {o : Nat} {b : CallBody} (hk : w.tbk = true) (h : Evolves w s t) :
    Evolves w s (t.takeRing o b) := by
  unfold State.takeRing
  dsimp only
  repeat' split
  all_goals simp (maxDischargeDepth := 30) [h, hk]

@[simp] theorem State.takeAnswer_evolves {o : Nat} {b : CallBody} (hk : w.tbk = true) (h : Evolves w s t) :
    Evolves w s (t.takeAnswer o b) := by
  unfold State.takeAnswer
  split <;> simp [h, hk]

@[simp] theorem State.takeKeep_evolves {o : Nat} {b : CallBody} (hk : w.tbk = true) (h : Evolves w s t) :
    Evolves w s (t.takeKeep o b) := by
  unfold State.takeKeep
  dsimp only
  split <;> simp (maxDischargeDepth := 30) [h, hk]

@[simp] theorem State.takeEnd_evolves {o : Nat} {b : CallBody} (hk : w.tbk = true) (h : Evolves w s t) :
    Evolves w s (t.takeEnd o b) := by
  unfold State.takeEnd
  dsimp only
  repeat' split
  all_goals simp [h, hk]

@[simp] theorem State.press_evolves {q : Fin 12} {f : KeyFn} {k : KeyId} (hk : w.tbk = true) (h : Evolves w s t) :
    Evolves w s (t.press q f k) := by
  unfold State.press
  repeat' split
  all_goals simp [h, hk]

@[simp] theorem State.keyChange_evolves {q : Fin 12} {f : KeyFn} {k : KeyId} {held : Bool} (hk : w.tbk = true)
    (h : Evolves w s t) : Evolves w s (t.keyChange q f k held) := by
  unfold State.keyChange
  repeat' split
  all_goals simp [h, hk]

@[simp] theorem State.keySettled_evolves {k : Fin 16} (hk : w.tbk = true) (h : Evolves w s t) :
    Evolves w s (t.keySettled k) := by
  have hc {x} : Evolves w s { t with tbk := { t.tbk with keys := x } } := h.tbkBlock hk
  unfold State.keySettled
  dsimp only
  repeat' split
  all_goals first
    | exact hc
    | exact State.keyChange_evolves hk hc

@[simp] theorem State.beltpack_evolves {a : Fin 8} {x y : BitVec 4} (hk : w.tbk = true) (h : Evolves w s t) :
    Evolves w s (t.beltpack a x y) := by
  unfold State.beltpack
  repeat' split
  all_goals first
    | exact h
    | exact Evolves.foldl _ (fun u _ => by
        have := Evolves.refl w u
        split <;> simp [this, hk]) _ h

@[simp] theorem State.endIndication_evolves {q : Fin 12} (hk : w.tbk = true) (h : Evolves w s t) :
    Evolves w s (t.endIndication q) := State.modTbPort_evolves hk h

@[simp] theorem State.quietTbk_evolves (hk : w.tbk = true) (h : Evolves w s t) : Evolves w s t.quietTbk := h.tbkBlock hk

@[simp] theorem State.leaveTbk_evolves (hk : w.tbk = true) (h : Evolves w s t) : Evolves w s t.leaveTbk := by
  unfold State.leaveTbk
  dsimp only
  refine State.quietTbk_evolves hk (State.overPorts_evolves (fun q r u => ?_)
    (State.overPorts_evolves (fun q r u => ?_) (State.overPorts_evolves (fun q r u => ?_) ?_)))
  · exact State.offerAll_evolves (fun m : Membership => leaveOffer q m.line) r.members (Evolves.refl w u)
  · split <;> simp [Evolves.refl w u]
  · split <;> simp [Evolves.refl w u]
  · exact Evolves.foldl _ (fun u k => by
      have := Evolves.refl w u
      split <;> simp [this, hk]) _ h

/-! ## MGMT: tasks -/

@[simp] theorem State.answerTask_evolves {k : TaskIn} {r : ReturnCode} {d : List Byte} (h : Evolves w s t) :
    Evolves w s (t.answerTask k r d) := State.reply_evolves h

@[simp] theorem State.rejectTask_evolves {k : TaskIn} {r : ReturnCode} (h : Evolves w s t) :
    Evolves w s (t.rejectTask k r) := State.answerTask_evolves h

@[simp] theorem State.setRule_evolves {k : Fin 4} {r : CaptureRule} (h : Evolves w s t) : Evolves w s (t.setRule k r) :=
  h.mgmt

@[simp] theorem State.noteTask_evolves {k : TaskIn} (h : Evolves w s t) : Evolves w s (t.noteTask k) := h.mgmt

theorem State.taskLink_link {t : State} {k : TaskIn} {l : Fin 8} {x : LinkRec} (h : t.taskLink k = .inr (l, x)) :
    t.link l = some x := by
  unfold State.taskLink at h
  repeat' split at h
  all_goals cases h
  assumption

@[simp] theorem State.setClass_evolves {k : TaskIn} (h : Evolves w s t) : Evolves w s (t.setClass k) := by
  unfold State.setClass
  split
  · exact State.rejectTask_evolves h
  · rename_i hx
    split
    · exact State.answerTask_evolves (State.setLink_keep_evolves (State.taskLink_link hx) rfl h)
    · exact State.rejectTask_evolves h

@[simp] theorem State.setSample_evolves {k : TaskIn} (h : Evolves w s t) : Evolves w s (t.setSample k) := by
  unfold State.setSample
  split
  · exact State.rejectTask_evolves h
  · rename_i hx
    repeat' split
    all_goals first
      | exact State.rejectTask_evolves h
      | exact State.answerTask_evolves (State.setLink_keep_evolves (State.taskLink_link hx) rfl h)

@[simp] theorem State.unpinLink_evolves {k : TaskIn} (hp : w.plan = true) (hr : w.rport = true) (h : Evolves w s t) :
    Evolves w s (t.unpinLink k) := by
  unfold State.unpinLink
  split
  · exact State.rejectTask_evolves h
  · rename_i l x hx
    have hs : Evolves w s (t.setLink l { x with pinned := false }) :=
      State.setLink_keep_evolves (State.taskLink_link hx) rfl h
    dsimp only
    split
    · exact State.answerTask_evolves (State.lossReloc_evolves hp hr hs)
    · exact State.answerTask_evolves hs

@[simp] theorem State.startLong_evolves {k : TaskIn} {c : TaskCode} {l : Fin 8} {a : Cause} {sp : Option Span} {o : Bool}
    (hp : w.plan = true) (hr : w.rport = true) (h : Evolves w s t) : Evolves w s (t.startLong k c l a sp o) :=
  State.startReloc_evolves hp hr h.mgmt

@[simp] theorem State.pinLink_evolves {k : TaskIn} (hp : w.plan = true) (hr : w.rport = true) (h : Evolves w s t) :
    Evolves w s (t.pinLink k) := by
  unfold State.pinLink
  repeat' split
  all_goals simp [h, hp, hr]

@[simp] theorem State.moveLink_evolves {k : TaskIn} (hp : w.plan = true) (hr : w.rport = true) (h : Evolves w s t) :
    Evolves w s (t.moveLink k) := by
  unfold State.moveLink
  repeat' split
  all_goals simp [h, hp, hr]

theorem State.applyMembership_evolves {q : Fin 12} {r : TbPort} {n : Fin 16} {a b c : Bool} {u : State}
    (hk : w.tbk = true) (h : Evolves w s t) (hu : t.applyMembership q r n a b c = some u) : Evolves w s u := by
  have hd : Evolves w s (t.dropMembership q n) := State.dropMembership_evolves hk h
  have hm (m) : Evolves w s (t.putMembership q m) := State.putMembership_evolves hk h
  generalize hD : t.dropMembership q n = d at hd
  unfold State.applyMembership at hu
  simp only [hD] at hu
  repeat' split at hu
  all_goals first
    | (have e := Option.some.inj hu; rw [← e]; with_reducible first | exact h | exact hd | exact hm _)
    | exact absurd hu (Option.some_ne_none u).symm

@[simp] theorem State.setMembership_evolves {k : TaskIn} (hk : w.tbk = true) (h : Evolves w s t) :
    Evolves w s (t.setMembership k) := by
  unfold State.setMembership
  split
  · split
    · exact State.rejectTask_evolves h
    · split
      · rename_i u hu
        exact State.answerTask_evolves (State.applyMembership_evolves hk h hu)
      · exact State.rejectTask_evolves h
  · exact State.rejectTask_evolves h

/-- Every task but RESTART, which changes the phase. -/
theorem State.runTask_evolves {c : TaskCode} {k : TaskIn} (hc : c ≠ .restart) (hp : w.plan = true) (hr : w.rport = true)
    (ht : w.tally = true) (hk : w.tbk = true) (h : Evolves w s t) : Evolves w s (t.runTask c k) := by
  cases c
  case restart => exact absurd rfl hc
  case readStation => exact State.answerTask_evolves h
  case readLink => simp only [State.runTask, State.readLink]; split <;> simp [h]
  case readPlan => simp only [State.runTask, State.readPlan]; split <;> simp [h]
  case readTally =>
    simp only [State.runTask, State.readTally]
    repeat' split
    all_goals simp [h, ht]
  case readLine => simp only [State.runTask, State.readLine]; split <;> simp [h]
  case readCounters =>
    simp only [State.runTask, State.readCounters]
    repeat' split
    all_goals simp [h]
  case setCounter =>
    simp only [State.runTask, State.setCounter]
    split
    · exact State.answerTask_evolves h.mgmt
    · simp [h]
  case armCapture =>
    simp only [State.runTask, State.armCapture]
    repeat' split
    all_goals simp [h]
  case readCapture =>
    simp only [State.runTask, State.readCapture]
    repeat' split
    all_goals simp [h]
  all_goals simp [State.runTask, h, hp, hr, hk]

@[simp] theorem State.taskTimeout_evolves (h : Evolves w s t) : Evolves w s t.taskTimeout := by
  unfold State.taskTimeout
  split
  · exact State.reply_evolves (State.modReloc_evolves h.mgmt)
  · exact h

end Sys2Proof.Machine
end

