-- ==== Sys2Proof/Laws/EvolvesRest.lean ====
section
/-! SUPPORT. The receive path, the senders, the front-ends and the timers evolve the station (Laws/Evolves.lean), as far as
they change no phase. -/

namespace Sys2Proof.Machine

variable {w : Writes} {s t : State}

/-! ## The receive path -/

@[simp] theorem State.setOrigin_evolves {i : Fin 127} {o : Option Origin} (h : Evolves w s t) :
    Evolves w s (t.setOrigin i o) := h.biu rfl rfl rfl (Nat.le_refl _) (fun _ => id) id

@[simp] theorem State.setRoster_evolves {i : Fin 127} {e : Option RosterEntry} (h : Evolves w s t) :
    Evolves w s (t.setRoster i e) := h.biu rfl rfl rfl (Nat.le_refl _) (fun _ => id) id

@[simp] theorem State.learn_evolves {p : BusPort} {b : Bulletin} (h : Evolves w s t) : Evolves w s (t.learn p b) := by
  unfold State.learn
  repeat' split
  all_goals simp [h]

@[simp] theorem State.forwardTo_evolves {p : BusPort} {b : Bulletin} (h : Evolves w s t) :
    Evolves w s (t.forwardTo p b) := by
  unfold State.forwardTo
  split
  · rename_i hl
    exact State.setFwd_evolves (fun _ => by simp only [List.length_append, List.length_singleton]; omega) h
  · simp [h]

@[simp] theorem State.forward_evolves {p : BusPort} {b : Bulletin} (h : Evolves w s t) :
    Evolves w s (t.forward p b) := by
  unfold State.forward
  repeat' split
  all_goals simp [h]

@[simp] theorem State.takePresence_evolves {n m : Nat} {l : List PresenceRecord} (hk : w.tbk = true) (h : Evolves w s t) :
    Evolves w s (t.takePresence n m l) := by
  unfold State.takePresence
  split
  · exact h
  · refine State.agreeMembers_evolves hk (State.setRoster_evolves ?_)
    split
    · split
      · exact h
      · exact State.stationGone_evolves hk (State.setRoster_evolves h)
    · exact h

@[simp] theorem State.makeCapture_evolves {b : Bulletin} {d : Disposition} {k : Fin 4} (h : Evolves w s t) :
    Evolves w s (State.makeCapture b d t k) := State.setRule_evolves (State.offer_evolves h)

/-! ## The senders -/

@[simp] theorem State.startAttempt_evolves {p : BusPort} (h : Evolves w s t) : Evolves w s (t.startAttempt p) := by
  unfold State.startAttempt
  repeat' split
  all_goals simp [h]

@[simp] theorem State.report_evolves {e : QueueEntry} {x : Bool} (hp : w.plan = true) (hr : w.rport = true)
    (h : Evolves w s t) : Evolves w s (t.report e x) := by
  unfold State.report
  repeat' split
  all_goals first
    | exact State.withNews_evolves hp hr (State.claimAbandoned_evolves hp h)
    | simp [h, hp]

@[simp] theorem State.dropHead_evolves {p : BusPort} (h : Evolves w s t) : Evolves w s (t.dropHead p) :=
  State.setFwd_evolves (fun b => by simp only [List.length_drop]; omega) h

@[simp] theorem State.noteFailure_evolves {p : BusPort} {k : Nat} {x : Tx} (h : Evolves w s t) :
    Evolves w s (t.noteFailure p k x) := by
  unfold State.noteFailure
  split
  · refine State.mapQueue_evolves (fun e => ?_) h
    split
    · cases p <;> exact ⟨rfl, rfl⟩
    · exact ⟨rfl, rfl⟩
  · split
    · rename_i e rest he
      exact State.setFwd_evolves (fun b => by rw [he] at b; exact b) h
    · exact h

/-! ## The front-ends -/

theorem State.tellLink_evolves {a : Fin 8} {f : Fin 8 → State → State} (hf : ∀ l, Evolves w s (f l t))
    (h : Evolves w s t) : Evolves w s (t.tellLink a f) := by
  unfold State.tellLink
  split
  · exact hf _
  · exact h

@[simp] theorem State.tuneAnswered_evolves {a : Fin 8} {n : Byte} {ok : Bool} (hp : w.plan = true) (hr : w.rport = true)
    (h : Evolves w s t) : Evolves w s (t.tuneAnswered a n ok) := by
  unfold State.tuneAnswered
  dsimp only
  split
  · rename_i sp hsp
    have hs {r : FrontEnd} : Evolves w s (t.setFe a r) := State.setFe_evolves hr (fun _ ho => by
      rw [show t.rport.fe[a].state = CmdState.tuning sp from hsp] at ho
      simp [CmdState.off] at ho) h
    split
    · exact State.tellLink_evolves (fun l => by
        split
        · exact State.tunedOk_evolves hp hr hs
        · exact State.tuneLost_evolves hp hr hs) hs
    · exact h
  all_goals exact h

@[simp] theorem State.tuneTimedOut_evolves {a : Fin 8} (hp : w.plan = true) (hr : w.rport = true) (h : Evolves w s t) :
    Evolves w s (t.tuneTimedOut a) := by
  have hs (r : FrontEnd) (ho : r.state = .muted ∨ r.state = (t.fe a).state) : Evolves w s (t.setFe a r) :=
    State.setFe_evolves hr (fun _ hf => by
      rcases ho with ho | ho
      · simp [ho, CmdState.off]
      · rw [ho]; exact hf) h
  unfold State.tuneTimedOut
  dsimp only
  split
  · have hm := hs { t.fe a with state := .muted, sent := false, tuneTimer := none } (Or.inl rfl)
    have hq := State.queueMute_evolves (a := a) hr hm
    exact State.tellLink_evolves (fun l => State.tuneLost_evolves hp hr hq) hq
  all_goals exact hs { t.fe a with tuneTimer := none } (Or.inr rfl)

@[simp] theorem State.enterFault_evolves {a : Fin 8} (hp : w.plan = true) (hr : w.rport = true) (h : Evolves w s t) :
    Evolves w s (t.enterFault a) := by
  have hs : Evolves w s (t.setFe a { t.fe a with state := .fault, sent := false, tuneTimer := none }) :=
    State.setFe_evolves hr (fun _ _ => rfl) h
  unfold State.enterFault
  dsimp only
  split
  · have hd := State.withdrawTune_evolves (a := a) hr hs
    have hl := State.tellLink_evolves (a := a) (f := fun l s => s.tuneLost l)
      (fun l => State.tuneLost_evolves hp hr hd) hd
    exact State.tellLink_evolves (fun l => State.hearFault_evolves hp hl) hl
  · exact State.tellLink_evolves (fun l => State.hearFault_evolves hp hs) hs
  · exact State.tellLink_evolves (fun l => State.hearFault_evolves hp hs) hs
  · exact h

@[simp] theorem State.leaveFault_evolves {a : Fin 8} (hp : w.plan = true) (hr : w.rport = true) (h : Evolves w s t) :
    Evolves w s (t.leaveFault a) := by
  have hs : Evolves w s (t.setFe a { t.fe a with state := .muted }) := State.setFe_evolves hr (fun _ _ => rfl) h
  unfold State.leaveFault
  dsimp only
  split
  · exact State.tellLink_evolves (fun l => State.hearRecovered_evolves hp hr hs) hs
  all_goals exact h

@[simp] theorem State.reportKeys_evolves {a : Fin 8} {x : BitVec 4} (hr : w.rport = true) (hk : w.tbk = true)
    (h : Evolves w s t) : Evolves w s (t.reportKeys a x) := by
  unfold State.reportKeys
  dsimp only
  split
  · exact State.beltpack_evolves hk (State.setFe_evolves hr (fun _ ho => ho) h)
  · exact h

@[simp] theorem State.takeReport_evolves {a : Fin 8} {m : Report} (hp : w.plan = true) (hr : w.rport = true)
    (hk : w.tbk = true) (h : Evolves w s t) : Evolves w s (t.takeReport a m) := by
  have hs : Evolves w s (t.setFe a ((t.fe a).store m)) := State.setFe_evolves hr (fun _ ho => ho) h
  unfold State.takeReport
  dsimp only
  split
  · exact h
  · refine State.reportKeys_evolves hr hk ?_
    split
    · exact State.enterFault_evolves hp hr hs
    · exact State.leaveFault_evolves hp hr hs

/-! ## Timers -/

@[simp] theorem State.forgetOrigin_evolves {n : Fin 127} (h : Evolves w s t) : Evolves w s (t.forgetOrigin n) :=
  State.setOrigin_evolves h

@[simp] theorem State.rosterGone_evolves {n : Fin 127} (hk : w.tbk = true) (h : Evolves w s t) :
    Evolves w s (t.rosterGone n) := State.stationGone_evolves hk (State.setRoster_evolves h)

@[simp] theorem State.sendPresence_evolves (h : Evolves w s t) : Evolves w s t.sendPresence :=
  (State.offered_evolves h).biu rfl rfl rfl (Nat.le_refl _) (fun _ => id) id

@[simp] theorem State.peerGone_evolves {j : Fin 96} (hp : w.plan = true) (hq : w.replica = true) (hr : w.rport = true) (h : Evolves w s t) :
    Evolves w s (t.peerGone j) := by
  unfold State.peerGone
  split
  · exact State.withNews_evolves hp hr (State.pairRemoved_evolves hp (State.setPeer_evolves hp hq h))
  · exact h

@[simp] theorem State.overfullOver_evolves (hp : w.plan = true) (hq : w.replica = true) (hr : w.rport = true) (h : Evolves w s t) :
    Evolves w s t.overfullOver := by
  refine Evolves.foldl _ (fun u l => ?_) _ (h.planBlock hp (fun _ => id) id fun h => by simp [hq] at h)
  have := Evolves.refl w u
  split <;> simp [this, hp, hr]

@[simp] theorem State.quarantineOver_evolves {sp : Span} (hp : w.plan = true) (hq : w.replica = true) (h : Evolves w s t) :
    Evolves w s (t.quarantineOver sp) := h.planBlock hp (fun _ => id) id fun h => by simp [hq] at h

@[simp] theorem State.copyOver_evolves {n m : Nat} {sp : Span} (h : Evolves w s t) : Evolves w s (t.copyOver n sp m) :=
  h.lsup fun _ => id

@[simp] theorem State.circuitOver_evolves {c : Fin 15} (hk : w.tbk = true) (h : Evolves w s t) :
    Evolves w s (t.circuitOver c) := State.setCircuit_evolves hk h

@[simp] theorem State.updateSent_evolves (hk : w.tbk = true) (h : Evolves w s t) : Evolves w s t.updateSent := by
  unfold State.updateSent
  dsimp only
  split
  · exact h
  · exact h.tbkBlock hk

@[simp] theorem State.recentOver_evolves {a b c : Nat} (h : Evolves w s t) : Evolves w s (t.recentOver a b c) := h.mgmt

end Sys2Proof.Machine
end

