-- ==== Sys2Proof/Laws/State.lean ====
section
/-! SUPPORT. Each field of the station after each plain update of it, and what the end of an event leaves alone: one
conjunction for an update, its parts rewriting rules, so that no proof unfolds an update. -/

namespace Sys2Proof.Machine

variable (s : State)

@[simp] theorem State.reach_fields (d : Nat) :
    (s.reach d).now = max s.now d ∧ (s.reach d).phase = s.phase ∧ (s.reach d).resetHeld = s.resetHeld ∧
    (s.reach d).faultLine = s.faultLine ∧ (s.reach d).pins = s.pins ∧ (s.reach d).cfg = s.cfg ∧
    (s.reach d).biu = s.biu ∧ (s.reach d).plan = s.plan ∧ (s.reach d).rport = s.rport ∧ (s.reach d).lsup = s.lsup ∧
    (s.reach d).tally = s.tally ∧ (s.reach d).tbk = s.tbk ∧ (s.reach d).mgmt = s.mgmt ∧
    (s.reach d).pending = s.pending :=
  ⟨rfl, rfl, rfl, rfl, rfl, rfl, rfl, rfl, rfl, rfl, rfl, rfl, rfl, rfl⟩

@[simp] theorem State.setPort_fields (p : BusPort) (x : PortState) :
    (s.setPort p x).now = s.now ∧ (s.setPort p x).phase = s.phase ∧ (s.setPort p x).resetHeld = s.resetHeld ∧
    (s.setPort p x).faultLine = s.faultLine ∧ (s.setPort p x).pins = s.pins ∧ (s.setPort p x).cfg = s.cfg ∧
    (s.setPort p x).biu = s.biu.setPort p x ∧ (s.setPort p x).plan = s.plan ∧ (s.setPort p x).rport = s.rport ∧
    (s.setPort p x).lsup = s.lsup ∧ (s.setPort p x).tally = s.tally ∧ (s.setPort p x).tbk = s.tbk ∧
    (s.setPort p x).mgmt = s.mgmt ∧ (s.setPort p x).pending = s.pending :=
  ⟨rfl, rfl, rfl, rfl, rfl, rfl, rfl, rfl, rfl, rfl, rfl, rfl, rfl, rfl⟩

@[simp] theorem State.setFwd_fields (p : BusPort) (x : List FwdEntry) :
    (s.setFwd p x).now = s.now ∧ (s.setFwd p x).phase = s.phase ∧ (s.setFwd p x).resetHeld = s.resetHeld ∧
    (s.setFwd p x).faultLine = s.faultLine ∧ (s.setFwd p x).pins = s.pins ∧ (s.setFwd p x).cfg = s.cfg ∧
    (s.setFwd p x).biu = s.biu.setFwd p x ∧ (s.setFwd p x).plan = s.plan ∧ (s.setFwd p x).rport = s.rport ∧
    (s.setFwd p x).lsup = s.lsup ∧ (s.setFwd p x).tally = s.tally ∧ (s.setFwd p x).tbk = s.tbk ∧
    (s.setFwd p x).mgmt = s.mgmt ∧ (s.setFwd p x).pending = s.pending :=
  ⟨rfl, rfl, rfl, rfl, rfl, rfl, rfl, rfl, rfl, rfl, rfl, rfl, rfl, rfl⟩

@[simp] theorem State.setQueue_fields (x : List QueueEntry) :
    (s.setQueue x).now = s.now ∧ (s.setQueue x).phase = s.phase ∧ (s.setQueue x).resetHeld = s.resetHeld ∧
    (s.setQueue x).faultLine = s.faultLine ∧ (s.setQueue x).pins = s.pins ∧ (s.setQueue x).cfg = s.cfg ∧
    (s.setQueue x).biu = { s.biu with queue := x } ∧ (s.setQueue x).plan = s.plan ∧
    (s.setQueue x).rport = s.rport ∧ (s.setQueue x).lsup = s.lsup ∧ (s.setQueue x).tally = s.tally ∧
    (s.setQueue x).tbk = s.tbk ∧ (s.setQueue x).mgmt = s.mgmt ∧ (s.setQueue x).pending = s.pending :=
  ⟨rfl, rfl, rfl, rfl, rfl, rfl, rfl, rfl, rfl, rfl, rfl, rfl, rfl, rfl⟩

@[simp] theorem State.setOrigin_fields (i : Fin 127) (x : Option Origin) :
    (s.setOrigin i x).now = s.now ∧ (s.setOrigin i x).phase = s.phase ∧ (s.setOrigin i x).resetHeld = s.resetHeld ∧
    (s.setOrigin i x).faultLine = s.faultLine ∧ (s.setOrigin i x).pins = s.pins ∧ (s.setOrigin i x).cfg = s.cfg ∧
    (s.setOrigin i x).biu = { s.biu with origins := s.biu.origins.set i x } ∧ (s.setOrigin i x).plan = s.plan ∧
    (s.setOrigin i x).rport = s.rport ∧ (s.setOrigin i x).lsup = s.lsup ∧ (s.setOrigin i x).tally = s.tally ∧
    (s.setOrigin i x).tbk = s.tbk ∧ (s.setOrigin i x).mgmt = s.mgmt ∧ (s.setOrigin i x).pending = s.pending :=
  ⟨rfl, rfl, rfl, rfl, rfl, rfl, rfl, rfl, rfl, rfl, rfl, rfl, rfl, rfl⟩

@[simp] theorem State.setRoster_fields (i : Fin 127) (x : Option RosterEntry) :
    (s.setRoster i x).now = s.now ∧ (s.setRoster i x).phase = s.phase ∧ (s.setRoster i x).resetHeld = s.resetHeld ∧
    (s.setRoster i x).faultLine = s.faultLine ∧ (s.setRoster i x).pins = s.pins ∧ (s.setRoster i x).cfg = s.cfg ∧
    (s.setRoster i x).biu = { s.biu with roster := s.biu.roster.set i x } ∧ (s.setRoster i x).plan = s.plan ∧
    (s.setRoster i x).rport = s.rport ∧ (s.setRoster i x).lsup = s.lsup ∧ (s.setRoster i x).tally = s.tally ∧
    (s.setRoster i x).tbk = s.tbk ∧ (s.setRoster i x).mgmt = s.mgmt ∧ (s.setRoster i x).pending = s.pending :=
  ⟨rfl, rfl, rfl, rfl, rfl, rfl, rfl, rfl, rfl, rfl, rfl, rfl, rfl, rfl⟩

@[simp] theorem State.setLeaveOffers_fields (x : Bool) :
    (s.setLeaveOffers x).now = s.now ∧ (s.setLeaveOffers x).phase = s.phase ∧
    (s.setLeaveOffers x).resetHeld = s.resetHeld ∧ (s.setLeaveOffers x).faultLine = s.faultLine ∧
    (s.setLeaveOffers x).pins = s.pins ∧ (s.setLeaveOffers x).cfg = s.cfg ∧
    (s.setLeaveOffers x).biu = { s.biu with leaveOffers := x } ∧ (s.setLeaveOffers x).plan = s.plan ∧
    (s.setLeaveOffers x).rport = s.rport ∧ (s.setLeaveOffers x).lsup = s.lsup ∧
    (s.setLeaveOffers x).tally = s.tally ∧ (s.setLeaveOffers x).tbk = s.tbk ∧ (s.setLeaveOffers x).mgmt = s.mgmt ∧
    (s.setLeaveOffers x).pending = s.pending :=
  ⟨rfl, rfl, rfl, rfl, rfl, rfl, rfl, rfl, rfl, rfl, rfl, rfl, rfl, rfl⟩

@[simp] theorem State.setOwn_fields (i : Fin 16) (x : Option OwnEntry) :
    (s.setOwn i x).now = s.now ∧ (s.setOwn i x).phase = s.phase ∧ (s.setOwn i x).resetHeld = s.resetHeld ∧
    (s.setOwn i x).faultLine = s.faultLine ∧ (s.setOwn i x).pins = s.pins ∧ (s.setOwn i x).cfg = s.cfg ∧
    (s.setOwn i x).biu = s.biu ∧ (s.setOwn i x).plan = { s.plan with own := s.plan.own.set i x } ∧
    (s.setOwn i x).rport = s.rport ∧ (s.setOwn i x).lsup = s.lsup ∧ (s.setOwn i x).tally = s.tally ∧
    (s.setOwn i x).tbk = s.tbk ∧ (s.setOwn i x).mgmt = s.mgmt ∧ (s.setOwn i x).pending = s.pending :=
  ⟨rfl, rfl, rfl, rfl, rfl, rfl, rfl, rfl, rfl, rfl, rfl, rfl, rfl, rfl⟩

@[simp] theorem State.setPeer_fields (j : Fin 96) (x : Option PeerEntry) :
    (s.setPeer j x).now = s.now ∧ (s.setPeer j x).phase = s.phase ∧ (s.setPeer j x).resetHeld = s.resetHeld ∧
    (s.setPeer j x).faultLine = s.faultLine ∧ (s.setPeer j x).pins = s.pins ∧ (s.setPeer j x).cfg = s.cfg ∧
    (s.setPeer j x).biu = s.biu ∧ (s.setPeer j x).plan = { s.plan with peers := s.plan.peers.set j x } ∧
    (s.setPeer j x).rport = s.rport ∧ (s.setPeer j x).lsup = s.lsup ∧ (s.setPeer j x).tally = s.tally ∧
    (s.setPeer j x).tbk = s.tbk ∧ (s.setPeer j x).mgmt = s.mgmt ∧ (s.setPeer j x).pending = s.pending :=
  ⟨rfl, rfl, rfl, rfl, rfl, rfl, rfl, rfl, rfl, rfl, rfl, rfl, rfl, rfl⟩

@[simp] theorem State.setFe_fields (a : Fin 8) (x : FrontEnd) :
    (s.setFe a x).now = s.now ∧ (s.setFe a x).phase = s.phase ∧ (s.setFe a x).resetHeld = s.resetHeld ∧
    (s.setFe a x).faultLine = s.faultLine ∧ (s.setFe a x).pins = s.pins ∧ (s.setFe a x).cfg = s.cfg ∧
    (s.setFe a x).biu = s.biu ∧ (s.setFe a x).plan = s.plan ∧
    (s.setFe a x).rport = { s.rport with fe := s.rport.fe.set a x } ∧ (s.setFe a x).lsup = s.lsup ∧
    (s.setFe a x).tally = s.tally ∧ (s.setFe a x).tbk = s.tbk ∧ (s.setFe a x).mgmt = s.mgmt ∧
    (s.setFe a x).pending = s.pending :=
  ⟨rfl, rfl, rfl, rfl, rfl, rfl, rfl, rfl, rfl, rfl, rfl, rfl, rfl, rfl⟩

@[simp] theorem State.queueCmd_fields (x : RadioCmd) :
    (s.queueCmd x).now = s.now ∧ (s.queueCmd x).phase = s.phase ∧ (s.queueCmd x).resetHeld = s.resetHeld ∧
    (s.queueCmd x).faultLine = s.faultLine ∧ (s.queueCmd x).pins = s.pins ∧ (s.queueCmd x).cfg = s.cfg ∧
    (s.queueCmd x).biu = s.biu ∧ (s.queueCmd x).plan = s.plan ∧
    (s.queueCmd x).rport = { s.rport with fresh := s.rport.fresh ++ [x] } ∧ (s.queueCmd x).lsup = s.lsup ∧
    (s.queueCmd x).tally = s.tally ∧ (s.queueCmd x).tbk = s.tbk ∧ (s.queueCmd x).mgmt = s.mgmt ∧
    (s.queueCmd x).pending = s.pending :=
  ⟨rfl, rfl, rfl, rfl, rfl, rfl, rfl, rfl, rfl, rfl, rfl, rfl, rfl, rfl⟩

@[simp] theorem State.mapCmds_fields (f : RadioCmd → RadioCmd) :
    (s.mapCmds f).now = s.now ∧ (s.mapCmds f).phase = s.phase ∧ (s.mapCmds f).resetHeld = s.resetHeld ∧
    (s.mapCmds f).faultLine = s.faultLine ∧ (s.mapCmds f).pins = s.pins ∧ (s.mapCmds f).cfg = s.cfg ∧
    (s.mapCmds f).biu = s.biu ∧ (s.mapCmds f).plan = s.plan ∧
    (s.mapCmds f).rport = { s.rport with pending := s.rport.pending.map f, fresh := s.rport.fresh.map f } ∧
    (s.mapCmds f).lsup = s.lsup ∧ (s.mapCmds f).tally = s.tally ∧ (s.mapCmds f).tbk = s.tbk ∧
    (s.mapCmds f).mgmt = s.mgmt ∧ (s.mapCmds f).pending = s.pending :=
  ⟨rfl, rfl, rfl, rfl, rfl, rfl, rfl, rfl, rfl, rfl, rfl, rfl, rfl, rfl⟩

@[simp] theorem State.setLink_fields (l : Fin 8) (x : LinkRec) :
    (s.setLink l x).now = s.now ∧ (s.setLink l x).phase = s.phase ∧ (s.setLink l x).resetHeld = s.resetHeld ∧
    (s.setLink l x).faultLine = s.faultLine ∧ (s.setLink l x).pins = s.pins ∧ (s.setLink l x).cfg = s.cfg ∧
    (s.setLink l x).biu = s.biu ∧ (s.setLink l x).plan = s.plan ∧ (s.setLink l x).rport = s.rport ∧
    (s.setLink l x).lsup = { s.lsup with links := s.lsup.links.set l (some x) } ∧ (s.setLink l x).tally = s.tally ∧
    (s.setLink l x).tbk = s.tbk ∧ (s.setLink l x).mgmt = s.mgmt ∧ (s.setLink l x).pending = s.pending :=
  ⟨rfl, rfl, rfl, rfl, rfl, rfl, rfl, rfl, rfl, rfl, rfl, rfl, rfl, rfl⟩

@[simp] theorem State.setFilter_fields (d : Band) (x : List CopyEntry) :
    (s.setFilter d x).now = s.now ∧ (s.setFilter d x).phase = s.phase ∧ (s.setFilter d x).resetHeld = s.resetHeld ∧
    (s.setFilter d x).faultLine = s.faultLine ∧ (s.setFilter d x).pins = s.pins ∧ (s.setFilter d x).cfg = s.cfg ∧
    (s.setFilter d x).biu = s.biu ∧ (s.setFilter d x).plan = s.plan ∧ (s.setFilter d x).rport = s.rport ∧
    (s.setFilter d x).lsup = { s.lsup with filters := s.lsup.filters.set d.index x } ∧
    (s.setFilter d x).tally = s.tally ∧ (s.setFilter d x).tbk = s.tbk ∧ (s.setFilter d x).mgmt = s.mgmt ∧
    (s.setFilter d x).pending = s.pending :=
  ⟨rfl, rfl, rfl, rfl, rfl, rfl, rfl, rfl, rfl, rfl, rfl, rfl, rfl, rfl⟩

@[simp] theorem State.setLayer_fields (k : Fin 8) (x : Layer) :
    (s.setLayer k x).now = s.now ∧ (s.setLayer k x).phase = s.phase ∧ (s.setLayer k x).resetHeld = s.resetHeld ∧
    (s.setLayer k x).faultLine = s.faultLine ∧ (s.setLayer k x).pins = s.pins ∧ (s.setLayer k x).cfg = s.cfg ∧
    (s.setLayer k x).biu = s.biu ∧ (s.setLayer k x).plan = s.plan ∧ (s.setLayer k x).rport = s.rport ∧
    (s.setLayer k x).lsup = s.lsup ∧ (s.setLayer k x).tally = { s.tally with layers := s.tally.layers.set k x } ∧
    (s.setLayer k x).tbk = s.tbk ∧ (s.setLayer k x).mgmt = s.mgmt ∧ (s.setLayer k x).pending = s.pending :=
  ⟨rfl, rfl, rfl, rfl, rfl, rfl, rfl, rfl, rfl, rfl, rfl, rfl, rfl, rfl⟩

@[simp] theorem State.setSource_fields (k : Fin 8) (x : Option Source) :
    (s.setSource k x).now = s.now ∧ (s.setSource k x).phase = s.phase ∧ (s.setSource k x).resetHeld = s.resetHeld ∧
    (s.setSource k x).faultLine = s.faultLine ∧ (s.setSource k x).pins = s.pins ∧ (s.setSource k x).cfg = s.cfg ∧
    (s.setSource k x).biu = s.biu ∧ (s.setSource k x).plan = s.plan ∧ (s.setSource k x).rport = s.rport ∧
    (s.setSource k x).lsup = s.lsup ∧
    (s.setSource k x).tally = { s.tally with sources := s.tally.sources.set k x } ∧ (s.setSource k x).tbk = s.tbk ∧
    (s.setSource k x).mgmt = s.mgmt ∧ (s.setSource k x).pending = s.pending :=
  ⟨rfl, rfl, rfl, rfl, rfl, rfl, rfl, rfl, rfl, rfl, rfl, rfl, rfl, rfl⟩

@[simp] theorem State.setTbPort_fields (q : Fin 12) (x : TbPort) :
    (s.setTbPort q x).now = s.now ∧ (s.setTbPort q x).phase = s.phase ∧ (s.setTbPort q x).resetHeld = s.resetHeld ∧
    (s.setTbPort q x).faultLine = s.faultLine ∧ (s.setTbPort q x).pins = s.pins ∧ (s.setTbPort q x).cfg = s.cfg ∧
    (s.setTbPort q x).biu = s.biu ∧ (s.setTbPort q x).plan = s.plan ∧ (s.setTbPort q x).rport = s.rport ∧
    (s.setTbPort q x).lsup = s.lsup ∧ (s.setTbPort q x).tally = s.tally ∧
    (s.setTbPort q x).tbk = { s.tbk with ports := s.tbk.ports.set q (some x) } ∧ (s.setTbPort q x).mgmt = s.mgmt ∧
    (s.setTbPort q x).pending = s.pending :=
  ⟨rfl, rfl, rfl, rfl, rfl, rfl, rfl, rfl, rfl, rfl, rfl, rfl, rfl, rfl⟩

@[simp] theorem State.setLine_fields (n : Fin 16) (x : Line) :
    (s.setLine n x).now = s.now ∧ (s.setLine n x).phase = s.phase ∧ (s.setLine n x).resetHeld = s.resetHeld ∧
    (s.setLine n x).faultLine = s.faultLine ∧ (s.setLine n x).pins = s.pins ∧ (s.setLine n x).cfg = s.cfg ∧
    (s.setLine n x).biu = s.biu ∧ (s.setLine n x).plan = s.plan ∧ (s.setLine n x).rport = s.rport ∧
    (s.setLine n x).lsup = s.lsup ∧ (s.setLine n x).tally = s.tally ∧
    (s.setLine n x).tbk = { s.tbk with lines := s.tbk.lines.set n x } ∧ (s.setLine n x).mgmt = s.mgmt ∧
    (s.setLine n x).pending = s.pending :=
  ⟨rfl, rfl, rfl, rfl, rfl, rfl, rfl, rfl, rfl, rfl, rfl, rfl, rfl, rfl⟩

@[simp] theorem State.setFollows_fields (x : List FollowEntry) :
    (s.setFollows x).now = s.now ∧ (s.setFollows x).phase = s.phase ∧ (s.setFollows x).resetHeld = s.resetHeld ∧
    (s.setFollows x).faultLine = s.faultLine ∧ (s.setFollows x).pins = s.pins ∧ (s.setFollows x).cfg = s.cfg ∧
    (s.setFollows x).biu = s.biu ∧ (s.setFollows x).plan = s.plan ∧ (s.setFollows x).rport = s.rport ∧
    (s.setFollows x).lsup = s.lsup ∧ (s.setFollows x).tally = s.tally ∧
    (s.setFollows x).tbk = { s.tbk with follows := x } ∧ (s.setFollows x).mgmt = s.mgmt ∧
    (s.setFollows x).pending = s.pending :=
  ⟨rfl, rfl, rfl, rfl, rfl, rfl, rfl, rfl, rfl, rfl, rfl, rfl, rfl, rfl⟩

@[simp] theorem State.setCall_fields (k : Fin 4) (x : Option CallRec) :
    (s.setCall k x).now = s.now ∧ (s.setCall k x).phase = s.phase ∧ (s.setCall k x).resetHeld = s.resetHeld ∧
    (s.setCall k x).faultLine = s.faultLine ∧ (s.setCall k x).pins = s.pins ∧ (s.setCall k x).cfg = s.cfg ∧
    (s.setCall k x).biu = s.biu ∧ (s.setCall k x).plan = s.plan ∧ (s.setCall k x).rport = s.rport ∧
    (s.setCall k x).lsup = s.lsup ∧ (s.setCall k x).tally = s.tally ∧
    (s.setCall k x).tbk = { s.tbk with calls := s.tbk.calls.set k x } ∧ (s.setCall k x).mgmt = s.mgmt ∧
    (s.setCall k x).pending = s.pending :=
  ⟨rfl, rfl, rfl, rfl, rfl, rfl, rfl, rfl, rfl, rfl, rfl, rfl, rfl, rfl⟩

@[simp] theorem State.setCircuit_fields (c : Fin 15) (x : Option CircuitUse) :
    (s.setCircuit c x).now = s.now ∧ (s.setCircuit c x).phase = s.phase ∧
    (s.setCircuit c x).resetHeld = s.resetHeld ∧ (s.setCircuit c x).faultLine = s.faultLine ∧
    (s.setCircuit c x).pins = s.pins ∧ (s.setCircuit c x).cfg = s.cfg ∧ (s.setCircuit c x).biu = s.biu ∧
    (s.setCircuit c x).plan = s.plan ∧ (s.setCircuit c x).rport = s.rport ∧ (s.setCircuit c x).lsup = s.lsup ∧
    (s.setCircuit c x).tally = s.tally ∧
    (s.setCircuit c x).tbk = { s.tbk with circuits := s.tbk.circuits.set c x } ∧ (s.setCircuit c x).mgmt = s.mgmt ∧
    (s.setCircuit c x).pending = s.pending :=
  ⟨rfl, rfl, rfl, rfl, rfl, rfl, rfl, rfl, rfl, rfl, rfl, rfl, rfl, rfl⟩

@[simp] theorem State.setRule_fields (k : Fin 4) (x : CaptureRule) :
    (s.setRule k x).now = s.now ∧ (s.setRule k x).phase = s.phase ∧ (s.setRule k x).resetHeld = s.resetHeld ∧
    (s.setRule k x).faultLine = s.faultLine ∧ (s.setRule k x).pins = s.pins ∧ (s.setRule k x).cfg = s.cfg ∧
    (s.setRule k x).biu = s.biu ∧ (s.setRule k x).plan = s.plan ∧ (s.setRule k x).rport = s.rport ∧
    (s.setRule k x).lsup = s.lsup ∧ (s.setRule k x).tally = s.tally ∧ (s.setRule k x).tbk = s.tbk ∧
    (s.setRule k x).mgmt = { s.mgmt with rules := s.mgmt.rules.set k x } ∧ (s.setRule k x).pending = s.pending :=
  ⟨rfl, rfl, rfl, rfl, rfl, rfl, rfl, rfl, rfl, rfl, rfl, rfl, rfl, rfl⟩

@[simp] theorem State.count_fields (ev : Event) (n : Option Nat) :
    (s.count ev n).now = s.now ∧ (s.count ev n).phase = s.phase ∧ (s.count ev n).resetHeld = s.resetHeld ∧
    (s.count ev n).faultLine = s.faultLine ∧ (s.count ev n).pins = s.pins ∧ (s.count ev n).cfg = s.cfg ∧
    (s.count ev n).biu = s.biu ∧ (s.count ev n).plan = s.plan ∧ (s.count ev n).rport = s.rport ∧
    (s.count ev n).lsup = s.lsup ∧ (s.count ev n).tally = s.tally ∧ (s.count ev n).tbk = s.tbk ∧
    (s.count ev n).mgmt = { s.mgmt with counters := s.mgmt.counters.map (Counter.bump ev n) } ∧
    (s.count ev n).pending = s.pending :=
  ⟨rfl, rfl, rfl, rfl, rfl, rfl, rfl, rfl, rfl, rfl, rfl, rfl, rfl, rfl⟩

@[simp] theorem State.captureHook_fields (b : Bulletin) :
    (s.captureHook b).now = s.now ∧ (s.captureHook b).phase = s.phase ∧ (s.captureHook b).resetHeld = s.resetHeld ∧
    (s.captureHook b).faultLine = s.faultLine ∧ (s.captureHook b).pins = s.pins ∧ (s.captureHook b).cfg = s.cfg ∧
    (s.captureHook b).biu = s.biu ∧ (s.captureHook b).plan = s.plan ∧ (s.captureHook b).rport = s.rport ∧
    (s.captureHook b).lsup = s.lsup ∧ (s.captureHook b).tally = s.tally ∧ (s.captureHook b).tbk = s.tbk ∧
    (s.captureHook b).mgmt = { s.mgmt with rules := s.mgmt.rules.map fun r => if r.hitBy b then r.hit else r } ∧
    (s.captureHook b).pending = s.pending :=
  ⟨rfl, rfl, rfl, rfl, rfl, rfl, rfl, rfl, rfl, rfl, rfl, rfl, rfl, rfl⟩

@[simp] theorem State.settleLamps_fields :
    (s.settleLamps).now = s.now ∧ (s.settleLamps).phase = s.phase ∧ (s.settleLamps).resetHeld = s.resetHeld ∧
    (s.settleLamps).faultLine = s.faultLine ∧ (s.settleLamps).pins = s.pins ∧ (s.settleLamps).cfg = s.cfg ∧
    (s.settleLamps).biu = s.biu ∧ (s.settleLamps).plan = s.plan ∧ (s.settleLamps).rport = s.rport ∧
    (s.settleLamps).lsup = s.lsup ∧ (s.settleLamps).tally = s.tally ∧
    (s.settleLamps).tbk = { s.tbk with lamps := Vector.ofFn fun n => s.callLamp n } ∧
    (s.settleLamps).mgmt = s.mgmt ∧ (s.settleLamps).pending = s.pending := by
  simp only [State.settleLamps, and_self]

/-- The image and the contents are the ones that are taken; the change of an entry touches the list alone. -/
@[simp] theorem Crosspoint.take_contents (x : Crosspoint) (image computed : Vector XEntry 20) :
    (x.take image computed).image = image ∧ (x.take image computed).computed = computed := ⟨rfl, rfl⟩

@[simp] theorem Crosspoint.sendNext_contents (x : Crosspoint) :
    x.sendNext.image = x.image ∧ x.sendNext.computed = x.computed := by
  unfold Crosspoint.sendNext
  split <;> exact ⟨rfl, rfl⟩

/-- In SILENT an entry that no event has changed keeps what the image has for it (R177). -/
theorem State.xpImage_silent_kept {s : State} {n : Fin 20} (h : s.phase = .silent)
    (hn : s.tbk.xp.computed[n] = s.entryContent n) : s.xpImage[n] = s.tbk.xp.image[n] := by
  simp only [State.xpImage, h]
  simpa using fun h' => absurd hn h'

/-- In SILENT an entry that an event has changed takes its content (R175, R177). -/
theorem State.xpImage_silent_changed {s : State} {n : Fin 20} (h : s.phase = .silent)
    (hn : s.tbk.xp.computed[n] ≠ s.entryContent n) : s.xpImage[n] = s.entryContent n := by
  simp only [State.xpImage, h]
  simpa using fun h' => absurd h' hn

@[simp] theorem State.settleXp_fields :
    (s.settleXp).now = s.now ∧ (s.settleXp).phase = s.phase ∧ (s.settleXp).resetHeld = s.resetHeld ∧
    (s.settleXp).faultLine = s.faultLine ∧ (s.settleXp).pins = s.pins ∧ (s.settleXp).cfg = s.cfg ∧
    (s.settleXp).biu = s.biu ∧ (s.settleXp).plan = s.plan ∧ (s.settleXp).rport = s.rport ∧
    (s.settleXp).lsup = s.lsup ∧ (s.settleXp).tally = s.tally ∧
    (s.settleXp).tbk = { s.tbk with xp := (s.tbk.xp.take s.xpImage s.xpComputed).sendNext } ∧ (s.settleXp).mgmt = s.mgmt ∧
    (s.settleXp).pending = s.pending := by
  simp only [State.settleXp, and_self]

@[simp] theorem State.settleRadio_fields :
    (s.settleRadio).now = s.now ∧ (s.settleRadio).phase = s.phase ∧ (s.settleRadio).resetHeld = s.resetHeld ∧
    (s.settleRadio).faultLine = s.faultLine ∧ (s.settleRadio).pins = s.pins ∧ (s.settleRadio).cfg = s.cfg ∧
    (s.settleRadio).biu = s.biu ∧ (s.settleRadio).plan = s.plan ∧
    (s.settleRadio).rport = ({ s.rport with pending := s.rport.pending ++ byAddress s.rport.fresh, fresh := [] } : Rport).takeNext ∧
    (s.settleRadio).lsup = s.lsup ∧ (s.settleRadio).tally = s.tally ∧ (s.settleRadio).tbk = s.tbk ∧
    (s.settleRadio).mgmt = s.mgmt ∧ (s.settleRadio).pending = s.pending := by
  simp only [State.settleRadio, and_self]

@[simp] theorem State.quarantineOver_fields (sp : Span) :
    (s.quarantineOver sp).now = s.now ∧ (s.quarantineOver sp).phase = s.phase ∧
    (s.quarantineOver sp).resetHeld = s.resetHeld ∧ (s.quarantineOver sp).faultLine = s.faultLine ∧
    (s.quarantineOver sp).pins = s.pins ∧ (s.quarantineOver sp).cfg = s.cfg ∧ (s.quarantineOver sp).biu = s.biu ∧
    (s.quarantineOver sp).plan = { s.plan with quarantine := s.plan.quarantine.filter fun q => q.span != sp } ∧
    (s.quarantineOver sp).rport = s.rport ∧ (s.quarantineOver sp).lsup = s.lsup ∧
    (s.quarantineOver sp).tally = s.tally ∧ (s.quarantineOver sp).tbk = s.tbk ∧
    (s.quarantineOver sp).mgmt = s.mgmt ∧ (s.quarantineOver sp).pending = s.pending :=
  ⟨rfl, rfl, rfl, rfl, rfl, rfl, rfl, rfl, rfl, rfl, rfl, rfl, rfl, rfl⟩

@[simp] theorem State.recentOver_fields (a b c : Nat) :
    (s.recentOver a b c).now = s.now ∧ (s.recentOver a b c).phase = s.phase ∧
    (s.recentOver a b c).resetHeld = s.resetHeld ∧ (s.recentOver a b c).faultLine = s.faultLine ∧
    (s.recentOver a b c).pins = s.pins ∧ (s.recentOver a b c).cfg = s.cfg ∧ (s.recentOver a b c).biu = s.biu ∧
    (s.recentOver a b c).plan = s.plan ∧ (s.recentOver a b c).rport = s.rport ∧
    (s.recentOver a b c).lsup = s.lsup ∧ (s.recentOver a b c).tally = s.tally ∧ (s.recentOver a b c).tbk = s.tbk ∧
    (s.recentOver a b c).mgmt = { s.mgmt with recent := s.mgmt.recent.filter fun r => !r.is a b c } ∧
    (s.recentOver a b c).pending = s.pending :=
  ⟨rfl, rfl, rfl, rfl, rfl, rfl, rfl, rfl, rfl, rfl, rfl, rfl, rfl, rfl⟩

/-! ## The end of an event -/

theorem Rport.takeNext_fe (x : Rport) : x.takeNext.fe = x.fe := by
  unfold Rport.takeNext
  split <;> rfl

theorem Rport.takeNext_fresh (x : Rport) : x.takeNext.fresh = x.fresh := by
  unfold Rport.takeNext
  split <;> rfl

/-- The end of an event writes the crosspoint, the call lamps and the radio line, and nothing else. -/
@[simp] theorem State.finish_fields :
    s.finish.now = s.now ∧ s.finish.phase = s.phase ∧ s.finish.resetHeld = s.resetHeld ∧
    s.finish.faultLine = s.faultLine ∧ s.finish.pins = s.pins ∧ s.finish.cfg = s.cfg ∧ s.finish.biu = s.biu ∧
    s.finish.plan = s.plan ∧ s.finish.lsup = s.lsup ∧ s.finish.tally = s.tally ∧ s.finish.mgmt = s.mgmt ∧
    s.finish.pending = s.pending ∧ s.finish.rport.fe = s.rport.fe ∧ s.finish.rport.fresh = [] ∧
    s.finish.tbk.ports = s.tbk.ports ∧ s.finish.tbk.keys = s.tbk.keys ∧ s.finish.tbk.lines = s.tbk.lines ∧
    s.finish.tbk.follows = s.tbk.follows ∧ s.finish.tbk.calls = s.tbk.calls ∧ s.finish.tbk.circuits = s.tbk.circuits := by
  simp [State.finish, Rport.takeNext_fe, Rport.takeNext_fresh]

end Sys2Proof.Machine
end

