-- ==== Sys2Proof/Laws/Within.lean ====
section
/-! SUPPORT. The part of the invariant (Sys2Proof/Safety.lean) that holds inside an event too, before the radio port's new
commands have joined its list: every operation keeps it, those that change the phase included. -/

namespace Sys2Proof.Machine

/-- The invariant, less the radio commands of the event in progress. -/
structure State.Within (s : State) : Prop where
  faultLine : s.FaultLineRight
  quiet     : s.QuietOutsideActive
  queue     : s.QueueRight
  line      : s.biu.LineRight
  ownLaw    : s.OwnLaw
  forward   : s.ForwardRight
  startUp   : s.StartUpRight
  offers    : s.biu.leaveOffers = false

variable {w : Writes} {s t : State}

theorem State.Inv.within (h : s.Inv) : s.Within :=
  ⟨h.faultLine, h.quiet, h.queue, h.line, h.ownLaw, h.forward, h.startUp, h.eventOver.1⟩

/-- No offer is taken where no own bulletin is sent. -/
theorem State.takesOffers_of_silent (_ho : s.biu.leaveOffers = false) (hs : s.phase.sendsOwn = false) :
    s.takesOffers = false := by
  unfold State.takesOffers
  cases hp : s.phase <;> simp_all [Phase.sendsOwn]

/-- What evolves keeps what holds within an event. -/
theorem Evolves.within (h : Evolves w s t) (hs : s.Within) : t.Within where
  faultLine := by
    have := hs.faultLine
    unfold State.FaultLineRight at *
    rw [h.faultLine, h.phase]
    exact this
  quiet hp := h.quiet (by rw [← h.phase]; exact hp) (hs.quiet (by rw [← h.phase]; exact hp))
  queue := by
    refine ⟨h.bound hs.queue.1, fun hp => ?_⟩
    rw [h.phase] at hp
    have hl := h.shut (State.takesOffers_of_silent hs.offers hp)
    rw [hs.queue.2 hp] at hl
    exact List.eq_nil_of_length_eq_zero (Nat.le_zero.mp hl)
  line := h.line hs.line
  ownLaw := h.ownLaw hs.ownLaw
  forward p := h.forward p (hs.forward p)
  startUp := by
    have := hs.startUp
    unfold State.StartUpRight at *
    rw [h.joinTimer, h.phase, h.resetHeld]
    exact this
  offers := h.leaveOffers.trans hs.offers

theorem State.settleRadio_evolves (hr : w.rport = true) (h : Evolves w s t) : Evolves w s t.settleRadio := by
  refine h.rportBlock hr fun _ hf => ?_
  unfold Rport.takeNext
  dsimp only
  split <;> exact hf

theorem State.finish_evolves (hr : w.rport = true) (hk : w.tbk = true) (h : Evolves w s t) : Evolves w s t.finish :=
  State.settleRadio_evolves hr ((h.tbkBlock hk).tbkBlock hk)

theorem State.settleRadio_fresh (s : State) : s.settleRadio.rport.fresh = [] := by
  unfold State.settleRadio Rport.takeNext
  dsimp only
  split <;> rfl

/-- The end of an event turns what holds within it into the invariant. -/
theorem State.Within.finish (h : s.Within) : s.finish.Inv := by
  have e : s.finish.Within :=
    Evolves.within (w := { plan := true, rport := true, tally := true, tbk := true })
      (State.finish_evolves rfl rfl (Evolves.refl _ s)) h
  exact ⟨e.faultLine, e.quiet, e.queue, e.line, e.ownLaw, e.forward, e.startUp, e.offers, State.settleRadio_fresh _⟩

/-- The clock is no part of it. -/
theorem State.Within.reach (h : s.Within) (d : Nat) : (s.reach d).Within := ⟨h.faultLine, h.quiet, h.queue, h.line, h.ownLaw, h.forward,
  h.startUp, h.offers⟩

theorem State.Within.onExpiry (h : s.Within) (d : Timer) (f : State → State) (hf : ∀ {u : State}, u.Within → (f u).Within) :
    (s.onExpiry d f).Within := by
  unfold State.onExpiry
  split
  · exact h
  · exact hf (h.reach _)

/-- Every block may be written. -/
abbrev Writes.all : Writes := { plan := true, rport := true, tally := true, tbk := true }

theorem State.Within.op (h : s.Within) (e : Evolves Writes.all s t) : t.Within := e.within h

/-! ## Reset and LOADING -/

/-- Without own entries there is nothing the law could be broken by. -/
theorem State.OwnLaw.of_none (h : ∀ i : Fin 16, s.plan.own[i] = none) : s.OwnLaw := by
  refine ⟨fun i _ _ e _ _ he _ _ _ _ => ?_, fun i _ e _ he _ _ _ _ => ?_, fun i _ e _ he _ _ => ?_⟩
  all_goals
    rw [State.ownEntry, h i] at he
    cases he

theorem Biu.LineRight.of_nil {x : Biu} (h : x.queue = []) : x.LineRight := by
  unfold Biu.LineRight
  rw [h]
  exact ⟨List.Pairwise.nil, fun _ he => absurd he List.not_mem_nil, List.Pairwise.nil⟩

theorem State.reset_within : State.reset.Within := by
  refine ⟨?_, fun _ => ⟨by decide, by decide, by decide⟩, ⟨by decide, fun _ => rfl⟩, Biu.LineRight.of_nil rfl,
    State.OwnLaw.of_none (by decide), fun p => by cases p <;> decide, ⟨by decide, fun _ => rfl⟩, rfl⟩
  simp [State.FaultLineRight, State.reset]

theorem State.hardReset_within (s : State) : s.hardReset.Within :=
  let h := State.reset_within
  ⟨h.faultLine, h.quiet, h.queue, h.line, h.ownLaw, h.forward, h.startUp, h.offers⟩

theorem State.loadingMutes_evolves (hr : w.rport = true) (h : Evolves w s t) : Evolves w s t.loadingMutes :=
  Evolves.foldl _ (fun u _ => State.mute_evolves hr (Evolves.refl w u)) _ h

theorem State.Within.startLoading (h : s.Within) : s.startLoading.Within := by
  refine State.Within.op (s := { s with resetHeld := false })
    ⟨h.faultLine, h.quiet, h.queue, h.line, h.ownLaw, h.forward, ⟨h.startUp.1, fun x => by simp at x⟩, h.offers⟩
    (State.loadingMutes_evolves rfl (Evolves.refl _ _))

theorem State.restartPart_within (s : State) : s.restartPart.Within := (State.hardReset_within s).startLoading

theorem State.darkenLinks_evolves (hr : w.rport = true) (h : Evolves w s t) : Evolves w s t.darkenLinks := by
  refine Evolves.foldl _ (fun u l => ?_) _ h
  have := Evolves.refl w u
  split <;> simp [this, hr]

/-- HALTED (R27). -/
theorem State.Within.enterHalted (h : s.Within) (hp : s.phase = .loading) (hr : s.resetHeld = false) :
    s.enterHalted.Within where
  faultLine := by simp [State.FaultLineRight, State.enterHalted]
  quiet _ := h.quiet (by simp [hp])
  queue := ⟨h.queue.1, fun _ => h.queue.2 (by simp [hp, Phase.sendsOwn])⟩
  line := h.line
  ownLaw := h.ownLaw
  forward := h.forward
  startUp := by
    refine ⟨fun hj => ?_, fun hh => ?_⟩
    · have := h.startUp.1 hj
      simp [hp] at this
    · simp [State.enterHalted, hr] at hh
  offers := h.offers

/-- The blocks take their sections in LOADING. -/
theorem State.loadBlocks_evolves (s : State) :
    Evolves Writes.all s ((s.loadRest).loadTally).loadTbk where
  now := rfl
  phase := rfl
  resetHeld := rfl
  faultLine := rfl
  pins := rfl
  cfg := rfl
  pending := rfl
  joinTimer := rfl
  leaveTimer := rfl
  leaveOffers := rfl
  bound := id
  shut _ := Nat.le_refl _
  forward _ := id
  line := id
  ownLaw := id
  quiet _ h := by
    refine ⟨h.1, h.2.1, fun l => ?_⟩
    show ((s.image.links.map fun d : Option LinkDesc => d.map newLink)[l]).bind (·.reloc) = none
    simp only [Fin.getElem_fin, Vector.getElem_map]
    cases s.image.links[l.val] <;> rfl
  plan h := by cases h
  rport h := by cases h
  replica _ := ⟨rfl, rfl, rfl, rfl⟩
  tally h := by cases h
  tbk h := by cases h

theorem State.Within.setCfg (h : s.Within) (hp : s.phase ≠ .active) (c : Option Image) : { s with cfg := c }.Within :=
  ⟨h.faultLine, h.quiet, h.queue, h.line, State.OwnLaw.of_none (h.quiet hp).1, h.forward, h.startUp, h.offers⟩

/-- JOINING (R29). -/
theorem State.Within.loadingEnd (h : s.Within) (hp : s.phase = .loading) (hr : s.resetHeld = false) (img : Image) :
    (s.loadingEnd img).Within := by
  have e : Evolves Writes.all { s with cfg := some img }
      ((({ s with cfg := some img }.loadRest).loadTally).loadTbk).darkenLinks :=
    State.darkenLinks_evolves rfl (State.loadBlocks_evolves { s with cfg := some img })
  have hw := e.within (h.setCfg (by simp [hp]) (some img))
  have hph := e.phase
  have hrh := e.resetHeld
  have hfl := e.faultLine
  unfold State.loadingEnd State.loadXp
  dsimp only
  generalize ((({ s with cfg := some img }.loadRest).loadTally).loadTbk).darkenLinks = u at *
  have hpu : u.phase = .loading := hph.trans hp
  refine ⟨?_, fun _ => hw.quiet (by simp [hpu]), ⟨hw.queue.1, fun _ => hw.queue.2 (by simp [hpu, Phase.sendsOwn])⟩,
    hw.line, hw.ownLaw, hw.forward, ⟨fun _ => rfl, fun hh => ?_⟩, hw.offers⟩
  · have := hw.faultLine
    simp only [State.FaultLineRight, hpu] at this ⊢
    simpa using this
  · have : u.resetHeld = true := hh
    rw [hrh] at this
    simp [hr] at this

theorem State.Within.configurationRead (h : s.Within) (m : List Byte) : (s.configurationRead m).Within := by
  unfold State.configurationRead
  split
  · rename_i hc
    split
    · exact h.loadingEnd hc.1 hc.2 _
    · exact h.enterHalted hc.1 hc.2
  · exact h

/-! ## ACTIVE -/

theorem State.acquireLinks_evolves (hp : w.plan = true) (hr : w.rport = true) (h : Evolves w s t) :
    Evolves w s t.acquireLinks := by
  refine Evolves.foldl _ (fun u l => State.startReloc_evolves hp hr (Evolves.refl w u)) _ (h.lsup fun _ hq l => ?_)
  have := hq l
  simp only [Fin.getElem_fin, Vector.getElem_map] at this ⊢
  cases hx : t.lsup.links[l.val] <;> simp_all

/-- The entry into ACTIVE (R32). -/
theorem State.Within.enterActive (h : s.Within) (hj : s.phase = .joining) : s.enterActive.Within := by
  unfold State.enterActive
  refine State.Within.op (s := { s with phase := .active, biu := { s.biu with joinTimer := none } })
    ⟨?_, fun hp => absurd rfl hp, ⟨h.queue.1, fun hp => by simp [Phase.sendsOwn] at hp⟩, h.line, h.ownLaw,
      h.forward,
      ⟨fun x => by simp at x, fun hh => ?_⟩, h.offers⟩
    (State.acquireLinks_evolves rfl rfl (State.joinAll_evolves
      (State.startSources_evolves rfl rfl rfl (State.sendPresence_evolves (Evolves.refl _ _)))))
  · have := h.faultLine
    simp only [State.FaultLineRight, hj] at this ⊢
    simpa using this
  · have := h.startUp.2 hh
    simp [hj] at this

/-! ## LEAVING -/

/-- An offer leaves every relocation where it is. -/
theorem State.modLink_reloc {l : Fin 8} {f : LinkRec → LinkRec} (hf : ∀ x, (f x).reloc = x.reloc) (s : State) (k : Fin 8) :
    ((s.modLink l f).lsup.links[k]).bind (·.reloc) = (s.lsup.links[k]).bind (·.reloc) := by
  unfold State.modLink
  split
  · rename_i r hr
    have hr' : s.lsup.links[l.val] = some r := hr
    simp only [State.setLink, Fin.getElem_fin, Vector.getElem_set]
    split
    · rename_i hk
      simp [← hk, hr', hf]
    · rfl
  · rfl

theorem State.reportEvicted_reloc (e : QueueEntry) (s : State) (k : Fin 8) :
    ((s.reportEvicted e).lsup.links[k]).bind (·.reloc) = (s.lsup.links[k]).bind (·.reloc) := by
  unfold State.reportEvicted
  split
  · split
    · exact State.modLink_reloc (fun x => by split <;> rfl) s k
    · rfl
  · unfold State.captureReport
    dsimp only
    repeat' split
    all_goals rfl
  all_goals rfl

theorem State.addEntry_reloc (o : Offer) (s : State) (k : Fin 8) :
    ((s.addEntry o).1.lsup.links[k]).bind (·.reloc) = (s.lsup.links[k]).bind (·.reloc) := by
  unfold State.addEntry
  repeat' split
  all_goals first
    | rfl
    | exact State.reportEvicted_reloc _ _ k

theorem State.offered_reloc (o : Offer) (s : State) (k : Fin 8) :
    ((s.offered o).lsup.links[k]).bind (·.reloc) = (s.lsup.links[k]).bind (·.reloc) := by
  unfold State.offered State.offer
  dsimp only
  repeat' split
  all_goals first
    | rfl
    | exact State.addEntry_reloc _ _ k

/-- No block but BIU, LSUP and MGMT is written by an offer. -/
abbrev Writes.none : Writes := { plan := false, rport := false, tally := false, tbk := false }

theorem State.offered_plan (o : Offer) (s : State) : (s.offered o).plan = s.plan := State.offer_plan o s

theorem State.offered_rport (o : Offer) (s : State) : (s.offered o).rport = s.rport :=
  (State.offered_evolves (w := Writes.none) (Evolves.refl _ s)).rport rfl

/-- What mutes keep and reach, address by address. -/
theorem State.mute_off (a b : Fin 8) (s : State) (h : a = b ∨ s.rport.fe[b].state.off = true) :
    (s.mute a).rport.fe[b].state.off = true := by
  have hl : (s.muteLine a).rport.fe = s.rport.fe := by
    unfold State.muteLine State.queueMute
    repeat' split
    all_goals rfl
  unfold State.mute State.setFe
  simp only [Fin.getElem_fin, Vector.getElem_set]
  split
  · exact FrontEnd.muted_off _
  · rename_i hab
    rcases h with h | h
    · exact absurd (congrArg Fin.val h) hab
    · rw [hl]; exact h

theorem State.foldMute_off (p : Fin 8 → State → Bool) (hp : ∀ a u, p a u = true → u.rport.fe[a].state.off = true)
    (l : List (Fin 8)) (s : State) (b : Fin 8) (h : b ∈ l ∨ s.rport.fe[b].state.off = true) :
    (l.foldl (fun u a => if p a u then u else u.mute a) s).rport.fe[b].state.off = true := by
  induction l generalizing s with
  | nil => simpa using h
  | cons a l ih =>
    refine ih _ ?_
    by_cases hb : b ∈ l
    · exact Or.inl hb
    · right
      have h' : a = b ∨ s.rport.fe[b].state.off = true := by
        rcases h with h | h
        · rcases List.mem_cons.mp h with h | h
          · exact Or.inl h.symm
          · exact absurd h hb
        · exact Or.inr h
      dsimp only
      split
      · rename_i hpa
        rcases h' with h' | h'
        · exact h' ▸ hp a s hpa
        · exact h'
      · exact State.mute_off a b s h'

theorem State.muteTuned_off (s : State) (b : Fin 8) : s.muteTuned.rport.fe[b].state.off = true := by
  have := State.foldMute_off (fun a u => decide ((u.fe a).state = .muted))
    (fun a u h => by rw [show u.rport.fe[a].state = CmdState.muted from of_decide_eq_true h]; rfl) (List.finRange 8) s b
    (Or.inl (List.mem_finRange b))
  simpa [State.muteTuned] using this

theorem State.muteAll_off (s : State) (b : Fin 8) : s.muteAll.rport.fe[b].state.off = true := by
  have := State.foldMute_off (fun _ _ => false) (fun a u h => by cases h) (List.finRange 8) s b
    (Or.inl (List.mem_finRange b))
  simpa [State.muteAll] using this

theorem State.disableLinks_reloc (s : State) (k : Fin 8) : (s.disableLinks.lsup.links[k]).bind (·.reloc) = none := by
  simp only [State.disableLinks, Fin.getElem_fin, Vector.getElem_map]
  cases s.lsup.links[k.val] <;> rfl

theorem State.disableLinks_rport (s : State) : s.disableLinks.rport = s.rport := rfl

/-- What yields keep and reach, slot by slot. -/
theorem State.removeOwn_own (i j : Fin 16) (s : State) (h : i = j ∨ s.plan.own[j] = none) :
    (s.removeOwn i).plan.own[j] = none := by
  unfold State.removeOwn
  split
  · rw [State.offered_plan]
    simp only [State.setOwn, Fin.getElem_fin, Vector.getElem_set]
    split
    · rfl
    · rename_i hij
      rcases h with h | h
      · exact absurd (congrArg Fin.val h) hij
      · exact h
  · rename_i hn
    rcases h with h | h
    · exact h ▸ hn
    · exact h

theorem State.removeOwn_rport (i : Fin 16) (s : State) : (s.removeOwn i).rport = s.rport := by
  unfold State.removeOwn
  split
  · rw [State.offered_rport]; rfl
  · rfl

theorem State.removeOwn_reloc (i : Fin 16) (s : State) (k : Fin 8) :
    ((s.removeOwn i).lsup.links[k]).bind (·.reloc) = (s.lsup.links[k]).bind (·.reloc) := by
  unfold State.removeOwn
  split
  · rw [State.offered_reloc]; rfl
  · rfl

/-- The yields of LEAVING leave the station quiet. -/
theorem State.yieldAll_quiet (s : State) (hf : ∀ a : Fin 8, s.rport.fe[a].state.off = true)
    (hr : ∀ l : Fin 8, (s.lsup.links[l]).bind (·.reloc) = none) : s.yieldAll.Quiet := by
  have key : ∀ (l : List (Fin 16)) (u : State), (∀ j, j ∈ l ∨ u.plan.own[j] = none) →
      (∀ a : Fin 8, u.rport.fe[a].state.off = true) → (∀ k : Fin 8, (u.lsup.links[k]).bind (·.reloc) = none) →
      (l.foldl (fun s i => s.removeOwn i) u).Quiet := by
    intro l
    induction l with
    | nil => intro u ho hf hr; exact ⟨fun j => by simpa using ho j, hf, hr⟩
    | cons i l ih =>
      intro u ho hf hr
      refine ih _ (fun j => ?_) (fun a => by rw [State.removeOwn_rport]; exact hf a)
        (fun k => (State.removeOwn_reloc i u k).trans (hr k))
      by_cases hj : j ∈ l
      · exact Or.inl hj
      · right
        refine State.removeOwn_own i j u ?_
        rcases ho j with h | h
        · rcases List.mem_cons.mp h with h | h
          · exact Or.inl h.symm
          · exact absurd h hj
        · exact Or.inr h
  exact key _ s (fun j => Or.inl (List.mem_finRange j)) hf hr

theorem State.muteTuned_evolves (hr : w.rport = true) (h : Evolves w s t) : Evolves w s t.muteTuned := by
  refine Evolves.foldl _ (fun u l => ?_) _ h
  have := Evolves.refl w u
  split <;> simp [this, hr]

theorem State.muteAll_evolves (hr : w.rport = true) (h : Evolves w s t) : Evolves w s t.muteAll :=
  Evolves.foldl _ (fun u _ => State.mute_evolves hr (Evolves.refl w u)) _ h

theorem State.disableLinks_evolves' (h : Evolves w s t) : Evolves w s t.disableLinks :=
  h.lsup fun _ _ l => State.disableLinks_reloc t l

theorem State.yieldAll_evolves (hp : w.plan = true) (h : Evolves w s t) : Evolves w s t.yieldAll :=
  Evolves.foldl _ (fun u _ => State.removeOwn_evolves hp (Evolves.refl w u)) _ h

/-- The entry into LEAVING (R33), from ACTIVE. -/
theorem State.Within.enterLeaving (h : s.Within) (ha : s.phase = .active) : s.enterLeaving.Within := by
  unfold State.enterLeaving
  dsimp only
  generalize hv : ({ s with phase := .leaving, biu := _, mgmt := _ } : State) = v
  have e : Evolves Writes.all v ((v.muteTuned).disableLinks).yieldAll :=
    State.yieldAll_evolves rfl (State.disableLinks_evolves' (State.muteTuned_evolves rfl (Evolves.refl _ v)))
  have q : (((v.muteTuned).disableLinks).yieldAll).Quiet :=
    State.yieldAll_quiet _ (fun a => by rw [State.disableLinks_rport]; exact State.muteTuned_off v a)
      (State.disableLinks_reloc _)
  generalize ((v.muteTuned).disableLinks).yieldAll = u at e q ⊢
  have e' : Evolves Writes.all u ((u.leaveTbk).stopSources) :=
    State.stopSources_evolves rfl (State.leaveTbk_evolves rfl (Evolves.refl _ u))
  have hl : v.phase = .leaving := by rw [← hv]
  have hu : u.phase ≠ .active := by rw [e.phase, hl]; simp
  have b := e'.bound (e.bound (by rw [← hv]; exact h.queue.1))
  have f (p) := e'.forward p (e.forward p (by rw [← hv]; exact h.forward p))
  have q' := e'.quiet hu q
  have ln := e'.line (e.line (by rw [← hv]; exact h.line))
  have hph : ((u.leaveTbk).stopSources).phase = .leaving := by rw [e'.phase, e.phase, hl]
  have hfl : ((u.leaveTbk).stopSources).faultLine = s.faultLine := by rw [e'.faultLine, e.faultLine, ← hv]
  have hjt : ((u.leaveTbk).stopSources).biu.joinTimer = s.biu.joinTimer := by rw [e'.joinTimer, e.joinTimer, ← hv]
  have hrh : ((u.leaveTbk).stopSources).resetHeld = s.resetHeld := by rw [e'.resetHeld, e.resetHeld, ← hv]
  generalize (u.leaveTbk).stopSources = z at *
  refine ⟨?_, fun _ => q', ⟨b, fun hp => ?_⟩, ln, State.OwnLaw.of_none q'.1, f, ⟨fun hj => ?_, fun hh => ?_⟩, rfl⟩
  · have := h.faultLine
    simp only [State.FaultLineRight, State.setLeaveOffers, hph, hfl, ha] at this ⊢
    simpa using this
  · simp [State.setLeaveOffers, hph, Phase.sendsOwn] at hp
  · have : s.biu.joinTimer.isSome = true := by rw [← hjt]; exact hj
    have := h.startUp.1 this
    simp [ha] at this
  · have : s.resetHeld = true := by rw [← hrh]; exact hh
    have := h.startUp.2 this
    simp [ha] at this

/-! ## SILENT -/

/-- The entry into SILENT (R20), from any phase on the bus. -/
theorem State.Within.enterSilent (h : s.Within) (hr : s.resetHeld = false) : s.enterSilent.Within := by
  unfold State.enterSilent
  dsimp only
  generalize hv : ({ s with phase := .silent, faultLine := true, biu := _, plan := _, mgmt := _ } : State) = v
  have e : Evolves Writes.all v ((v.muteAll).disableLinks) :=
    State.disableLinks_evolves' (State.muteAll_evolves rfl (Evolves.refl _ v))
  have pl : ((v.muteAll).disableLinks).plan = v.plan :=
    (State.disableLinks_evolves' (w := { plan := false, rport := true, tally := true, tbk := true })
      (State.muteAll_evolves rfl (Evolves.refl _ v))).plan rfl
  have q : ((v.muteAll).disableLinks).Quiet := by
    refine ⟨fun i => ?_, fun a => State.muteAll_off v a, State.disableLinks_reloc _⟩
    rw [pl, ← hv]
    simp
  generalize (v.muteAll).disableLinks = u at e pl q ⊢
  have e' : Evolves Writes.all u ((u.stopSources).quietTbk) :=
    State.quietTbk_evolves rfl (State.stopSources_evolves rfl (Evolves.refl _ u))
  have e'' := e.trans e'
  have hvq : v.biu.queue = [] := by rw [← hv]
  have hvf (p : BusPort) : s.biu.fwd p = v.biu.fwd p := by rw [← hv]; cases p <;> rfl
  have hvo : v.biu.leaveOffers = false := by rw [← hv]; exact h.offers
  have hvp : v.phase = .silent := by rw [← hv]
  have hsh := e''.shut (State.takesOffers_of_silent hvo (by rw [hvp]; rfl))
  rw [hvq] at hsh
  have hq := List.eq_nil_of_length_eq_zero (Nat.le_zero.mp hsh)
  have hu : u.phase ≠ .active := by rw [e.phase, hvp]; simp
  refine ⟨?_, fun _ => e'.quiet hu q, ⟨by rw [hq]; exact Nat.zero_le _, fun _ => hq⟩,
    Biu.LineRight.of_nil hq, State.OwnLaw.of_none (e'.quiet hu q).1,
    fun p => e''.forward p (hvf p ▸ h.forward p), ⟨fun hj => ?_, fun hh => ?_⟩,
    e''.leaveOffers.trans hvo⟩
  · simp [State.FaultLineRight, e''.faultLine, e''.phase, ← hv]
  · rw [e''.joinTimer, ← hv] at hj
    simp at hj
  · rw [e''.resetHeld, ← hv] at hh
    simp [hr] at hh

end Sys2Proof.Machine
end

