-- ==== Sys2Proof/Laws/WithinOps.lean ====
section
/-! SUPPORT. The senders, the receive path and the input lines keep what holds within an event (Laws/Within.lean). -/

namespace Sys2Proof.Machine

variable {s : State}

/-! ## The senders -/

theorem State.Within.leaveIfEmpty (h : s.Within) : s.leaveIfEmpty.Within := by
  unfold State.leaveIfEmpty
  split
  · exact State.restartPart_within s
  · exact h

theorem State.Within.leaveOver (h : s.Within) : s.leaveOver.Within := by
  unfold State.leaveOver
  split
  · exact State.restartPart_within s
  · exact h

theorem State.Within.settlePort (h : s.Within) (p : BusPort) (x : Bool) (e : QueueEntry) : (s.settlePort p x e).Within := by
  unfold State.settlePort
  dsimp only
  split
  · exact (h.op (State.report_evolves rfl rfl (State.removeQueued_evolves (Evolves.refl _ s)))).leaveIfEmpty
  · exact h.op (State.mapQueue_evolves (fun x => by split <;> exact ⟨rfl, rfl⟩) (Evolves.refl _ s))

theorem State.Within.finishTx (h : s.Within) (p : BusPort) (x : Bool) (tx : Tx) : (s.finishTx p x tx).Within := by
  unfold State.finishTx
  split
  · split
    · exact h.settlePort p x _
    · exact h
  · exact h.op (State.dropHead_evolves (Evolves.refl _ s))

theorem State.Within.txSuccess (h : s.Within) (p : BusPort) : (s.txSuccess p).Within := by
  unfold State.txSuccess
  split
  · exact (h.op (State.count_evolves (State.setPort_evolves (Evolves.refl _ s)))).finishTx p true _
  all_goals exact h

theorem State.Within.txCollision (h : s.Within) (p : BusPort) : (s.txCollision p).Within := by
  unfold State.txCollision
  dsimp only
  split
  · have e {k n tx} : Evolves Writes.all s ((s.count .txCollision n).noteFailure p k tx) :=
      State.noteFailure_evolves (State.count_evolves (Evolves.refl _ s))
    split
    · exact h.op (State.setPort_evolves e)
    · exact (h.op (State.count_evolves (State.setPort_evolves e))).finishTx p false _
  all_goals exact h

theorem State.Within.endBackoff (h : s.Within) (p : BusPort) : (s.endBackoff p).Within := by
  unfold State.endBackoff
  split
  · exact (h.reach _).op (State.setPort_evolves (Evolves.refl _ _))
  all_goals exact h

/-! ## The receive path -/

theorem State.Within.detectDuplicate (h : s.Within) (hb : s.phase.onBus = true) (b : Bulletin) :
    (s.detectDuplicate b).Within := by
  have hr : s.resetHeld = false := by
    cases hx : s.resetHeld
    · rfl
    · have := h.startUp.2 hx
      simp [this, Phase.onBus] at hb
  have he := h.enterSilent hr
  unfold State.detectDuplicate
  repeat' split
  all_goals with_reducible first
    | exact he
    | exact h

theorem State.Within.restartTask (h : s.Within) (ha : s.phase = .active) (t : TaskIn) : (s.restartTask t).Within := by
  have e : Evolves Writes.all s (s.reply true t.origin t.tag t.code .done []) := State.reply_evolves (Evolves.refl _ s)
  exact (h.op e).enterLeaving (e.phase.trans ha)

theorem State.Within.takeTask (h : s.Within) (ha : s.phase = .active) (t : TaskIn) : (s.takeTask t).Within := by
  unfold State.takeTask
  have e : Evolves Writes.all s (s.noteTask t) := State.noteTask_evolves (Evolves.refl _ s)
  have hw := h.op e
  have hp := e.phase.trans ha
  dsimp only
  generalize s.noteTask t = u at *
  split
  · exact h
  · split
    · rename_i c hc
      by_cases hr : c = .restart
      · subst hr
        exact hw.restartTask hp t
      · exact hw.op (State.runTask_evolves hr rfl rfl rfl rfl (Evolves.refl _ u))
    · exact hw.op (State.rejectTask_evolves (Evolves.refl _ u))

theorem State.Within.readCall (h : s.Within) {x : Bool} {n m : Nat} {l : List Byte} {r : State × Disposition}
    (hr : s.readCall x n l m = .inl r) : r.1.Within := by
  unfold State.readCall at hr
  split at hr
  · have e := Sum.inl.inj hr
    rw [← e]
    exact h
  · split at hr
    · exact absurd hr (by simp)
    · have e := Sum.inl.inj hr
      rw [← e]
      exact h.op (State.count_evolves (Evolves.refl _ s))

theorem State.Within.deliver (h : s.Within) (k : Kind) (b : Bulletin) : (s.deliver k b).1.Within := by
  have r := Evolves.refl Writes.all s
  cases k <;> simp only [State.deliver]
  case task =>
    split
    · exact h
    · rename_i ha
      split
      · exact h
      · split
        · exact h.takeTask (by simpa using ha) _
        · exact h
  case presence =>
    split
    · try dsimp only
      exact h.op (State.takePresence_evolves rfl r)
    · exact h
  case planClaim =>
    split
    · try dsimp only
      exact h.op (State.withNews_evolves rfl rfl (State.planArrival_evolves rfl rfl r))
    · exact h
  case planHold =>
    split
    · try dsimp only
      exact h.op (State.withNews_evolves rfl rfl (State.planArrival_evolves rfl rfl r))
    · exact h
  case planYield =>
    split
    · try dsimp only
      exact h.op (State.withNews_evolves rfl rfl (State.planYielded_evolves rfl rfl r))
    · exact h
  case sighting =>
    split
    · try dsimp only
      exact h.op (State.foldReceived_evolves (State.takeSighting_evolves rfl rfl r))
    · exact h
  case tallyState =>
    split
    · try dsimp only
      exact h.op (State.takeLayer_evolves rfl rfl rfl r)
    · exact h
  case lineJoin =>
    split
    · try dsimp only
      exact h.op (State.takeJoin_evolves rfl r)
    · exact h
  case lineLeave =>
    split
    · try dsimp only
      exact h.op (State.takeLeave_evolves rfl r)
    · exact h
  case talk =>
    split
    · try dsimp only
      exact h.op (State.takeTalk_evolves rfl r)
    · exact h
  case followTalk =>
    split
    · try dsimp only
      exact h.op (State.takeFollow_evolves rfl r)
    · exact h
  case callRing =>
    split
    · rename_i x hx; exact h.readCall hx
    · try dsimp only
      exact h.op (State.takeRing_evolves rfl r)
  case callAnswer =>
    split
    · rename_i x hx; exact h.readCall hx
    · try dsimp only
      exact h.op (State.takeAnswer_evolves rfl r)
  case callEnd =>
    split
    · rename_i x hx; exact h.readCall hx
    · try dsimp only
      exact h.op (State.takeEnd_evolves rfl r)
  case callKeep =>
    split
    · rename_i x hx; exact h.readCall hx
    · try dsimp only
      exact h.op (State.takeKeep_evolves rfl r)
  case taskReply => exact h
  case capture => exact h

theorem State.Within.dispatch (h : s.Within) (b : Bulletin) : (s.dispatch b).1.Within := by
  unfold State.dispatch
  split
  · exact h.op (State.count_evolves (Evolves.refl _ s))
  · split
    · exact h
    · split
      · exact h.deliver _ b
      · exact h

theorem State.Within.makeCaptures (b : Bulletin) (d : Disposition) (l : List (Fin 4)) (h : s.Within) :
    (l.foldl (State.makeCapture b d) s).Within :=
  h.op (Evolves.foldl _ (fun u _ => State.makeCapture_evolves (Evolves.refl _ u)) l (Evolves.refl _ s))

theorem State.Within.receivePath (h : s.Within) (hb : s.phase.onBus = true) (p : BusPort) (b : Bulletin) :
    (s.receivePath p b).Within := by
  unfold State.receivePath
  have e : Evolves Writes.all s (s.learn p b) := State.learn_evolves (Evolves.refl _ s)
  have hd := (h.op e).detectDuplicate (by rw [e.phase]; exact hb) b
  have hf := hd.op (State.forward_evolves (p := p) (b := b) (Evolves.refl _ _))
  exact State.Within.makeCaptures _ _ _ ((hf.op (State.captureHook_evolves (Evolves.refl _ _))).dispatch b)

theorem State.Within.heardRun (h : s.Within) (p : BusPort) (n : Nat) (b : Option Bulletin) : (s.heardRun p n b).Within := by
  unfold State.heardRun
  split
  · rename_i hh
    have hb : s.phase.onBus = true := by
      unfold State.hears at hh
      cases hx : s.phase.onBus <;> simp_all
    have e : Evolves Writes.all s (s.setPort p (s.biu.port p).ended) := State.setPort_evolves (Evolves.refl _ s)
    dsimp only
    split
    · have e' := State.count_evolves (ev := .rxAccepted) (n := some (Bulletin.length ‹_›)) e
      exact (h.op e').receivePath (by rw [e'.phase]; exact hb) p _
    · exact h.op (State.count_evolves e)
  · exact h

/-! ## Input lines -/

theorem State.Within.contactLevel (h : s.Within) (c : Fin 32) (x : Bool) : (s.contactLevel c x).Within := by
  unfold State.contactLevel
  dsimp only
  repeat' split
  all_goals exact ⟨h.faultLine, h.quiet, h.queue, h.line, h.ownLaw, h.forward, h.startUp, h.offers⟩

theorem State.Within.keyLevel (h : s.Within) (c : Fin 16) (x : Bool) : (s.keyLevel c x).Within := by
  unfold State.keyLevel
  dsimp only
  repeat' split
  all_goals exact ⟨h.faultLine, h.quiet, h.queue, h.line, h.ownLaw, h.forward, h.startUp, h.offers⟩

/-- A running join timer: the phase is JOINING. -/
theorem State.Within.joinExpiry (h : s.Within) : (s.onExpiry s.biu.joinTimer State.enterActive).Within := by
  unfold State.onExpiry
  split
  · exact h
  · rename_i d hd
    exact (h.reach d).enterActive (h.startUp.1 (by rw [hd]; rfl))

end Sys2Proof.Machine
end

