-- ==== Sys2Proof/WellFormed.lean ====
section
/-! DEFINITION. Which commands are well formed: the operands a row of the table can carry. A command that is not well
formed stands for no event; what the model does with it all the same is said in logs 8 and 9. -/

namespace Sys2Proof

/-- A span as the wire and the plan hold it (R38). -/
def Span.valid (sp : Span) : Bool := decide (sp.low ≤ sp.high) && decide (sp.high ≤ 2047)

/-- A task's header and parameters fit a bulletin: a station origin, and a body of at most 48 bytes (R5). -/
def TaskRx.acceptable (t : TaskRx) : Bool := Machine.isStation t.origin.toNat && decide (t.params.length ≤ 46)

/-- A TASK body that names no task of section 10.1: no code, or one that is not assigned (R178). -/
def Rx.namesNoTask (rx : Rx) : Bool :=
  match rx.body[1]? with
  | some c => (TaskCode.ofCode c).isNone
  | none => true

/-- A run that fails acceptance, or that carries a kind code that is not assigned (R5, R22). -/
def discardedRun (run : List Byte) : Bool :=
  match Machine.acceptRun run with
  | some b => (Kind.ofCode b.kind).isNone
  | none => true

/-- A station number and a talkback port number. -/
def isStationPort (station port : Nat) : Bool := Machine.isStation station && decide (port ≤ 11)

/-- The operands of a command are those its row can carry. -/
def Instr.wf : Instr → Bool
  | .receptionEnd _ run => discardedRun run
  | .presence _ rx | .planClaim _ rx | .planHold _ rx | .planYield _ rx | .sighting _ rx | .tallyState _ rx
  | .lineJoin _ rx | .lineLeave _ rx | .talk _ rx | .followTalk _ rx | .callRing _ rx | .callAnswer _ rx
  | .callEnd _ rx | .callKeep _ rx | .taskReply _ rx | .capture _ rx => rx.acceptable
  | .readStation _ t | .readLink _ t | .readPlan _ t | .readTally _ t | .readLine _ t | .readCounters _ t
  | .setCounter _ t | .setClass _ t | .pinLink _ t | .unpinLink _ t | .moveLink _ t | .setMembership _ t
  | .armCapture _ t | .readCapture _ t | .restart _ t | .setSample _ t => t.acceptable
  | .unknownTask _ rx => rx.acceptable && rx.namesNoTask
  | .originAgeExpiry n | .rosterExpiry n => Machine.isStation n
  | .quarantineExpiry sp => sp.valid
  | .copyFilterExpiry origin sp severity => Machine.isStation origin && sp.valid && decide (severity ≤ 15)
  | .talkerEntryExpiry _ station port => isStationPort station port
  | .followEntryExpiry origin port => isStationPort origin port
  | .recentTaskExpiry origin tag code => Machine.isStation origin && decide (tag ≤ 255) && decide (code ≤ 255)
  | .hardReset | .resetRelease | .configurationRead _ | .sendAttemptStart _ | .receptionStart _
  | .transmissionSuccess _ | .collision _ | .backoffExpiry _ | .presenceTimerExpiry | .joinTimerExpiry
  | .leaveTimerExpiry | .peerEntryExpiry _ | .overfullTimerExpiry | .claimRetryWaitExpiry _ | .claimWindowExpiry _
  | .tentativeAllowanceExpiry _ | .claimRefreshExpiry _ | .defendHoldOffExpiry _ | .holdRefreshExpiry _
  | .yieldingAllowanceExpiry _ | .commandFrameSent | .tuneOutcome _ _ _ | .tuneTimerExpiry _ | .report _ _ _ _ _
  | .sampleTimerExpiry _ | .relocationHoldOffExpiry _ | .sightingHoldOffExpiry _ | .acquireRetryExpiry _
  | .staleTimerExpiry _ | .unsetTimerExpiry _ | .contactLevelChange _ _ | .contactDebounceExpiry _
  | .sourceRefreshExpiry _ | .keyLevelChange _ _ | .keyDebounceExpiry _ | .talkRefreshExpiry _
  | .followRefreshExpiry _ | .circuitExpiry _ | .ringTimerExpiry _ | .keepTimerExpiry _ | .callExpiry _
  | .indicationTimerExpiry _ | .crosspointUpdateSent | .taskTimerExpiry => true

end Sys2Proof
end

