-- ==== Sys2Proof/Tests/Slice0.lean ====
section
/-! SUPPORT. Tests of the model: ill-formed commands that the check refuses, small steps with the values the chapters
give, and for every statement with hypotheses a state and operands that meet them, clause by clause. -/

namespace Sys2Proof.Tests

open Sys2Proof.Machine Sys2Proof.Says

set_option Elab.async false

/-! ## States to test on -/

/-- A camera on band B, on front-end 0: width 32, step 8, window 400 to 700. -/
def desc : LinkDesc :=
  { kind := .camera, band := .b, width := 32, step := 8, winLow := 400, winHigh := 700, prefLow := 400, cls := 1,
    frontEnd := 0, badThreshold := 6, sampleMs := 100, lossSamples := 3, fadeRun := 2, holdOffS := 10,
    keys := Vector.replicate 4 .unmapped, returnLines := 1 }

/-- Station 17 on port A, with that camera as link 0, layer 1 as a source layer of 4 inputs, line 3 capped at 2. -/
def img : Image :=
  { Image.blank with
    station := 17, serial := 7, portA := true, hops := 2, hold := 20, quarThreshold := 8, quarTimeS := 60,
    links := Image.blank.links.set 0 (some desc), caps := Vector.replicate 16 2, sourceCounts := #v[some 4, none, none,
      none, none, none, none, none], refreshUnits := 5 }

def span0 : Span := { band := .b, low := 400, high := 431 }
def span1 : Span := { band := .b, low := 456, high := 487 }

/-- The camera's link record, UP on its span. -/
def up : LinkRec := { newLink desc with state := .up, current := some span0, sampleTimer := some 100000 }

/-- A panel port in MANUAL mode, with call lamp line 2, listening and talking on line 3. -/
def panel : TbPort :=
  { talkClass := 1, answer := .manual, callLamp := some 2, members := [{ line := 3, listen := true, talk := true }],
    talk := .idle, follow := none, talkRefresh := none, followRefresh := none, indication := none }

/-- Station 17, ACTIVE. -/
def base : State :=
  { State.reset with
    phase := .active, resetHeld := false, cfg := some img
    lsup := { Lsup.reset with links := Lsup.reset.links.set 0 (some up) }
    tally := { Tally.reset with
      sources := Tally.reset.sources.set 0 (some { standby := false, refreshTimer := none, published := none }) }
    tbk := { Tbk.reset with ports := Tbk.reset.ports.set 0 (some panel) } }

/-- The same station as a bridge. -/
def bridge : State := { base with cfg := some { img with portB := true, bridgeFlag := true } }

def held : OwnEntry :=
  { span := span0, link := 0, cls := 1, standing := .held, hold := 20, sent := true, failures := 0, window := none,
    pendingYield := [], allowance := none, refresh := some 2000000, defend := none, owed := false }

def tentative : OwnEntry :=
  { held with span := span1, standing := .tentative, sent := false, refresh := none }

/-- The station with one own entry, in slot 0. -/
def owning (e : OwnEntry) : State := base.setOwn 0 (some e)

/-- A relocation of link 0 in a phase, from its span to another. -/
def relocating (ph : RelocPhase) : State :=
  base.setLink 0 { up with reloc := some { waiting .taskMove up (some span1) false false with phase := ph } }

/-- A bulletin of station 9 for every station. -/
def rx (body : List Byte) : Rx := { origin := 9, target := 0, hopPrio := 1, body }

/-- A task of station 9 for station 17. -/
def tx (params : List Byte) : TaskRx := { origin := 9, target := 17, hopPrio := 1, tag := 5, params }

/-- A queued entry for port A. -/
def entry (urgent : Bool) (age : Nat) (ticket : Ticket) : QueueEntry :=
  { bulletin := { kind := 0x10, origin := 17, target := 0, hopPrio := 2, body := [] }, version := 0, urgent, key := none,
    age, block := .plan, ticket, pending := { a := true, b := false }, sent := PortSet.empty, attemptsA := 0,
    attemptsB := 0 }

/-- The one entry of a queue, and port A sending it. -/
def sendingOwn (e : QueueEntry) (s : State) : State :=
  ({ s with biu := { s.biu with queue := [e], nextAge := e.age + 1 } }).setPort .a (.sending (e.tx .a))

/-- What is left to decide of the invariant where own entries stand in one slot at most. -/
abbrev Ready (s : State) : Prop :=
  (s.faultLine = true ↔ s.phase = .halted ∨ s.phase = .silent) ∧ s.biu.queue.length ≤ 16 ∧
    (s.phase.sendsOwn = false → s.biu.queue = []) ∧ s.biu.queue.Pairwise (fun e f => e.age < f.age) ∧
    (∀ e ∈ s.biu.queue, e.age < s.biu.nextAge) ∧
    s.biu.queue.Pairwise (fun e f => e.key.isSome = true → e.key ≠ f.key) ∧ s.biu.fwdA.length ≤ 8 ∧
    s.biu.fwdB.length ≤ 8 ∧ (s.biu.joinTimer.isSome = true → s.phase = .joining) ∧
    (s.resetHeld = true → s.phase = .loading) ∧ s.biu.leaveOffers = false ∧ s.rport.fresh = []

/-- No own entry, no front-end tuned, no relocation. -/
abbrev Still (s : State) : Prop :=
  (∀ i : Fin 16, s.plan.own[i] = none) ∧ (∀ a : Fin 8, s.rport.fe[a].state.off = true) ∧
    ∀ l : Fin 8, (s.lsup.links[l]).bind (·.reloc) = none

/-- A ready state with own entries in one slot at most meets the invariant, ACTIVE or still. -/
theorem inv_of {s : State} (i : Fin 16) (hown : ∀ j : Fin 16, j ≠ i → s.plan.own[j] = none) (h : Ready s)
    (hq : s.phase = .active ∨ Still s) : s.Inv where
  faultLine := h.1
  quiet := fun ha => hq.elim (fun x => absurd x ha) id
  queue := ⟨h.2.1, h.2.2.1⟩
  line := ⟨h.2.2.2.1, h.2.2.2.2.1, h.2.2.2.2.2.1⟩
  ownLaw := by
    have hi : ∀ (j : Fin 16) (e : OwnEntry), s.ownEntry j = some e → j = i := fun j e he => by
      by_contra hj
      have h0 : s.plan.own[j] = some e := he
      rw [hown j hj] at h0
      cases h0
    exact ⟨fun j k _ e f _ he hf _ _ _ => Or.inl ((hi j e he).trans (hi k f hf).symm),
      fun j k e f he hf _ _ _ => (hi j e he).trans (hi k f hf).symm,
      fun j k e f he hf _ => (hi j e he).trans (hi k f hf).symm⟩
  forward := fun p => by cases p; exacts [h.2.2.2.2.2.2.1, h.2.2.2.2.2.2.2.1]
  startUp := ⟨h.2.2.2.2.2.2.2.2.1, h.2.2.2.2.2.2.2.2.2.1⟩
  eventOver := h.2.2.2.2.2.2.2.2.2.2

/-- A station in JOINING, its join timer running. -/
def joining : State := { base with phase := .joining, biu := { base.biu with joinTimer := some 3000000 } }

/-- A station in LEAVING, its last entry going out on its one port. -/
def leaving : State := sendingOwn (entry true 3 .none) { base with phase := .leaving }

def halted : State := { State.reset with phase := .halted, resetHeld := false, faultLine := true }
def silent : State := { base with phase := .silent, faultLine := true }

/-- The invariant of a state that is ACTIVE. -/
theorem inv_active {s : State} (hown : ∀ j : Fin 16, j ≠ 0 → s.plan.own[j] = none) (h : Ready s)
    (ha : s.phase = .active) : s.Inv := inv_of 0 hown h (Or.inl ha)

theorem base_inv : base.Inv := inv_active (by decide +kernel) (by decide +kernel) rfl

theorem held_inv : (owning held).Inv := inv_active (by decide +kernel) (by decide +kernel) rfl

theorem leaving_inv : leaving.Inv := inv_of 0 (by decide +kernel) (by decide +kernel) (Or.inr (by decide +kernel))

theorem joining_inv : joining.Inv := inv_of 0 (by decide +kernel) (by decide +kernel) (Or.inr (by decide +kernel))

/-! ## Ill-formed commands -/

theorem test_wf_refuses_accepted_run :
    (Instr.receptionEnd .a (Bulletin.wire { kind := 0x01, origin := 9, target := 0, hopPrio := 1, body := [] })).wf =
      false := by decide +kernel

theorem test_wf_refuses_bad_origin : (Instr.presence .a { rx [] with origin := 127 }).wf = false := by decide +kernel

theorem test_wf_refuses_long_body : (Instr.sighting .a (rx (List.replicate 49 0))).wf = false := by decide +kernel

theorem test_wf_refuses_task_origin : (Instr.restart .a { tx [] with origin := 0 }).wf = false := by decide +kernel

theorem test_wf_refuses_long_task : (Instr.readLink .a (tx (List.replicate 47 0))).wf = false := by decide +kernel

theorem test_wf_refuses_known_task : (Instr.unknownTask .a (rx [5, 0x01])).wf = false := by decide +kernel

theorem test_wf_refuses_station_0 : (Instr.rosterExpiry 0).wf = false := by decide +kernel

theorem test_wf_refuses_span : (Instr.quarantineExpiry { band := .a, low := 9, high := 8 }).wf = false := by
  decide +kernel

theorem test_wf_refuses_high : (Instr.quarantineExpiry { band := .a, low := 9, high := 2048 }).wf = false := by
  decide +kernel

theorem test_wf_refuses_severity : (Instr.copyFilterExpiry 9 span0 16).wf = false := by decide +kernel

theorem test_wf_refuses_port : (Instr.talkerEntryExpiry 3 9 12).wf = false := by decide +kernel

theorem test_wf_refuses_follow_origin : (Instr.followEntryExpiry 127 0).wf = false := by decide +kernel

theorem test_wf_refuses_tag : (Instr.recentTaskExpiry 9 256 1).wf = false := by decide +kernel

theorem test_wf_takes_presence : (Instr.presence .a (rx [0, 1, 0, 0, 20, 0])).wf = true := by decide +kernel

/-! ## Values the chapters give -/

/-- The worked figures of R3: station 5 backs off for 11, 16 and 5 slots, station 6 first for 12. -/
theorem test_backoff_slots :
    backoffSlots 5 1 = 11 ∧ backoffSlots 5 2 = 16 ∧ backoffSlots 5 3 = 5 ∧ backoffSlots 6 1 = 12 := by decide +kernel

/-- The example of R48: with a guard of 2, 100 to 103 conflicts with 105 to 106 and not with 106 to 107. -/
theorem test_guard_example :
    conflictsHard 2 { band := .a, low := 100, high := 103 } { band := .a, low := 106, high := 107 } = false ∧
    conflictsHard 2 { band := .a, low := 100, high := 103 } { band := .a, low := 105, high := 106 } = true ∧
    conflictsHard 0 { band := .a, low := 100, high := 103 } { band := .b, low := 100, high := 103 } = false := by
  decide +kernel

/-- The table of R51, row by row: what the received bulletin does to the own entry. -/
theorem test_ranking_table :
    Rank.outranks { cls := 1, held := false, holder := 9, link := 0 } { cls := 5, held := true, holder := 17, link := 0 } = false ∧
    Rank.outranks { cls := 1, held := false, holder := 9, link := 0 } { cls := 1, held := true, holder := 17, link := 0 } = false ∧
    Rank.outranks { cls := 1, held := false, holder := 9, link := 0 } { cls := 1, held := false, holder := 17, link := 0 } = true ∧
    Rank.outranks { cls := 5, held := true, holder := 9, link := 0 } { cls := 1, held := true, holder := 17, link := 2 } = true ∧
    Rank.outranks { cls := 3, held := true, holder := 40, link := 0 } { cls := 3, held := false, holder := 17, link := 2 } = true := by
  decide +kernel

/-- R57: from 416 in a window 400 to 447 with step 8 and width 16, the search looks at 416, 424, 432, then 400, 408. -/
theorem test_search_order :
    searchLows { desc with width := 16, winHigh := 447 } 416 = [416, 424, 432, 400, 408] := by decide +kernel

/-- R60: a link that has come to rest on 664 to 695 searches next from the window's low. -/
theorem test_pointer_wraps :
    LinkDesc.advance desc 400 { band := .b, low := 664, high := 695 } = 400 ∧
    LinkDesc.advance desc 400 span1 = 464 := by decide +kernel


/-- Every input of a layer reaches its rules, the last one too. -/
theorem test_rule_reaches_input_64 :
    ruleInputs { MapRule.unused with inputLow := 63, inputHigh := 64 } = [62, 63] := by decide +kernel

/-- An unused membership of a port is zero: the ninth byte of this record is not (section 11.3). -/
theorem test_unused_membership_refused :
    readPort [0, 0, 0xFF, 1, 3, 1, 0, 0, 7, 0, 0, 0] 0 = none ∧
    (readPort [0, 0, 0xFF, 1, 3, 1, 0, 0, 0, 0, 0, 0] 0).isSome = true := by decide +kernel

/-- An image cleared in LEAVING stays cleared through the entry into SILENT, and one that is not is kept (R177). -/
theorem test_silent_keeps_the_image :
    leaving.finish.enterSilent.finish.tbk.xp.image = Vector.replicate 20 XEntry.empty ∧
    base.finish.enterSilent.finish.tbk.xp.image = base.finish.tbk.xp.image ∧
    base.finish.tbk.xp.image ≠ Vector.replicate 20 XEntry.empty := by decide +kernel

/-- An unmapped contact has an input within 1 to 64 all the same (section 11.3). -/
theorem test_unmapped_contact_input :
    readContact [0, 0] (Vector.replicate 8 none) 0 = none ∧ readContact [0, 65] (Vector.replicate 8 none) 0 = none ∧
    readContact [0, 64] (Vector.replicate 8 none) 0 = some none := by decide +kernel

/-- The byte that a TALK function does not use is zero. -/
theorem test_unused_key_byte_refused : keyFnOf [1, 3, 5] 0 = none ∧ keyFnOf [1, 3, 0] 0 = some (.talk 3) := by
  decide +kernel

/-- An image without links, less its check: station 17, serial 7, one port, nothing mapped. -/
def content : List Byte :=
  [0x6B, 0x14, 0x02, 0x7F, 17, 0, 7, 2, 20, 1, 0, 2, 0, 0xFF, 0, 0xFF, 0, 0xFF, 8, 0, 60, 0] ++
    (List.replicate 12 [0, 0, 0xFF, 0, 0, 0, 0, 0, 0, 0, 0, 0]).flatten ++ List.replicate 16 1 ++ [0, 0] ++
    ([1, 2, 5] ++ List.replicate 9 0 ++ (List.replicate 32 [0, 1]).flatten) ++ (1 :: List.replicate 64 0) ++
    (List.replicate 32 [0, 15, 0, 0, 0, 0, 0, 0, 0]).flatten ++ List.replicate 24 0

def memory : List Byte := content ++ [0x5D, 0xA6]

/-- The check of the first 49 k bytes of the image. -/
def sums : List (BitVec 16) :=
  [0xFFFF#16, 0x50A3#16, 0x63CC#16, 0x32D5#16, 0xE96D#16, 0x6807#16, 0x1285#16, 0x0E0A#16, 0x2F1E#16, 0x5315#16,
   0x2CFF#16, 0xBC55#16, 0x5B6F#16, 0x5DA6#16]

theorem sums_step : ∀ k : Fin 13,
    ((content.drop (49 * k.val)).take 49).foldl crcByte (sums.getD k 0) = sums.getD (k + 1) 0 := by decide +kernel

theorem sums_right : ∀ k, k ≤ 13 → (content.take (49 * k)).foldl crcByte 0xFFFF#16 = sums.getD k 0
  | 0, _ => rfl
  | k + 1, h => by
    rw [Nat.mul_succ, List.take_add, List.foldl_append, sums_right k (by omega)]
    exact sums_step ⟨k, by omega⟩

/-- It passes the four tests, and is read field by field. -/
theorem test_image_reads :
    (readImage memory).map (fun i => (i.station, i.serial, i.quarTimeS)) = some (17, 7, 60) := by
  have hc : crc (memory.take 637) = 0x5DA6#16 := by
    rw [show memory.take 637 = content.take (49 * 13) from by decide +kernel]
    exact sums_right 13 (Nat.le_refl 13)
  have hn : ImageBytes.w memory 2 = 639 := by decide +kernel
  have h : checkPasses memory = true := by
    simp only [checkPasses, hn]
    rw [hc]
    decide +kernel
  rw [readImage, h, show markPasses memory = true from by decide +kernel,
    show lengthPasses memory = true from by decide +kernel, hn]
  decide +kernel

/-! ## Witnesses

For each statement with hypotheses, a state and operands that meet them, clause by clause. -/

/-- What a state's one record gives every record of a hypothesis. -/
theorem of_some {α : Type} {P : α → Prop} {x : Option α} {a : α} (h : x = some a) (hp : P a) : ∀ y, x = some y → P y :=
  fun y hy => by rw [h] at hy; cases hy; exact hp

theorem of_none {α : Type} {P : α → Prop} {x : Option α} (h : x = none) : ∀ y, x = some y → P y :=
  fun y hy => by rw [h] at hy; cases hy

/-- With own entries in slot 0 alone, what that entry meets every own entry meets. -/
theorem of_slot_0 {s : State} {P : Fin 16 → OwnEntry → Prop} (h : ∀ j : Fin 16, j ≠ 0 → s.ownEntry j = none)
    (h0 : ∀ e, s.ownEntry 0 = some e → P 0 e) : ∀ (j : Fin 16) (o : OwnEntry), s.ownEntry j = some o → P j o :=
  fun j o ho => by
    by_cases hj : j = 0
    · subst hj; exact h0 o ho
    · rw [h j hj] at ho; cases ho

theorem witness_StepRunsTheFrontCommand : { base with pending := [.hardReset] }.pending = .hardReset :: [] := rfl

theorem witness_EmptyQueueMovesTheClockAlone : base.pending = [] := rfl

/-- The crosspoint line, with an update on it or free, and entries pending. -/
def wired (sending : Option (Fin 20 × XEntry)) (pending : List (Fin 20)) : State :=
  { base with tbk := { base.tbk with xp := { base.tbk.xp with sending, pending } } }

/-- An offer of PLAN with a subject key. -/
def offerOf (k : Kind) (urgent : Bool) (key : Option SubjectKey) : Offer :=
  { kind := k, urgent, target := 0, body := [1, 2], key, block := .plan, ticket := .none }

/-- A queue of this many entries, the last of them with a priority, a subject key and a ticket. -/
def queueOf (n : Nat) (urgent : Bool) (key : Option SubjectKey) (ticket : Ticket) : State :=
  { base with biu := { base.biu with
      queue := ((List.range (n - 1)).map fun k => entry true k .none) ++ [{ entry urgent (n - 1) ticket with key }]
      nextAge := n } }

theorem witness_EventEndAndOffers :
    let claim : SubjectKey := .plan .planClaim 0 span0
    let yield_ : SubjectKey := .plan .planYield 0 span0
    let s (urgent : Bool) := queueOf 16 urgent (some claim) .none
    let sighted := queueOf 16 false none (.sighting 0 span0 false)
    let v : QueueEntry := entry false 15 (.sighting 0 span0 false)
    ((wired (some (19, XEntry.empty)) []).tbk.xp.sending = some (19, XEntry.empty) ∧
      (wired none [19]).tbk.xp.sending = none ∧ pendingEntries (wired none [19]) = [19, 0, 12] ∧
      pendingEntries { wired none [] with phase := .loading } = []) ∧
    (joining.phase = .joining ∧ base.phase = .active ∧ silent.phase = .silent ∧
      silent.tbk.xp.computed[(19 : Fin 20)] = silent.entryContent 19 ∧
      silent.tbk.xp.computed[(0 : Fin 20)] ≠ silent.entryContent 0) ∧
    (leaving.phase = .leaving ∧ leaving.biu.leaveOffers = false) ∧
    ((s false).phase = .active ∧ (offerOf .planYield true (some yield_)).key = some (.plan .planYield 0 span0)) ∧
    ((offerOf .planClaim true (some claim)).key = some claim ∧
      (s false).biu.queue.find? (fun e => e.key == some claim) = some { entry false 15 .none with key := some claim } ∧
      (s true).biu.queue.find? (fun e => e.key == some claim) = some { entry true 15 .none with key := some claim } ∧
      (s false).biu.queue.length = 16) ∧
    ((offerOf .presence false (some .presence)).key = some .presence ∧ (∀ e ∈ (s true).biu.queue, e.key ≠ some .presence) ∧
      (s true).biu.queue.length = 16 ∧ youngestNormal (s true) = none ∧ base.biu.queue.length < 16) ∧
    (youngestNormal sighted = some v ∧ sighted.biu.queue.length = 16 ∧ (∀ e ∈ sighted.biu.queue, e.key ≠ some claim) ∧
      v.ticket = .sighting 0 span0 up.announcedBad ∧ v.sent.isEmpty = true ∧ up.current = some span0) := by
  and_intros <;> decide +kernel

theorem removesNone_of_other {o : Offer} (s : State) (h : ∀ l sp, o.key ≠ some (.plan .planYield l sp)) : removesNone s o :=
  fun l sp e => absurd e (h l sp)

theorem witness_EventEndAndOffers_removesNone :
    removesNone base (offerOf .planClaim true (some (.plan .planClaim 0 span0))) ∧
    removesNone base (offerOf .planYield true (some (.plan .planYield 0 span0))) :=
  ⟨removesNone_of_other base (fun l sp h => by cases h), fun _ _ _ e (he : e ∈ []) => by cases he⟩

theorem witness_EveryStepKeepsTheInvariant : base.Inv ∧ step base = .next { base with now := base.now + 2 } :=
  ⟨base_inv, rfl⟩

theorem witness_FaultLineFollowsThePhase :
    (halted.Inv ∧ halted.phase = .halted ∧ Instr.joinTimerExpiry ≠ .hardReset) ∧ (silent.Inv ∧ silent.phase = .silent) :=
  ⟨⟨inv_of 0 (by decide +kernel) (by decide +kernel) (Or.inr (by decide +kernel)), by decide +kernel⟩,
   inv_of 0 (by decide +kernel) (by decide +kernel) (Or.inr (by decide +kernel)), rfl⟩

theorem witness_ReleaseBeginsLoading : Instr.presenceTimerExpiry ≠ .resetRelease ∧ base.resetHeld = false := by
  decide +kernel

def loading : State := { State.reset with resetHeld := false }

theorem witness_ValidImageBeginsJoining :
    loading.phase = .loading ∧ loading.resetHeld = false ∧ (∃ img, readImage memory = some img) ∧
      loading.tbk.xp.sending = none :=
  ⟨by decide +kernel, by decide +kernel, (Option.map_eq_some_iff.mp test_image_reads).imp fun _ h => h.1,
   by decide +kernel⟩

theorem witness_FailingImageHalts :
    (loading.phase = .loading ∧ loading.resetHeld = false ∧ readImage [0x6B, 0x14] = none) ∧
    ([0x6B, 0x15] : List Byte).take 2 ≠ [0x6B, 0x14] ∧ ∀ b ∈ List.replicate 1024 (0xFF : Byte), b = 0xFF := by
  refine ⟨by decide +kernel, by decide +kernel, fun b hb => List.eq_of_mem_replicate hb⟩

theorem witness_JoinListenEndsInActive :
    joining.Inv ∧ joining.biu.joinTimer = some 3000000 ∧ (joining.source 1).all (·.standby) = true ∧
      joining.source 0 = some { standby := false, refreshTimer := none, published := none } ∧ joinCount joining = 4 ∧
      joining.tbPort 0 = some panel ∧ (panel.members.map (·.line)).Nodup ∧ panel.members ≠ [] ∧
      joinCount (joining.setTbPort 0 { panel with members := List.replicate 13 { line := 3, listen := true, talk := true } }) = 16 :=
  ⟨joining_inv, by decide +kernel⟩

/-- A station with an own entry, a call, a port that talks and follows, and room for what it offers on leaving. -/
def busy : State :=
  { (owning held).setTbPort 0 { panel with
      talk := .talking 3 (.line 15), follow := some { layer := 7, input := 64, key := .line 14 } } with
    mgmt := base.mgmt }.setCall 3 (some
      { state := .connected, caller := true, port := 0, peer := (9, 3), circuit := 14, ringTimer := none,
        keepTimer := none, callExpiry := none })

theorem witness_RestartEntersLeaving :
    busy.Inv ∧ tasked .restart .a (tx []) busy ∧ busy.biu.queue.length < 16 ∧
      busy.biu.queue.length + leaveCount busy ≤ 16 ∧ busy.ownEntry 0 = some held ∧ (busy.call 3).isSome = true ∧
      ((busy.tbPort 0).map (·.talk)) = some (.talking 3 (.line 15)) ∧ ((busy.tbPort 0).bind (·.follow)).isSome = true ∧
      ((busy.tbPort 0).map (·.members)) = some panel.members :=
  ⟨inv_active (by decide +kernel) (by decide +kernel) rfl, by decide +kernel⟩

theorem witness_LeaveWaitEndsInHardReset :
    (leaving.phase = .leaving ∧ { leaving with biu := { leaving.biu with leaveTimer := some 5 } }.biu.leaveTimer = some 5) ∧
    leaving.Inv ∧ leaving.biu.queue = [entry true 3 .none] ∧
      leaving.biu.port .a = .sending ((entry true 3 .none).tx .a) ∧
      (entry true 3 .none).pending = PortSet.empty.insert .a :=
  ⟨by decide +kernel, leaving_inv, by decide +kernel⟩

def fwdEntry : FwdEntry := { bulletin := (rx []).bulletin .sighting, attempts := 0 }

theorem witness_SenderTakesUrgentThenForwardedThenNormal :
    let u := base.setQueue [entry false 1 .none, entry true 2 .none]
    let n := base.setQueue [entry false 1 .none]
    (base.phase.onBus = true ∧ base.enabled .a = true ∧ base.biu.port .a = .idle ∧ base.phase.sendsOwn = true) ∧
    u.biu.queue.find? (fun e => e.urgent && e.pending.has .a) = some (entry true 2 .none) ∧
    n.biu.queue.find? (fun e => e.urgent && e.pending.has .a) = none ∧
    n.biu.queue.find? (fun e => !e.urgent && e.pending.has .a) = some (entry false 1 .none) ∧
    (n.setFwd .a [fwdEntry]).biu.fwd .a = fwdEntry :: [] ∧ n.biu.fwd .a = [] ∧
    base.biu.queue.find? (fun e => !e.urgent && e.pending.has .a) = none := by decide +kernel

theorem witness_ReceptionsBeginAndEnd :
    let b := base.setPort .a (.backoff 3 400 false)
    let r := base.setPort .a .receiving
    (base.hears .a = true ∧ base.biu.port .a = .idle) ∧ (b.hears .a = true ∧ b.biu.port .a = .backoff 3 400 false) ∧
    (r.hears .a = true ∧ acceptRun [] = none ∧ r.biu.port .a = .receiving) ∧ base.hears .b = false := by decide +kernel

theorem witness_ReceptionsBeginAndEnd_accepted :
    let x : Rx := { rx [] with target := 126 }
    let b (origin target : Byte) : Bulletin := { kind := 0x02, origin, target, hopPrio := 1, body := [] }
    let once : CaptureRule := { CaptureRule.reset with mode := .once, requester := some 9 }
    let s := (bridge.setPort .a .receiving).setRule 3 once
    acceptRun (x.bulletin .presence).wire = some (x.bulletin .presence) ∧
    (s.hears .a = true ∧ s.biu.port .a = .receiving ∧ s.isBridge = true ∧ s.station = 17 ∧
      (s.biu.origins[(9 : Fin 127)]).all (fun o => o.port == .a) = true ∧ (s.biu.fwd .b).length < 8 ∧
      s.mgmt.rules[(3 : Fin 4)] = once) ∧
    ((s.setOrigin 9 (some { port := .b, expiry := 3 })).biu.origins[(9 : Fin 127)] = some { port := .b, expiry := 3 } ∧
      BusPort.b ≠ .a) ∧
    (∀ o ∈ [(9 : Byte), 17], ∀ a ∈ [(0 : Byte), 17, 126], acceptRun (b o a).wire = some (b o a) ∧
      Kind.ofCode (b o a).kind = none ∧ once.hitBy (b o a) = true) ∧
    noneArmed base ∧ base.isBridge = false := by decide +kernel

/-- Port A sends a forwarded bulletin. -/
def forwarding (attempts : Nat) : Tx := { source := .forward, bulletin := fwdEntry.bulletin, attempts }

theorem witness_TransmissionSucceeds :
    let e : QueueEntry := { entry true 3 .none with pending := { a := true, b := true } }
    let f := base.setPort .a (.sending (forwarding 0))
    let s := sendingOwn e base
    let g := sendingOwn (entry true 3 .none) base
    f.biu.port .a = .sending (forwarding 0) ∧ (forwarding 0).source = .forward ∧
    (s.biu.port .a = .sending (e.tx .a) ∧ (e.tx .a).source = .own 3 0 ∧
      s.biu.queue.find? (fun x => x.age == 3 && x.version == 0) = some e ∧ (e.pending.erase .a).isEmpty = false) ∧
    (s.setQueue []).biu.queue.find? (fun x => x.age == 3 && x.version == 0) = none ∧
    g.biu.queue.find? (fun x => x.age == 3 && x.version == 0) = some (entry true 3 .none) ∧
    ((entry true 3 .none).pending.erase .a).isEmpty = true ∧ g.phase = .active ∧ (entry true 3 .none).ticket = .none := by
  decide +kernel

theorem witness_SentClaimOpensItsWindow :
    let q := entry true 0 (.claim 0 span1)
    let s := sendingOwn q (owning tentative)
    s.Inv ∧ s.phase = .active ∧
    s.biu.port .a = .sending { source := .own q.age 0, bulletin := q.bulletin, attempts := q.attempts .a } ∧
    q ∈ s.biu.queue ∧ q.version = 0 ∧ (q.pending.erase .a).isEmpty = true ∧ q.ticket = .claim tentative.link tentative.span ∧
    s.ownEntry 0 = some tentative ∧ tentative.span.low ≤ tentative.span.high ∧ tentative.standing = .tentative ∧
    tentative.sent = false :=
  ⟨inv_active (by decide +kernel) (by decide +kernel) rfl, by decide +kernel⟩

theorem witness_CollisionBacksOffOrAbandons :
    let own : QueueEntry := { entry true 3 .none with attemptsA := 7 }
    let s := sendingOwn own base
    let f := (base.setFwd .a [fwdEntry]).setPort .a (.sending (forwarding 7))
    ((base.setPort .a (.sending (forwarding 6))).biu.port .a = .sending (forwarding 6) ∧ (forwarding 6).attempts + 1 < 8) ∧
    (f.biu.port .a = .sending (forwarding 7) ∧ 8 ≤ (forwarding 7).attempts + 1 ∧ (forwarding 7).source = .forward ∧
      f.biu.fwd .a = fwdEntry :: []) ∧
    (s.biu.port .a = .sending (own.tx .a) ∧ 8 ≤ (own.tx .a).attempts + 1 ∧ (own.tx .a).source = .own 3 0 ∧
      s.biu.queue.find? (fun e => e.age == 3 && e.version == 0) = some own ∧ own.ticket = .none ∧ s.phase = .active ∧
      (own.pending.erase .a).isEmpty = true) ∧
    (base.setPort .a (.backoff 16 2048 true)).biu.port .a = .backoff 16 2048 true := by decide +kernel

theorem witness_WireRoundTrip :
    let b : Bulletin := { kind := 0x01, origin := 126, target := 0, hopPrio := 3, body := List.replicate 48 7 }
    1 ≤ b.origin.toNat ∧ b.origin.toNat ≤ 126 ∧ b.body.length ≤ 48 := by decide +kernel

theorem witness_OneDamagedByteIsDiscarded :
    let b : Bulletin := { kind := 0x01, origin := 126, target := 0, hopPrio := 3, body := [] }
    b.body.length ≤ 48 ∧ b.wire[6]? ≠ some (b.wire.getD 6 0 + 1) ∧ 6 < b.wire.length := by decide +kernel

theorem witness_BridgeLearnsAndForwards :
    let full := bridge.setFwd .b (List.replicate 8 fwdEntry)
    let known := bridge.setOrigin 9 (some { port := .b, expiry := 5 })
    heard .a (rx []) base ∧ (rx []).origin.toNat = (9 : Fin 127).val ∧ base.isBridge = false ∧
    heard .a (TaskRx.rx .restart (tx [])) bridge ∧ heard .a (rx []) bridge ∧ bridge.isBridge = true ∧
    (bridge.biu.origins[(9 : Fin 127)]).all (fun o => o.port == .a) = true ∧ 1 ≤ (rx []).hopPrio.toNat % 4 ∧
    (bridge.biu.fwd (BusPort.other .a)).length < 8 ∧ ({ rx [] with hopPrio := 0x80 } : Rx).hopPrio.toNat % 4 = 0 ∧
    heard .a { rx [] with hopPrio := 0x80 } bridge ∧ heard .a (rx []) full ∧
    8 ≤ (full.biu.fwd (BusPort.other .a)).length ∧ heard .a (rx []) known ∧
    known.biu.origins[(9 : Fin 127)] = some { port := .b, expiry := 5 } ∧ BusPort.b ≠ .a := by decide +kernel

theorem witness_arrives :
    arrives (.sighting .a (rx [])) .sighting .a (rx []) ∧
    arrives (.restart .a (tx [])) .task .a (TaskRx.rx .restart (tx [])) ∧ arrives (.unknownTask .a (rx [])) .task .a (rx []) :=
  ⟨Or.inl rfl, Or.inr ⟨.restart, tx [], rfl, rfl, rfl⟩, Or.inl rfl⟩

theorem witness_BulletinsForNoBlock :
    let other : Rx := { rx [] with target := 126 }
    let own : Rx := { rx [] with origin := 17 }
    (heard .a other base ∧ other.target ≠ 0 ∧ other.target.toNat ≠ base.station) ∧
    (base.hears .a = true ∧ own.acceptable = true ∧ own.origin.toNat = base.station ∧ Kind.sighting ≠ .presence) ∧
    received .a (rx []) base ∧ base.isBridge = false ∧ ∀ i : Fin 4, base.mgmt.rules[i].mode = .off := by decide +kernel

theorem witness_DuplicateStationGoesSilent :
    let other : Rx := { rx [0, 8, 0, 0, 20, 0] with origin := 17 }
    let same : Rx := { rx [0, 7, 0, 0, 20, 0] with origin := 17 }
    (base.hears .a = true ∧ other.acceptable = true ∧ other.origin.toNat = base.station ∧
      readPresenceBody other.body = some (8, []) ∧ 8 ≠ base.image.serial ∧ base.phase ≠ .silent) ∧
    (same.acceptable = true ∧ same.origin.toNat = base.station ∧ readPresenceBody same.body = some (7, []) ∧
      7 = base.image.serial) ∧ (silent.hears .a = true ∧ other.origin.toNat = silent.station ∧ silent.phase = .silent) := by
  decide +kernel

theorem witness_CaptureRulesMarkTheirMatches :
    let r : CaptureRule := { CaptureRule.reset with mode := .once, requester := some 9 }
    let s := base.setRule 3 r
    heard .a (rx []) s ∧ s.mgmt.rules[(3 : Fin 4)] = r ∧ heard .a (TaskRx.rx .restart (tx [])) s ∧
    (TaskRx.rx .restart (tx [])).body[1]? ≠ some (TaskCode.code .armCapture) ∧
    (TaskRx.rx .restart (tx [])).body[1]? ≠ some (TaskCode.code .readCapture) ∧
    r.hitBy ((TaskRx.rx .restart (tx [])).bulletin .task) = true ∧
    r.hitBy ((rx []).bulletin .sighting) = true ∧ r.mode = .once ∧
    s.mgmt.rules[(0 : Fin 4)].hitBy ((rx []).bulletin .sighting) = false := by decide +kernel

/-- Line 15 of the station, changed. -/
def lined (x : Line) : State := base.setLine 15 x

def members (n : Nat) : List Member :=
  (List.range n).map fun k => { station := 40 + k, port := 0, listen := true, talk := true }

def presenceRx : Rx := rx [0, 1, 0, 0, 20, 1, 3, 0, 2, 0x80, 0]

theorem witness_PresenceFillsTheRosters :
    received .a presenceRx base ∧ readPresenceBody presenceRx.body = some (1, [{ port := 3, listen := 2, talk := 0x8000 }]) ∧
    presenceRx.origin.toNat = (9 : Fin 127).val ∧ (0x8000 : BitVec 16).getLsbD (15 : Fin 16) = true ∧
    received .a presenceRx (lined { Line.empty with roster := members 24 }) ∧
    (lined { Line.empty with roster := members 24 }).tbk.lines[(15 : Fin 16)].roster.length ≤ 24 := by decide +kernel

/-- A claim or hold of span0 for link 2 at a class. -/
def planRx (cls : Byte) : Rx := rx [1, 1, 0x90, 1, 0xAF, 2, cls, 20]
def claimed (cls : Nat) : PlanBody := { span := span0, link := 2, cls, hold := 20 }
def peer (holder link low : Nat) : PeerEntry :=
  { span := { band := .a, low, high := low }, holder, link, cls := 0, held := false, hold := 20, expiry := 500 }
def peers (n : Nat) : State :=
  { base with plan := { base.plan with peers := Vector.ofFn fun j => if j.val < n then some (peer 30 5 j.val) else none } }

theorem witness_ClaimsAndHoldsEnterTheReplica :
    let again := base.setPeer 95 (some { peer 9 2 0 with span := span0 })
    let third := (base.setPeer 94 (some (peer 9 2 0))).setPeer 95 (some (peer 9 2 1))
    (received .a (planRx 7) base ∧ readPlanBody (planRx 7).body = some (claimed 7)) ∧
    (received .a (planRx 7) again ∧ again.peerSlot 9 2 span0 = some 95 ∧ (again.plan.peers[(95 : Fin 96)]).isSome = true) ∧
    (received .a (planRx 7) third ∧ third.peerSlot 9 2 span0 = none ∧ 2 ≤ (third.holderSlots 9 2).length ∧
      (nearest (third.holderSlots 9 2)).isSome = true) ∧
    (received .a (planRx 7) (peers 95) ∧ (peers 95).peerSlot 9 2 span0 = none ∧
      ((peers 95).holderSlots 9 2).length < 2 ∧ (peers 95).emptyPeer = some 95) ∧
    received .a (planRx 7) (peers 96) ∧ (peers 96).peerSlot 9 2 span0 = none ∧
      ((peers 96).holderSlots 9 2).length < 2 ∧ (peers 96).emptyPeer = none := by decide +kernel

/-- Link 0 pinned on its span. -/
def pinned : State := (base.setLink 0 { up with pinned := true }).setOwn 0 (some held)

/-- Own entries in slot 0 alone: no other entry for an arrival to concern. -/
theorem no_other {s : State} {P : OwnEntry → Prop} (h : ∀ j : Fin 16, j ≠ 0 → s.ownEntry j = none) :
    ∀ (j : Fin 16) (o : OwnEntry), j ≠ 0 → s.ownEntry j = some o → P o :=
  fun j o hj ho => by rw [h j hj] at ho; cases ho

/-- A relocation of link 0 in CLAIMING with this many attempts behind it, its claim in slot 0, and the replica overfull. -/
def contested (attempts : Nat) (e : OwnEntry) : State :=
  let r : Reloc := { waiting .taskMove up (some span1) false false with phase := .claiming, attempts }
  let s := (base.setLink 0 { up with reloc := some r }).setOwn 0 (some e)
  { s with plan := { s.plan with overfull := true } }

/-- A claim or hold of span1 for link 2 at a class. -/
def rivalRx (cls : Byte) : Rx := rx [1, 1, 0xC8, 1, 0xE7, 2, cls, 20]
def rival (cls : Nat) : PlanBody := { span := span1, link := 2, cls, hold := 20 }

def awaiting : OwnEntry := { tentative with sent := true, pendingYield := [(9, 2)], allowance := some 2000000 }

theorem witness_OwnEntriesMeetClaimsAndHolds :
    ((pinned.Inv ∧ received .a (planRx 7) pinned ∧ readPlanBody (planRx 7).body = some (claimed 7) ∧
      pinned.ownEntry 0 = some held ∧ held.standing = .held ∧ pinned.conflicts held.span (claimed 7).span = true ∧
      ((claimed 7).rank false 9).outranks (held.rank pinned) = true ∧ pinned.reloc held.link = none) ∧
      (∀ (j : Fin 16) (o : OwnEntry), j ≠ 0 → pinned.ownEntry j = some o → o.link = held.link → o.standing = .yielding) ∧
      ∀ x : LinkRec, pinned.link held.link = some x →
        x.current ≠ some held.span ∨ x.pinned = true ∨ pinned.plan.overfull = true) ∧
    (readPlanBody (planRx 0).body = some (claimed 0) ∧
      ((claimed 0).rank true 9).outranks (held.rank pinned) = false ∧ held.defend = none ∧ pinned.biu.queue.length < 16) ∧
    (∀ (j : Fin 16) (o : OwnEntry), j ≠ 0 → pinned.ownEntry j = some o → apart pinned o (planRx 0) (claimed 0)) ∧
    ((contested 2 tentative).Inv ∧ received .a (rivalRx 7) (contested 2 tentative) ∧
      readPlanBody (rivalRx 7).body = some (rival 7) ∧ (contested 2 tentative).ownEntry 0 = some tentative ∧
      tentative.standing = .tentative ∧ (contested 2 tentative).conflicts tentative.span (rival 7).span = true ∧
      (9, 2) ∉ tentative.pendingYield ∧ ((rival 7).rank true 9).outranks (tentative.rank (contested 2 tentative)) = true ∧
      (contested 2 tentative).biu.queue.length < 16 ∧ 2 + 1 < 4 ∧ 4 ≤ 3 + 1 ∧ (contested 3 tentative).Inv) ∧
    (∀ (j : Fin 16) (o : OwnEntry), j ≠ 0 → (contested 2 tentative).ownEntry j = some o →
      apart (contested 2 tentative) o (rivalRx 7) (rival 7)) ∧
    (((rival 0).rank true 9).outranks (tentative.rank (contested 2 tentative)) = false ∧
      readPlanBody (rivalRx 0).body = some (rival 0)) ∧
    (readYieldBody (rivalRx 7).body = some (span1, 2) ∧ (contested 2 awaiting).ownEntry 0 = some awaiting ∧
      (contested 2 awaiting).conflicts awaiting.span span1 = true ∧ (9, 2) ∈ awaiting.pendingYield ∧
      awaiting.allowance.isSome = true ∧ (∀ y ∈ awaiting.pendingYield, y = (9, 2)) ∧ up.tuneInFlight = false ∧
      (contested 2 awaiting).rport.fe[(0 : Fin 8)].state = .muted) ∧
    (∀ (j : Fin 16) (o : OwnEntry), j ≠ 0 → (contested 2 awaiting).ownEntry j = some o → (9, 2) ∉ o.pendingYield) := by
  refine ⟨⟨⟨inv_active (by decide +kernel) (by decide +kernel) rfl, by decide +kernel⟩,
    no_other (by decide +kernel), of_some (a := { up with pinned := true }) (by decide +kernel) (by decide +kernel)⟩,
    by decide +kernel, no_other (by decide +kernel), ⟨inv_active (by decide +kernel) (by decide +kernel) rfl, ?_⟩,
    no_other (by decide +kernel), by decide +kernel, by decide +kernel, no_other (by decide +kernel)⟩
  have h : (contested 3 tentative).Inv := inv_active (by decide +kernel) (by decide +kernel) rfl
  repeat refine ⟨by decide +kernel, ?_⟩
  exact h

theorem witness_YieldEmptiesItsSlot :
    let s := base.setPeer 95 (some { peer 9 2 0 with span := span0 })
    received .a (planRx 7) s ∧ readYieldBody (planRx 7).body = some (span0, 2) ∧ s.peerSlot 9 2 span0 = some 95 ∧
    base.peerSlot 9 2 span0 = none := by decide +kernel

def sightingRx (severity : Byte) : Rx := rx [1, 1, 0x90, 1, 0xAF, severity]
def quarantined (n : Nat) : State :=
  { base with plan := { base.plan with quarantine := (List.range n).map fun k =>
      { span := { band := .a, low := k, high := k }, expiry := 900 } } }

theorem witness_SightingQuarantinesAndFolds :
    let c : CopyEntry := { origin := 9, span := span0, severity := 8, expiry := 7 }
    (received .a (sightingRx 8) base ∧ readSightingBody (sightingRx 8).body = some (span0, 8) ∧
      base.image.quarThreshold ≤ 8 ∧ base.copyEntry 9 span0 8 = none) ∧
    (readSightingBody (sightingRx 7).body = some (span0, 7) ∧ 7 < base.image.quarThreshold) ∧
    ((quarantined 15).plan.quarantine.filter (fun q => q.span != span0)).length < 16 ∧
    16 ≤ ((quarantined 16).plan.quarantine.filter (fun q => q.span != span0)).length ∧
    received .a (sightingRx 8) (quarantined 16) ∧ ((base.setFilter .b [c]).copyEntry 9 span0 8).isSome = true ∧
    Band.a ≠ span0.band := by decide +kernel

def tallyRx : Rx := rx ([1, 64, 20] ++ List.replicate 16 0xA0)

theorem witness_PublicationsFillTheLayers :
    let live (n : Nat) := base.setLayer 0 { Layer.reset with state := .live, source := some n }
    received .a tallyRx base ∧ (readTallyBody tallyRx.body).map (·.layer) = some 0 ∧ (base.layer 0).state ≠ .live ∧
    ((live 9).layer 0).source.all (fun r => decide (9 ≤ r)) = true ∧ received .a tallyRx (live 9) ∧
    (base.source 0).isSome = true ∧ tallyRx.origin.toNat < base.station ∧
    ((live 8).layer 0).state = .live ∧ ((live 8).layer 0).source = some 8 ∧ 8 < tallyRx.origin.toNat := by decide +kernel

def talkers (n : Nat) : List Talker :=
  (List.range n).map fun k => { station := 40 + k, port := 0, cls := 3, expiry := some 700 }

/-- A talker to be on line 15, with seven in its list. -/
def talkLine : State :=
  lined { roster := [{ station := 9, port := 11, listen := false, talk := true }], overfull := false, talkers := talkers 7 }

theorem witness_JoinsAndLeavesMoveMembers :
    let s := lined { Line.empty with roster := members 31 }
    let full := lined { Line.empty with roster := members 32 }
    (received .a (rx [15, 11, 1]) s ∧ readJoinBody [15, 11, 1] = some (15, 11, true, false) ∧
      (s.line 15).roster.length < 32) ∧
    (received .a (rx [15, 11, 2]) full ∧ readJoinBody [15, 11, 2] = some (15, 11, false, true) ∧
      (full.line 15).hasMember 9 11 = false ∧ 32 ≤ (full.line 15).roster.length) ∧
    (readJoinBody [15, 11, 0] = some (15, 11, false, false) ∧ readLeaveBody [15, 11] = some (15, 11)) ∧
    (talkLine.line 15).hasMember 9 11 = true ∧ received .a (rx [15, 11, 1]) talkLine := by decide +kernel

def follower (port : Nat) : FollowEntry := { origin := 9, port, layer := 0, input := 1, expiry := 3 }
def follows (n : Nat) : List FollowEntry := (List.range n).map follower

theorem witness_TalkersAndFollowersMove :
    (received .a (rx [15, 11, 3, 1]) talkLine ∧ readTalkBody [15, 11, 3, 1] = some (15, 11, 3, true) ∧
      ((talkLine.line 15).roster.any fun m => m.is 9 11 && m.talk) = true ∧ (talkLine.line 15).talkers.length < 8) ∧
    ((base.line 15).roster.any fun m => m.is 9 11 && m.talk) = false ∧
    readTalkBody [15, 11, 3, 0] = some (15, 11, 3, false) ∧
    (received .a (rx [8, 64, 11, 1]) (base.setFollows (follows 3)) ∧
      readFollowBody [8, 64, 11, 1] = some (7, 64, 11, true) ∧
      (∀ g ∈ (base.setFollows (follows 3)).tbk.follows, ¬(g.origin = 9 ∧ g.port = 11)) ∧ (follows 3).length < 4) ∧
    (received .a (rx [8, 64, 11, 1]) (base.setFollows (follows 4)) ∧
      (∀ g ∈ (base.setFollows (follows 4)).tbk.follows, ¬(g.origin = 9 ∧ g.port = 11)) ∧ 4 ≤ (follows 4).length) ∧
    (received .a (rx [8, 64, 11, 1]) (base.setFollows [follower 11]) ∧ (follower 11).origin = 9 ∧
      (follower 11).port = 11) ∧
    readFollowBody [8, 64, 11, 0] = some (7, 64, 11, false) := by and_intros <;> decide +kernel

/-- A ring of port 3 of station 9 for port 0, on circuit 31. -/
def ringBody : List Byte := [9, 3, 17, 0, 31, 0]

def ring : CallBody := { caller := (9, 3), callee := (17, 0), circuit := 14, reason := .cleared }

/-- What the ring meets at port 0 with a record. -/
abbrev Rings (r : TbPort) (s : State) : Prop :=
  received .a (rx ringBody) s ∧ readCallBody false ringBody = some ring ∧ (rx ringBody).origin.toNat = ring.caller.1 ∧
    ring.callee = (s.station, (0 : Fin 12).val) ∧ s.tbPort 0 = some r ∧ s.slotOf 0 = none ∧ s.idleSlot = some 0 ∧
    s.concerned 9 ring = none ∧ s.glareSlot ring = none ∧ s.tbk.circuits[ring.circuit] = none

def answering (m : AnswerMode) : TbPort := { panel with answer := m }

/-- Port 0's call in slot 3 with port 3 of station 9, on circuit 31. -/
def callRec (state : CallState) (caller : Bool) : CallRec :=
  { state, caller, port := 0, peer := (9, 3), circuit := 14, ringTimer := none, keepTimer := none, callExpiry := none }
def calling (c : CallRec) : State :=
  (base.setCall 3 (some c)).setCircuit 14 (some { caller := c.callerOf 17, expiry := 100 })

/-- The call bulletins that station 9 sends about it. -/
def callRx (caller : Bool) (reason : Byte) : Rx :=
  rx (if caller then [17, 0, 9, 3, 31, reason] else [9, 3, 17, 0, 31, reason])
def callBody (caller : Bool) (reason : EndReason) : CallBody :=
  { caller := if caller then (17, 0) else (9, 3), callee := if caller then (9, 3) else (17, 0), circuit := 14, reason }

/-- What every bulletin about such a call meets. -/
abbrev Concerns (c : CallRec) : Prop :=
  let b := callBody c.caller .cleared
  let s := calling c
  received .a (callRx c.caller 1) s ∧ readCallBody false (callRx c.caller 1).body = some b ∧
    ((callRx c.caller 1).origin.toNat = b.caller.1 ∨ (callRx c.caller 1).origin.toNat = b.callee.1) ∧
    b.caller.1 ≠ b.callee.1 ∧ s.concerned 9 b = some 3 ∧ s.call 3 = some c

/-- Port 0 in a call with another station. -/
def occupied : State := base.setCall 3 (some { callRec .connected true with peer := (40, 1) })

theorem witness_NewRingTakesASlot :
    (Rings panel joining ∧ joining.phase ≠ .active) ∧ (Rings panel base ∧ base.phase = .active ∧ panel.answer = .manual) ∧
    (Rings (answering .auto) (base.setTbPort 0 (answering .auto)) ∧ (answering .auto).answer = .auto) ∧
    (Rings (answering .reject) (base.setTbPort 0 (answering .reject)) ∧ (answering .reject).answer = .reject) ∧
    (base.biu.queue.length < 16 ∧ base.tbPort 11 = none ∧ readCallBody false [9, 3, 17, 11, 31, 0] =
      some { ring with callee := (17, 11) } ∧ base.concerned 9 { ring with callee := (17, 11) } = none ∧
      base.glareSlot { ring with callee := (17, 11) } = none) ∧
    ((occupied.slotOf 0).isSome = true ∧ received .a (rx ringBody) occupied ∧ occupied.concerned 9 ring = none ∧
      occupied.glareSlot ring = none) := by and_intros <;> decide +kernel

theorem witness_AnswersAndKeepsConnect :
    Concerns (callRec .ringingOut true) ∧ Concerns (callRec .connected true) ∧ Concerns (callRec .connected false) ∧
    Concerns (callRec .ringingIn false) ∧
    (calling (callRec .ringingOut true)).tbk.circuits[(14 : Fin 15)].all
      (fun u => u.caller == (callBody true .cleared).caller) = true ∧
    ∀ j : Fin 4, j ≠ 3 → (calling (callRec .ringingOut true)).call j = none := by decide +kernel

theorem witness_CallEndFreesSlotAndCircuit :
    Concerns (callRec .connected true) ∧
    readCallBody true (callRx true 1).body = some (callBody true .cleared) ∧
    readCallBody true (callRx true 5).body = some (callBody true .noCircuit) ∧ EndReason.noCircuit ≠ .cleared ∧
    (calling (callRec .connected true)).tbk.circuits[(14 : Fin 15)] = some { caller := (17, 0), expiry := 100 } ∧
    (calling (callRec .connected true)).tbPort 0 = some panel ∧ panel.callLamp.isSome = true := by decide +kernel

/-- The station with this many recent tasks, the first of them a READ_LINK with the tag of `tx`. -/
def recently (n : Nat) : State :=
  { base with mgmt := { base.mgmt with
      recent := (List.range n).map fun k => { origin := 9, tag := 5 + k, code := 2, expiry := 1000000 } } }

theorem witness_TasksAreTakenOnce :
    (∀ c ∈ TaskCode.all, tasked c .a (tx []) base) ∧
    (tasked .readStation .a (tx []) (recently 7) ∧ (recently 7).mgmt.recent.length < 8) ∧
    (tasked .readStation .a (tx []) (recently 8) ∧ (recently 8).mgmt.recent.length = 8) ∧
    ((recently 1).phase = .active ∧ heard .a (TaskRx.rx .readLink (tx [])) (recently 1) ∧ (tx []).target ≠ 0 ∧
      (tx []).target.toNat = (recently 1).station ∧ (recently 1).isCopy (task .readLink (tx [])) = true) ∧
    (joining.phase ≠ .active ∧ heard .a (TaskRx.rx .restart (tx [])) joining) ∧
    (let r : Rx := { rx [5, 0x11] with target := 17 }
     heard .a r base ∧ r.target ≠ 0 ∧ r.target.toNat = base.station ∧ r.body = 5 :: 0x11 :: [] ∧
       TaskCode.ofCode 0x11 = none ∧
       base.isCopy { origin := 9, tag := 5, code := 0x11, params := [] } = false ∧ base.biu.queue.length < 16) ∧
    (heard .a (TaskRx.rx .restart { tx [] with target := 0 }) base ∧ { tx [] with target := 0 }.target = 0 ∧
      noneArmed base) ∧
    (heard .a (rx [5]) base ∧ (rx [5]).body.length < 2) ∧ (heard .a (rx [5, 0x11]) joining ∧ joining.phase ≠ .active) ∧
    heard .a (rx [5, 0x11]) base ∧ (rx [5, 0x11]).target = 0 := by and_intros <;> decide +kernel

theorem witness_ReadingTasksAnswerWithData :
    tasked .readStation .a (tx []) base ∧
    (tasked .readLink .a (tx [0]) base ∧ fin8 8 [0] 0 = some 0 ∧ base.link 0 = some up) ∧
    (tasked .readPlan .a (tx [111, 3]) base ∧ ranged 0 111 [111, 3] 0 = some 111 ∧ ranged 1 3 [111, 3] 1 = some 3) ∧
    (tasked .readTally .a (tx [1]) base ∧ flagAt [1] 0 = some true ∧ flagAt [0] 0 = some false) ∧
    (tasked .readLine .a (tx [15, 31, 7]) base ∧ fin8 16 [15, 31, 7] 0 = some 15 ∧ ranged 0 31 [15, 31, 7] 1 = some 31 ∧
      ranged 1 7 [15, 31, 7] 2 = some 7) ∧ base.biu.queue.length < 16 := by decide +kernel

theorem witness_CounterAndCaptureTasks :
    (tasked .readCounters .a (tx [0, 8]) base ∧ ranged 0 7 [0, 8] 0 = some 0 ∧ ranged 1 8 [0, 8] 1 = some 8 ∧ 0 + 8 ≤ 8) ∧
    (tasked .setCounter .a (tx [7, 3, 0xFF, 0xFF, 1]) base ∧ fin8 8 [7, 3, 0xFF, 0xFF, 1] 0 = some 7 ∧
      u16 [7, 3, 0xFF, 0xFF, 1] 2 = some 65535 ∧ ranged 0 1 [7, 3, 0xFF, 0xFF, 1] 4 = some 1 ∧
      base.biu.queue.length < 16 ∧ (∀ i : Fin 4, base.mgmt.rules[i].mode = .off) ∧
      (3 : Byte).getLsbD 0 = true ∧ (3 : Byte).getLsbD 1 = true ∧ (0 : Byte).getLsbD 0 = false) ∧
    (∀ mode ∈ [CaptureMode.off, .once, .count],
      let params : List Byte := [3, 0x10, 0xFF, 127, 127, 0, 0, 0, 0, byte mode.code]
      tasked .armCapture .a (tx params) base ∧ fin8 4 params 0 = some 3 ∧
        (u8 params 9).bind CaptureMode.ofCode = some mode ∧ (readKeyParams params 9 mode).isSome = true) ∧
    (tasked .readCapture .a (tx [3, 1]) base ∧ fin8 4 [3, 1] 0 = some 3 ∧ flagAt [3, 1] 1 = some true ∧
      flagAt [3, 0] 1 = some false) ∧
    (base.isBridge = false ∧ noneArmed base ∧ (1 : Byte).getLsbD 1 = false) ∧
    (let once (m : CaptureMode) := base.setRule 3 { CaptureRule.reset with mode := m, requester := some 9 }
     let off : TaskRx := tx [3, 0, 0, 0, 0, 0, 0, 0, 0, 0]
     (∀ m ∈ [CaptureMode.once, .count], tasked .armCapture .a off (once m) ∧
       (once m).mgmt.rules[(3 : Fin 4)].hitBy ((TaskRx.rx .armCapture off).bulletin .task) = true) ∧
     makesCapture .armCapture off (once .once) 3 = true ∧ makesCapture .armCapture off (once .count) 3 = false ∧
     base.mgmt.rules[(3 : Fin 4)].hitBy ((TaskRx.rx .armCapture off).bulletin .task) = false ∧
     base.mgmt.rules[(0 : Fin 4)].hitBy ((TaskRx.rx .readCapture (tx [3, 1])).bulletin .task) = false) := by
  and_intros <;> decide +kernel

/-- Link 0 moving, its relocation in CLAIMING. -/
def moving : State := relocating .claiming

theorem witness_LinkSettingTasks :
    (tasked .setClass .a (tx [0, 3]) base ∧ fin8 8 [0, 3] 0 = some 0 ∧ base.link 0 = some up ∧
      ranged 0 3 [0, 3] 1 = some 3 ∧ base.biu.queue.length < 16) ∧
    (tasked .setSample .a (tx [0, 3, 0xE8]) base ∧ u16 [0, 3, 0xE8] 1 = some 1000 ∧ u16 [0, 0, 50] 1 = some 50 ∧
      up.reloc = none) ∧
    (tasked .setSample .a (tx [0, 3, 0xE8]) moving ∧ (moving.link 0).all (fun y => y.reloc.isSome) = true ∧
      (moving.link 0).isSome = true) ∧
    (tasked .unpinLink .a (tx [0]) base ∧ fin8 8 [0] 0 = some 0 ∧ up.pinned = false) ∧
    (∀ c ∈ [TaskCode.setClass, .setSample, .unpinLink, .readLink], tasked c .a (tx [7]) base) ∧ fin8 8 [7] 0 = some 7 ∧
      base.link 7 = none := by decide +kernel

def overfull : State := { base with plan := { base.plan with overfull := true, overfullTimer := some 9 } }

def pin : List Byte := [0, 1, 1, 0xC8, 1, 0xE7]
def narrow : Span := { span1 with high := 456 }

theorem witness_LongTasksStartRelocations :
    (tasked .pinLink .a (tx pin) base ∧ spanAt pin 1 = some span1 ∧ fin8 8 pin 0 = some 0 ∧ base.link 0 = some up ∧
      span1.band = up.desc.band ∧ Span.width span1 = up.desc.width ∧ base.mgmt.longTask = none ∧ up.reloc = none) ∧
    (tasked .pinLink .a (tx [0, 1, 1, 0xC8, 1, 0xC8]) base ∧
      spanAt [0, 1, 1, 0xC8, 1, 0xC8] 1 = some narrow ∧
      Span.width narrow ≠ up.desc.width) ∧
    (tasked .pinLink .a (tx pin) moving ∧ (moving.link 0).any (fun y => y.reloc.isSome) = true) ∧
    (tasked .pinLink .a (tx pin) overfull ∧ overfull.plan.overfull = true ∧ overfull.link 0 = some up) ∧
    (tasked .moveLink .a (tx [0, 1]) overfull ∧ flagAt [0, 1] 1 = some true ∧ up.state = .up ∧ up.pinned = false ∧
      overfull.tally.onAir[(0 : Fin 8)] = false ∧ overfull.mgmt.longTask = none) ∧
    tasked .moveLink .a (tx [0, 1]) moving ∧ tasked .moveLink .a (tx [0, 1]) pinned ∧
      (pinned.link 0).any (fun y => y.pinned && y.reloc.isNone) = true := by and_intros <;> decide +kernel

theorem witness_SearchAnswerIsClaimed :
    let s := owning held
    let sp : Span := { band := .b, low := 432, high := 463 }
    (s.Inv ∧ ∀ (j : Fin 16) (o : OwnEntry), s.ownEntry j = some o → o.link = 0 → o.standing = .held) ∧
    tasked .moveLink .a (tx [0, 0]) s ∧ fin8 8 [0, 0] 0 = some 0 ∧ flagAt [0, 0] 1 = some false ∧
    s.link 0 = some up ∧ s.mgmt.longTask = none ∧ up.reloc = none ∧ up.state = .up ∧ up.pinned = false ∧
    s.tally.onAir[(0 : Fin 8)] = false ∧ s.searchStart up.desc up.pointer [] = .span sp ∧
    (s.owns.filter fun o => o.link == 0).length ≤ 1 ∧ s.emptyOwn = some 1 ∧ s.biu.queue.length < 16 :=
  ⟨⟨held_inv, of_slot_0 (by decide +kernel) (of_some (a := held) (by decide +kernel) (by decide +kernel))⟩,
   by decide +kernel⟩

/-- Panel port 0 with memberships of this many lines. -/
def joined (n : Nat) : TbPort :=
  { panel with members := (List.finRange 4).take n |>.map fun k => { line := k.castLE (by omega), listen := true, talk := true } }

theorem witness_MembershipTasks :
    let s (n : Nat) := base.setTbPort 0 (joined n)
    (tasked .setMembership .a (tx [0, 15, 3]) (s 3) ∧ fin8 12 [0, 15, 3] 0 = some 0 ∧ fin8 16 [0, 15, 3] 1 = some 15 ∧
      (3 : Byte).getLsbD 0 = true ∧ (3 : Byte).getLsbD 2 = false ∧ (s 3).tbPort 0 = some (joined 3) ∧
      (joined 3).member 15 = none ∧ (joined 3).members.length < 4 ∧ (joined 3).members ≠ [] ∧
      ((s 3).line 15).roster.length < 32) ∧
    (tasked .setMembership .a (tx [0, 2, 4]) (s 3) ∧ (4 : Byte).getLsbD 2 = true ∧ ((joined 3).member 2).isSome = true) ∧
    (tasked .setMembership .a (tx [0, 15, 3]) (s 4) ∧ (s 4).tbPort 0 = some (joined 4) ∧ (joined 4).member 15 = none ∧
      4 ≤ (joined 4).members.length) ∧
    tasked .setMembership .a (tx [11, 15, 3]) base ∧ fin8 12 [11, 15, 3] 0 = some 11 ∧ base.tbPort 11 = none := by
  decide +kernel

theorem witness_OverlapIsOneSharedChannel :
    span0.low ≤ span0.high ∧ span1.low ≤ span1.high ∧ overlaps span0 { span0 with low := 431, high := 462 } = true := by
  decide +kernel

theorem witness_MapRulesMatchByLayerInputAndState :
    MapRule.unused.onPreview = false ∧ MapRule.unused.onProgram = false := by decide +kernel

theorem witness_ConflictsAndRanksAreDecided :
    let x : Rank := { cls := 7, held := true, holder := 1, link := 0 }
    let y : Rank := { cls := 7, held := false, holder := 1, link := 0 }
    let z : Rank := { cls := 7, held := false, holder := 1, link := 1 }
    span0.low ≤ span0.high ∧ span1.low ≤ span1.high ∧ x ≠ y ∧ x.outranks y = true ∧ y.outranks z = true := by
  decide +kernel

theorem witness_SearchAnswersAnAcceptableSpan :
    (1 ≤ desc.width ∧ 1 ≤ desc.step ∧ desc.winLow ≤ 669 ∧ 669 + desc.width ≤ desc.winHigh + 1) ∧
    base.searchStart desc 669 [] = .span { band := .b, low := 669, high := 700 } ∧ base.plan.overfull = false ∧
    (669 + 0 * desc.step + desc.width ≤ desc.winHigh + 1 ∧
      base.acceptable [] (candidateAt desc (669 + 0 * desc.step)) = true) ∧
    desc.winLow + 33 * desc.step < 669 ∧ desc.winLow + 33 * desc.step + desc.width ≤ desc.winHigh + 1 ∧
    base.acceptable [] (candidateAt desc (desc.winLow + 33 * desc.step)) = true := by decide +kernel

theorem witness_EntriesGoAtTheirExpiry :
    (base.setOrigin 126 (some { port := .a, expiry := 5 })).biu.origins[(126 : Fin 127)] =
      some { port := .a, expiry := 5 } ∧
    ((quarantined 1).plan.quarantine.find? (fun q => q.span == { band := .a, low := 0, high := 0 })).isSome = true ∧
    ((base.setFilter .b [{ origin := 9, span := span0, severity := 15, expiry := 7 }]).copyEntry 9 span0 15).isSome =
      true ∧
    (base.setFollows [follower 11]).tbk.follows.find? (fun f => f.origin == 9 && f.port == 11) = some (follower 11) ∧
    (base.setCircuit 14 (some { caller := (9, 3), expiry := 5 })).tbk.circuits[(14 : Fin 15)] =
      some { caller := (9, 3), expiry := 5 } ∧
    ((recently 1).mgmt.recent.find? (fun r => r.origin == 9 && r.tag == 5 && r.code == 2)).isSome = true ∧
    (base.setTbPort 0 { panel with indication := some 6 }).tbPort 0 = some { panel with indication := some 6 } ∧
    base.biu.origins[(126 : Fin 127)] = none ∧ base.tbk.circuits[(14 : Fin 15)] = none ∧
    base.plan.quarantine.find? (fun q => q.span == span0) = none := by decide +kernel

theorem witness_RosterAndReplicaTimers :
    ({ base with biu := { base.biu with presenceTimer := some 1000000 } }.biu.presenceTimer = some 1000000 ∧
      base.phase = .active ∧ base.biu.queue.length < 16) ∧
    ((base.setRoster 9 (some { serial := 1, expiry := 5 })).biu.roster[(9 : Fin 127)] =
      some { serial := 1, expiry := 5 } ∧ (calling (callRec .connected true)).call 3 = some (callRec .connected true) ∧
      (callRec .connected true).peer.1 = (9 : Fin 127).val ∧
      (base.call 0).all (fun c => c.peer.1 != (9 : Fin 127).val) = true) ∧
    (peers 96).plan.peers[(95 : Fin 96)] = some (peer 30 5 95) ∧ overfull.plan.overfullTimer = some 9 ∧
    (overfull.reloc 0).all (fun r => r.phase != .waiting) = true := by decide +kernel

/-- A queue of this many URGENT entries. -/
def queued (n : Nat) (s : State) : State :=
  { s with biu := { s.biu with queue := (List.range n).map (fun k => entry true k .none), nextAge := n } }

def waiting15 : State := queued 15 (owning { tentative with window := some 20000 })
def refused16 : State := queued 16 (owning { tentative with window := some 20000, failures := 1 })

theorem witness_ClaimTimers :
    (waiting15.phase = .active ∧ waiting15.ownEntry 0 = some { tentative with window := some 20000 } ∧
      tentative.standing = .tentative ∧ tentative.sent = false ∧ waiting15.biu.queue.length < 16) ∧
    (refused16.ownEntry 0 = some { tentative with window := some 20000, failures := 1 } ∧
      refused16.biu.queue.length = 16 ∧
      ∀ q ∈ refused16.biu.queue, q.urgent = true ∧ q.key ≠ some (.plan .planClaim tentative.link tentative.span)) ∧
    (owning { tentative with refresh := some 7 }).ownEntry 0 = some { tentative with refresh := some 7 } ∧
    (owning { tentative with sent := true, window := some 7, pendingYield := [(9, 2)] }).ownEntry 0 =
      some { tentative with sent := true, window := some 7, pendingYield := [(9, 2)] } := by decide +kernel

/-- Link 0 with a window that ends here, a relocation, its one own entry in slot 0, and this many URGENT entries queued. -/
def windowed (high : Nat) (e : OwnEntry) (r : Option Reloc) (n : Nat) : State :=
  queued n ((base.setLink 0 { up with desc := { desc with winHigh := high }, reloc := r }).setOwn 0 (some e))

/-- A preempted link searches: it finds a span, finds none, or the replica is overfull. -/
theorem witness_OwnEntriesMeetClaimsAndHolds_preempted :
    let s (high : Nat) := windowed high held none 14
    let full := overfull.setOwn 0 (some held)
    ((s 700).Inv ∧ (s 431).Inv ∧ full.Inv) ∧
    (∀ (j : Fin 16) (o : OwnEntry), j ≠ 0 → (s 700).ownEntry j = some o →
      o.standing = .yielding ∨ apart (s 700) o (planRx 7) (claimed 7)) ∧
    (∀ h ∈ [700, 431], received .a (planRx 7) (s h) ∧ (s h).ownEntry 0 = some held ∧
      (s h).conflicts held.span (claimed 7).span = true ∧ ((claimed 7).rank false 9).outranks (held.rank (s h)) = true ∧
      (s h).link 0 = some { up with desc := { desc with winHigh := h } } ∧ (s h).biu.queue.length < 15) ∧
    (up.reloc = none ∧ up.current = some held.span ∧ up.pinned = false ∧ held.span.low ≤ held.span.high) ∧
    ((afterPreemption false (planRx 7) (claimed 7) 0 held (s 700)).searchStart desc up.pointer [] =
        .span { band := .b, low := 432, high := 463 } ∧
      (afterPreemption false (planRx 7) (claimed 7) 0 held (s 700)).emptyOwn = some 1) ∧
    (afterPreemption false (planRx 7) (claimed 7) 0 held (s 431)).searchStart { desc with winHigh := 431 } up.pointer [] =
      .none ∧
    (received .a (planRx 7) full ∧ full.ownEntry 0 = some held ∧ full.link 0 = some up ∧
      (afterPreemption false (planRx 7) (claimed 7) 0 held full).plan.overfull = true) :=
  ⟨⟨inv_active (by decide +kernel) (by decide +kernel) rfl, inv_active (by decide +kernel) (by decide +kernel) rfl,
    inv_active (by decide +kernel) (by decide +kernel) rfl⟩, no_other (by decide +kernel), by decide +kernel⟩

/-- A lost claim searches again: it finds a span, finds none, or is a pin. -/
theorem witness_OwnEntriesMeetClaimsAndHolds_lost :
    let r (cause : Cause) : Reloc := { waiting cause up (some span1) false false with
      phase := .claiming, attempts := 2, excluded := [span0] }
    let s (high : Nat) (cause : Cause) := windowed high tentative (some (r cause)) 14
    ((s 700 .lost).Inv ∧ (s 431 .lost).Inv ∧ (s 700 .taskPin).Inv) ∧
    (∀ (j : Fin 16) (o : OwnEntry), j ≠ 0 → (s 700 .lost).ownEntry j = some o →
      apart (s 700 .lost) o (rivalRx 7) (rival 7)) ∧
    (∀ h ∈ [700, 431], ∀ c ∈ [Cause.lost, .taskPin], received .a (rivalRx 7) (s h c) ∧
      (s h c).ownEntry 0 = some tentative ∧ (s h c).conflicts tentative.span (rival 7).span = true ∧
      ((rival 7).rank true 9).outranks (tentative.rank (s h c)) = true ∧
      (s h c).link 0 = some { up with desc := { desc with winHigh := h }, reloc := some (r c) } ∧
      (s h c).biu.queue.length < 15 ∧ (s h c).effectiveClass 0 = tentative.cls) ∧
    ((r .lost).phase = .claiming ∧ (r .lost).cand = some tentative.span ∧ (r .lost).attempts + 1 < 4 ∧
      (r .lost).cause ≠ .taskPin ∧ (r .taskPin).cause = .taskPin ∧ (9, 2) ∉ tentative.pendingYield) ∧
    ((afterLoss true (rivalRx 7) (rival 7) 0 (s 700 .lost)).searchStart desc up.pointer [span0, span1] =
        .span { band := .b, low := 408, high := 439 } ∧
      (afterLoss true (rivalRx 7) (rival 7) 0 (s 700 .lost)).emptyOwn = some 0) ∧
    (afterLoss true (rivalRx 7) (rival 7) 0 (s 431 .lost)).searchStart { desc with winHigh := 431 } up.pointer
      [span0, span1] = .none ∧
    (afterLoss true (rivalRx 7) (rival 7) 0 (s 700 .taskPin)).plan.overfull = false :=
  ⟨⟨inv_active (by decide +kernel) (by decide +kernel) rfl, inv_active (by decide +kernel) (by decide +kernel) rfl,
    inv_active (by decide +kernel) (by decide +kernel) rfl⟩, no_other (by decide +kernel), by decide +kernel⟩

/-- A relocation of link 0 from span0 to span1. -/
def reloc (ph : RelocPhase) : Reloc := { waiting .taskMove up (some span1) false false with phase := ph }

/-- Link 0 in CLAIMING for span1 with its own entry in slot 0. -/
def claiming (e : OwnEntry) : State := (relocating .claiming).setOwn 0 (some e)

/-- What its claim meets, but for the timer. -/
abbrev Claims (e : OwnEntry) : Prop :=
  let x : LinkRec := { up with reloc := some (reloc .claiming) }
  let s := claiming e
  s.phase = .active ∧ s.ownEntry 0 = some e ∧ e.standing = .tentative ∧ s.link e.link = some x ∧
    (reloc .claiming).phase = .claiming ∧ (reloc .claiming).cand = some e.span ∧ x.tuneInFlight = false ∧
    s.rport.fe[x.desc.frontEnd].state = .muted

def yielding : OwnEntry := { held with standing := .yielding, refresh := none, allowance := some 2000000 }

/-- A claim of link 0 whose window is to end, with the old entry YIELDING in slot 15 and the front-end being tuned. -/
def restoring : State :=
  (((relocating .claiming).setOwn 0 (some { tentative with sent := true, window := some 250000 })).setOwn 15 (some yielding)
    ).modLink 0 (fun x => { x with tuneInFlight := true })

/-- What is to decide of a YIELDING entry's being the one of its link, the entries standing in slots 0 and 15. -/
theorem yieldingAt_of {s : State} (h15 : s.ownEntry 15 = some yielding)
    (h : ∀ j : Fin 16, j ≠ 15 → (s.ownEntry j).all (fun o => o.standing != .yielding) = true) : yieldingAt 15 yielding 0 s :=
  ⟨h15, rfl, rfl, fun j o hj ho _ hy => by
    have := h j hj
    rw [ho] at this
    simp [hy] at this⟩

theorem witness_HeldClaimIsTuned :
    Claims { tentative with sent := true, window := some 250000 } ∧ tentative.pendingYield = [] ∧
    Claims { tentative with sent := true, pendingYield := [(9, 2)], allowance := some 2000000 } := by decide +kernel

theorem witness_HeldClaimIsTuned_restore :
    let e : OwnEntry := { tentative with sent := true, window := some 250000 }
    let s := (restoring.setFe 0 { FrontEnd.reset with state := .tuning span0 })
    (s.phase = .active ∧ s.ownEntry 0 = some e ∧ (∃ x r, s.link e.link = some x ∧ x.reloc = some r ∧ r.phase = .claiming ∧
      r.cand = some e.span ∧ x.tuneInFlight = true) ∧ s.biu.queue.length < 15) ∧ yieldingAt 15 yielding e.link s ∧
      s.rport.fe[(0 : Fin 8)].state = .tuning span0 :=
  ⟨⟨by decide +kernel, by decide +kernel, ⟨_, _, rfl, rfl, by decide +kernel⟩, by decide +kernel⟩,
    yieldingAt_of (by decide +kernel) (by decide +kernel), by decide +kernel⟩

/-- The muted restore tune yields the old entry at once: slot 15 is empty, and the link has no current span. -/
theorem test_muted_restore_yields :
    let t := (restoring.setFe 0 { FrontEnd.reset with state := .tuning span0 }).closeWindow 0
    (State.withNews t).plan.own[(15 : Fin 16)] = none ∧ ((State.withNews t).link 0).bind (·.current) = none ∧
      (State.withNews t).rport.fe[(0 : Fin 8)].state = .tuning span1 ∧
      (State.withNews t).biu.queue.map (·.bulletin.kind) = [0x11, 0x12] := by decide +kernel

def defending (owed : Bool) : OwnEntry := { held with defend := some 100000, owed }

theorem witness_HeldEntryTimers :
    ((owning held).phase = .active ∧ (owning held).ownEntry 0 = some held ∧ held.standing = .held ∧
      held.refresh = some 2000000 ∧ (owning held).biu.queue.length < 16) ∧
    ((owning (defending true)).ownEntry 0 = some (defending true) ∧ (defending true).standing = .held ∧
      (defending true).owed = true) ∧
    (owning (defending false)).ownEntry 0 = some (defending false) ∧
    ((owning yielding).setLink 0 { up with pinned := true }).Inv ∧
    ((owning yielding).setLink 0 { up with pinned := true }).ownEntry 0 = some yielding ∧
    yielding.span.low ≤ yielding.span.high ∧
    ((owning yielding).setLink 0 { up with pinned := true }).link yielding.link = some { up with pinned := true } ∧ up.reloc = none ∧
    (overfull.setOwn 0 (some yielding)).Inv ∧ (overfull.setOwn 0 (some yielding)).ownEntry 0 = some yielding ∧
    (overfull.setOwn 0 (some yielding)).link yielding.link = some up ∧ up.state = .up ∧ up.current = some yielding.span ∧
    up.pinned = false ∧ (overfull.setOwn 0 (some yielding)).phase = .active ∧
    (overfull.setOwn 0 (some yielding)).plan.overfull = true :=
  ⟨by decide +kernel, by decide +kernel, by decide +kernel, inv_active (by decide +kernel) (by decide +kernel) rfl,
   by decide +kernel, by decide +kernel, by decide +kernel, by decide +kernel,
   inv_active (by decide +kernel) (by decide +kernel) rfl, by decide +kernel⟩

/-- Front-end 0 awaits the outcome of tune 255, its frame sent or being sent. -/
def tuning (sent : Bool) (s : State) : State :=
  let s := s.setFe 0 { FrontEnd.reset with
    state := .tuning span1, sent, tuneNo := 255, tuneTimer := if sent then some 1500000 else none }
  if sent then s else { s with rport := { s.rport with sending := some { addr := 0, kind := .tune span1 255 } } }

theorem witness_RadioLineAndTunes :
    let lamp : RadioCmd := { addr := 7, kind := .lamp .red }
    base.rport.sending = none ∧
    ({ base with rport := { base.rport with sending := some lamp } }.rport.sending = some lamp ∧
      ∀ (sp : Span) (n : Nat), lamp.kind = .tune sp n → ¬awaits base.rport.fe[lamp.addr] false n) ∧
    ((tuning false base).rport.sending = some { addr := 0, kind := .tune span1 255 } ∧
      awaits (tuning false base).rport.fe[(0 : Fin 8)] false 255) ∧
    ¬awaits base.rport.fe[(0 : Fin 8)] true (255 : Byte).toNat ∧
    (awaits (tuning true base).rport.fe[(0 : Fin 8)] true (255 : Byte).toNat ∧
      (tuning true base).rport.fe[(0 : Fin 8)].state = .tuning span1 ∧
      (∀ l : Fin 8, (tuning true base).linkOf 0 = some l → (tuning true base).reloc l = none) ∧
      (∀ i : Fin 16, (tuning true base).ownEntry i = none) ∧ base.rport.fe[(0 : Fin 8)].tuneTimer = none ∧
      (tuning true base).linkOf 0 = some 0 ∧ (tuning true base).rport.fe[(0 : Fin 8)].tuneTimer = some 1500000) ∧
    base.resetHeld = false := by
  have muted : base.rport.fe[(0 : Fin 8)].state = .muted := by decide +kernel
  refine ⟨by decide +kernel, ⟨by decide +kernel, fun sp n h => by cases h⟩,
    ⟨by decide +kernel, ⟨span1, by decide +kernel⟩, by decide +kernel⟩, fun h => ?_,
    ⟨⟨⟨span1, by decide +kernel⟩, by decide +kernel⟩, by decide +kernel⟩, by decide +kernel⟩
  obtain ⟨⟨sp, h⟩, _⟩ := h
  rw [muted] at h; cases h

/-- Link 0's restore tune in flight, its one entry YIELDING in slot 15. -/
def restored : State := tuning true (base.setOwn 15 (some yielding))

theorem witness_RadioLineAndTunes_restore :
    restored.Inv ∧ restored.linkOf 0 = some 0 ∧ restored.link 0 = some up ∧ up.reloc = none ∧
    yieldingAt 15 yielding 0 restored ∧ awaits restored.rport.fe[(0 : Fin 8)] true (255 : Byte).toNat ∧
    restored.rport.fe[(0 : Fin 8)].tuneTimer = some 1500000 ∧ restored.biu.queue.length < 16 :=
  ⟨inv_of 15 (by decide +kernel) (by decide +kernel) (Or.inl rfl), by decide +kernel, by decide +kernel, rfl,
    yieldingAt_of (by decide +kernel) (by decide +kernel), ⟨⟨span1, by decide +kernel⟩, by decide +kernel⟩,
    by decide +kernel, by decide +kernel⟩

/-- Link 0's relocation in a phase, its tune awaited, its old entry in slot 0, with room for its yield and no more. -/
def retuning (ph : RelocPhase) (e : OwnEntry) : State := queued 15 (tuning true ((relocating ph).setOwn 0 (some e)))

theorem witness_RadioLineAndTunes_relocation :
    let room (s : State) := s.biu.queue.length + (s.owns.filter fun e => e.link == 0).length
    (∀ ph ∈ [RelocPhase.tuning, .returning, .waiting, .claiming], ∀ e ∈ [held, yielding],
      (retuning ph e).phase = .active ∧ (retuning ph e).linkOf 0 = some 0 ∧
      (retuning ph e).link 0 = some { up with reloc := some (reloc ph) } ∧
      (retuning ph e).rport.fe[(0 : Fin 8)].state = .tuning span1 ∧
      (retuning ph e).rport.fe[(0 : Fin 8)].sent = true ∧ (retuning ph e).rport.fe[(0 : Fin 8)].tuneNo = (255 : Byte).toNat ∧
      (retuning ph e).rport.fe[(0 : Fin 8)].tuneTimer = some 1500000 ∧ room (retuning ph e) = 16) ∧
    ((reloc .tuning).old = some span0 ∧ (reloc .tuning).cand ≠ some span0 ∧ up.current = some span0 ∧
      (retuning .tuning held).ownStanding 0 span0 = some .held ∧
      (retuning .tuning yielding).ownStanding 0 span0 ≠ some .held ∧
      (retuning .returning held).ownStanding 0 span0 = some .held) ∧
    awaits (retuning .returning held).rport.fe[(0 : Fin 8)] true (255 : Byte).toNat :=
  ⟨by decide +kernel, by decide +kernel, ⟨span1, by decide +kernel⟩, by decide +kernel⟩

/-- Front-end 0 in FAULT. -/
def faulted (s : State) : State := s.setFe 0 { FrontEnd.reset with state := .fault }

theorem witness_RadioLineAndTunes_recovered :
    let off := faulted (base.setLink 0 { up with state := .acquiring })
    ((faulted (owning held)).resetHeld = false ∧ (faulted (owning held)).rport.fe[(0 : Fin 8)].state = .fault ∧
      (faulted (owning held)).phase = .active ∧ (faulted (owning held)).linkOf 0 = some 0 ∧ up.tuneInFlight = false) ∧
    restores 0 up span0 (faulted (owning held)) ∧
    (off.resetHeld = false ∧ off.rport.fe[(0 : Fin 8)].state = .fault ∧ off.linkOf 0 = some 0) ∧
    (∀ (l : Fin 8) (x : LinkRec) (sp : Span), off.linkOf 0 = some l → ¬restores l x sp off) ∧
    State.reset.resetHeld = true := by
  refine ⟨by decide +kernel, ⟨by decide +kernel, Or.inl rfl, rfl, by decide +kernel, of_none rfl⟩, by decide +kernel,
    fun l x sp h ⟨hx, hs, _⟩ => ?_, rfl⟩
  have h0 : (faulted (base.setLink 0 { up with state := .acquiring })).linkOf 0 = some 0 := by decide +kernel
  rw [h0] at h
  cases h
  have hl : (faulted (base.setLink 0 { up with state := .acquiring })).link 0 = some { up with state := .acquiring } := by
    decide +kernel
  rw [hl] at hx
  cases hx
  exact absurd hs (by decide)

/-- The lost restore tune yields the entry: the link has no current span, and the yield waits. -/
theorem test_lost_restore_yields :
    let t := restored.tuneTimedOut 0
    t.plan.own[(15 : Fin 16)] = none ∧ (t.link 0).bind (·.current) = none ∧
      t.biu.queue.map (·.bulletin.kind) = [0x12] := by decide +kernel

/-- One hold preempts the candidate being tuned and the old entry behind it: the mute yields both, each with its yield. -/
theorem test_both_preempted_yield :
    let s := tuning true (((relocating .tuning).setOwn 0 (some { held with span := span1 })).setOwn 15 (some held))
    let t := State.withNews (s.planArrival true 9 { span := { span0 with high := span1.high }, link := 2, cls := 7, hold := 20 } 15)
    (∀ i : Fin 16, (t.ownEntry i).all (fun e => e.standing == .tentative) = true) ∧ (t.link 0).bind (·.current) = none ∧
      (t.biu.queue.filter fun e => e.bulletin.kind == 0x12).map (·.bulletin.body) =
        [Span.bytes span1 ++ [0], Span.bytes span0 ++ [0]] := by decide +kernel

theorem witness_TunedCandidateIsCutOver :
    let s := tuning true ((relocating .tuning).setOwn 0 (some held))
    awaits s.rport.fe[(0 : Fin 8)] true (255 : Byte).toNat ∧ s.rport.fe[(0 : Fin 8)].state = .tuning span1 ∧
    s.linkOf 0 = some 0 ∧ s.link 0 = some { up with reloc := some (reloc .tuning) } ∧
    (reloc .tuning).phase = .tuning ∧ (reloc .tuning).cand = some span1 ∧ (reloc .tuning).old = some span0 ∧
    s.ownSlot 0 span0 = some 0 ∧ span0 ≠ span1 ∧ { reloc .tuning with old := some span1 }.old = some span1 :=
  ⟨⟨⟨span1, by decide +kernel⟩, by decide +kernel⟩, by decide +kernel⟩

/-- Link 0 with a record and a mailbox. -/
def sampling (x : LinkRec) (m : Option Report) (fresh : Bool) : State :=
  (base.setLink 0 x).setFe 0 { FrontEnd.reset with mailbox := m, fresh }

theorem witness_SamplesFollowTheLink :
    let good : Report := { lock := true, quality := 6, keys := 0, fault := false }
    let predicted : LinkRec := { up with
      prediction := some { localIx := 0, globalIx := 0, localFade := false, globalFade := false, fade := false },
      relocHoldOff := some 9 }
    let losing : LinkRec := { up with pinned := true, unlocked := 2 }
    (base.setLink 0 { up with tuneInFlight := true }).link 0 = some { up with tuneInFlight := true } ∧
    (up.sampleTimer = some 100000 ∧ predicted.sampleTimer = some 100000 ∧ predicted.tuneInFlight = false ∧
      predicted.state = .up ∧ predicted.announcedBad = false ∧ 1 ≤ predicted.desc.lossSamples ∧
      predicted.relocHoldOff ≠ none ∧ (sampling predicted (some good) true).link 0 = some predicted ∧
      (sampling predicted (some good) true).rport.fe[predicted.desc.frontEnd].mailbox = some good ∧
      (sampling predicted (some good) true).rport.fe[predicted.desc.frontEnd].fresh = true ∧ good.lock = true ∧
      predicted.desc.badThreshold ≤ good.quality) ∧
    ((sampling losing none false).link 0 = some losing ∧ losing.state = .up ∧ losing.pinned = true ∧
      losing.desc.lossSamples ≤ min 255 (losing.unlocked + 1) ∧
      (sampling losing none false).rport.fe[losing.desc.frontEnd].fresh = false) := by decide +kernel

/-- A locked report of a quality. -/
def locked (quality : Nat) : Report := { lock := true, quality, keys := 0, fault := false }

/-- Predictors whose next prediction is FADE. -/
def fading (s : State) : State := { s with lsup := { s.lsup with localTable := Vector.replicate 256 2 } }

/-- A counted sample that starts no relocation: it issues a sighting, finds the hold-off running, or recovers the link. -/
theorem witness_SamplesFollowTheLink_sighting :
    let calm : LinkRec := { up with relocHoldOff := some 9 }
    let lost : LinkRec := { up with state := .lost, announcedBad := true, unlocked := 255 }
    let dark : LinkRec := { lost with announcedBad := false, sightingHoldOff := some 9 }
    let s (x : LinkRec) (q : Nat) := queued 15 (sampling x (some (locked q)) true)
    ((s calm 5).link 0 = some calm ∧ (s calm 5).phase = .active ∧ (s calm 5).biu.queue.length < 16 ∧
      calm.sampleTimer = some 100000 ∧ calm.tuneInFlight = false ∧ sighted calm true = some span0 ∧
      10 ≥ (s calm 5).image.quarThreshold) ∧
    (samples calm true false 10 (s calm 5) ∧ startsNone 0 calm true false 10 (s calm 5)) ∧
    (samples lost false false 0 (s lost 6) ∧ startsNone 0 lost false false 0 (s lost 6)) ∧
    ((s lost 6).link 0 = some lost ∧ sighted lost false = some span0 ∧ stateAfter lost false false = .up ∧
      0 < (s lost 6).image.quarThreshold) ∧
    (samples dark true true 15 (sampling dark none true) ∧ startsNone 0 dark true true 15 (sampling dark none true)) ∧
    ((sampling dark none true).link 0 = some dark ∧ sighted dark true = none ∧ stateAfter dark true true = .lost) :=
  ⟨by decide +kernel, ⟨Or.inl ⟨locked 5, by decide +kernel⟩, Or.inr (Or.inr (Or.inr ⟨by decide, Or.inr (Or.inl (by decide))⟩))⟩,
    ⟨Or.inl ⟨locked 6, by decide +kernel⟩, Or.inr (Or.inr (Or.inr ⟨by decide, Or.inr (Or.inr (by decide +kernel))⟩))⟩,
    by decide +kernel, ⟨Or.inr (by decide +kernel), Or.inr (Or.inr (Or.inl (by decide +kernel)))⟩, by decide +kernel⟩

/-- A counted sample that starts a relocation: the loss count is reached, or the run of FADE predictions. -/
theorem witness_SamplesFollowTheLink_relocation :
    let last : LinkRec := { up with unlocked := 2 }
    let run : LinkRec := { up with fades := 1 }
    let full (s : State) : State := { s with plan := { s.plan with overfull := true } }
    (samples last true true 15 (sampling last none false) ∧ samples run false false 0 (fading (sampling run (some (locked 6)) true))) ∧
    ((sampling last none false).phase = .active ∧ (sampling last none false).link 0 = some last ∧
      last.sampleTimer = some 100000 ∧ last.pinned = false ∧ last.reloc = none ∧ last.state = .up ∧
      stateAfter last true true = .lost ∧ (full (sampling last none false)).plan.overfull = true) ∧
    ((fading (sampling run (some (locked 6)) true)).phase = .active ∧
      (fading (sampling run (some (locked 6)) true)).link 0 = some run ∧ run.tuneInFlight = false ∧
      stateAfter run false false = .up ∧ (fading (sampling run (some (locked 6)) true)).tally.onAir[(0 : Fin 8)] = false ∧
      run.relocHoldOff = none ∧
      run.desc.fadeRun = fadesAfter run false 0 (fading (sampling run (some (locked 6)) true)) ∧
      (full (fading (sampling run (some (locked 6)) true))).plan.overfull = true) :=
  ⟨⟨Or.inr (by decide +kernel), Or.inl ⟨locked 6, by decide +kernel⟩⟩, by decide +kernel, by decide +kernel⟩

theorem witness_LinkHoldOffsAndRetries :
    let lost : LinkRec := { up with state := .lost, relocHoldOff := some 9 }
    let acquiring : LinkRec := { up with state := .acquiring, acquireRetry := some 9 }
    let differs : LinkRec := { up with previousBad := true, lastSeverity := 8, sightingHoldOff := some 9 }
    (({ up with relocHoldOff := some 9 } : LinkRec).state ≠ .lost) ∧
    ((overfull.setLink 0 lost).link 0 = some lost ∧ lost.pinned = false ∧ lost.reloc = none ∧
      (overfull.setLink 0 lost).phase = .active ∧ (overfull.setLink 0 lost).plan.overfull = true) ∧
    up.announcedBad = up.previousBad ∧
    ((base.setLink 0 differs).link 0 = some differs ∧ differs.announcedBad ≠ differs.previousBad ∧ differs.state = .up ∧
      differs.current = some span0 ∧ base.image.quarThreshold ≤ differs.lastSeverity ∧ base.biu.queue.length < 16) ∧
    ((overfull.setLink 0 acquiring).link 0 = some acquiring ∧ acquiring.reloc = none) ∧
    ({ up with acquireRetry := some 9 } : LinkRec).state ≠ .acquiring := by decide +kernel

/-- Contact line 31 works input 1 of layer 1's programme bus. -/
def contactImg : Image :=
  { img with contacts := img.contacts.set 31 (some { layer := 0, input := 1, program := true }) }

def contact : State :=
  { base with
    cfg := some contactImg, pins := { contacts := 0x80000000, keys := 0 }
    tally := { base.tally with contacts := base.tally.contacts.set 31 { accepted := false, timer := some 4000 } } }

theorem witness_TallyTimersAndContacts :
    let live : Layer := { Layer.reset with state := .live, source := some 9, staleTimer := some 6 }
    let standby : Source := { standby := true, refreshTimer := some 8, published := none }
    (((base.setLayer 7 live).layer 7).staleTimer = some 6 ∧
      (base.setLayer 7 live).source 7 = none ∧ joining.phase ≠ .active ∧
      ((joining.setSource 0 (some standby)).setLayer 0 live).source 0 = some standby) ∧
    ((base.setSource 0 (some standby)).source 0 = some standby ∧ standby.standby = true ∧ base.phase = .active) ∧
    ((base.setLayer 7 { Layer.reset with state := .stale, unsetTimer := some 6 }).layer 7).unsetTimer = some 6 ∧
    (((base.setSource 0 (some { standby with standby := false })).source 0).isSome = true ∧
      base.biu.queue.length < 16 ∧ ∀ l : Fin 8, (base.setSource 0 (some standby)).reloc l = none) ∧
    (base.pins.contacts.getLsbD (31 : Fin 32) = false ∧ base.pins.contacts.getLsbD (31 : Fin 32) ≠ true ∧
      base.phase ≠ .loading ∧ base.phase ≠ .halted ∧ loading.phase = .loading) ∧
    (contact.tally.contacts[(31 : Fin 32)].timer = some 4000 ∧
      contact.tally.contacts[(31 : Fin 32)].accepted ≠ contact.pins.contacts.getLsbD (31 : Fin 32) ∧
      contact.image.contacts[(31 : Fin 32)] = some { layer := 0, input := 1, program := true } ∧
      contact.phase = .active ∧
      contact.source 0 = some { standby := false, refreshTimer := none, published := none }) ∧
    (contact.image.contacts[(0 : Fin 32)]).all (fun m => (contact.source m.layer).all fun x => x.standby) = true ∧
    (contact.image.contacts[(31 : Fin 32)]).all
      (fun m => ((contact.setSource 0 (some standby)).source m.layer).all fun x => x.standby) = true := by and_intros <;> decide +kernel

/-- Key line 15 with a function on port 0, its level about to be accepted. -/
def keyed (fn : KeyFn) (r : TbPort) (closed : Bool) : State :=
  let s := base.setTbPort 0 r
  { s with
    cfg := some { img with keys := img.keys.set 15 { port := 0, fn } }
    pins := { contacts := 0, keys := if closed then 0x8000 else 0 }
    tbk := { s.tbk with keys := s.tbk.keys.set 15 { accepted := !closed, timer := some 4000 } } }

/-- What its press or release meets. -/
abbrev Keyed (fn : KeyFn) (r : TbPort) (closed : Bool) (s : State) : Prop :=
  s.tbk.keys[(15 : Fin 16)].timer = some 4000 ∧ s.phase = .active ∧
    s.tbk.keys[(15 : Fin 16)].accepted = !closed ∧ s.pins.keys.getLsbD (15 : Fin 16) = closed ∧
    s.image.keys[(15 : Fin 16)].port = 0 ∧ s.image.keys[(15 : Fin 16)].fn = fn ∧ s.tbPort 0 = some r

def talkingPanel : TbPort := { panel with talk := .talking 3 (.line 15), talkRefresh := some 500000 }

def talkKey : State := (keyed (.talk 3) panel true).setLine 3 { Line.empty with talkers := talkers 1 }
def callKey : State := (keyed (.call 9 3) panel true).setRoster 9 (some { serial := 1, expiry := 5 })
def followKey : State :=
  (keyed (.follow 7) panel true).setLayer 7 { Layer.reset with
    state := .live, inputs := (Vector.replicate 64 InputState.off).set 63 .program }
def answerKey : State := (keyed .answerClear panel true).setCall 3 (some (callRec .ringingIn false))
def releaseKey : State := keyed (.talk 3) talkingPanel false

theorem witness_KeysActForTheirPorts :
    (base.pins.keys.getLsbD (15 : Fin 16) = false ∧ base.pins.keys.getLsbD (15 : Fin 16) ≠ true ∧
      base.phase ≠ .loading ∧ base.phase ≠ .halted ∧ loading.phase = .loading) ∧
    ((keyed .unmapped panel true).tbk.keys[(15 : Fin 16)].timer = some 4000 ∧
      (keyed .unmapped panel true).image.keys[(15 : Fin 16)].fn = .unmapped) ∧
    (Keyed (.talk 3) panel true talkKey ∧ panel.talk = .idle ∧ panel.follow = none ∧
      panel.member 3 = some { line := 3, listen := true, talk := true } ∧
      (talkKey.line 3).talkers.length < talkKey.image.caps[(3 : Fin 16)] ∧ talkKey.image.caps[(3 : Fin 16)] ≤ 8 ∧
      talkKey.biu.queue.length < 16) ∧
    (Keyed (.call 9 3) panel true callKey ∧ (9 : Nat) = (9 : Fin 127).val ∧
      (callKey.biu.roster[(9 : Fin 127)]).isSome = true ∧ callKey.slotOf 0 = none ∧ callKey.idleSlot = some 0 ∧
      callKey.freeCircuitOf = some 0) ∧
    (Keyed (.follow 7) panel true followKey ∧ (followKey.layer 7).programInput = some 64) ∧
    (Keyed .answerClear panel true answerKey ∧ answerKey.slotOf 0 = some 3 ∧
      answerKey.call 3 = some (callRec .ringingIn false) ∧ answerKey.biu.queue.length < 16) ∧
    (Keyed (.talk 3) talkingPanel false releaseKey ∧ talkingPanel.talk = .talking 3 (.line 15)) := by
  and_intros <;> decide +kernel

theorem witness_TalkTimers :
    let s := lined { Line.empty with roster := members 8, talkers := talkers 8 }
    let f : FollowState := { layer := 7, input := 64, key := .line 15 }
    let following : TbPort := { panel with follow := some f, followRefresh := some 500000 }
    (s.talker 15 47 0 = some { station := 47, port := 0, cls := 3, expiry := some 700 }) ∧
    ((base.setTbPort 0 talkingPanel).tbPort 0 = some talkingPanel ∧ talkingPanel.talkRefresh = some 500000 ∧
      base.phase = .active) ∧
    (base.setTbPort 0 following).tbPort 0 = some following ∧ base.biu.queue.length < 16 := by decide +kernel

theorem witness_CallTimersAndLines :
    let ringing : CallRec := { callRec .ringingOut true with ringTimer := some 20000000, keepTimer := some 2000000 }
    let lost : CallRec := { callRec .connected false with callExpiry := some 6000000, keepTimer := some 2000000 }
    let long : LongTask := { origin := 9, tag := 5, code := .moveLink, link := 0, timer := 10000000 }
    let busy : State := { moving with mgmt := { moving.mgmt with longTask := some long } }
    (((calling ringing).call 3 = some ringing ∧ (calling ringing).phase = .active ∧ ringing.state ≠ .ringingIn ∧
      (calling ringing).tbk.circuits[ringing.circuit] = some { caller := ringing.callerOf 17, expiry := 100 } ∧
      (calling ringing).tbPort ringing.port = some panel)) ∧
    ((calling lost).call 3 = some lost ∧ lost.callExpiry = some 6000000 ∧ lost.state ≠ .ringingIn) ∧
    base.tbk.xp.sending = none ∧
    ({ base with tbk := { base.tbk with xp := { base.tbk.xp with sending := some (19, XEntry.empty) } } }.tbk.xp.sending =
      some (19, XEntry.empty)) ∧
    (busy.phase = .active ∧ busy.mgmt.longTask = some long ∧
      busy.link 0 = some { up with reloc := some (reloc .claiming) } ∧ busy.biu.queue.length < 16) := by
  and_intros <;> decide +kernel

end Sys2Proof.Tests
end

section
/-! SUPPORT. HALTED and SILENT are left by a hard reset alone (R27, R28): every other command keeps what holds within an
event (Laws/Within.lean), and of a station in either phase it keeps the phase. -/

namespace Sys2Proof.Machine

section Latching

variable {s t : State}

/-- The phases in which the fault line is asserted (R28). -/
def State.Faulted (s : State) : Prop := s.phase = .halted ∨ s.phase = .silent

theorem State.Faulted.ne_loading (h : s.Faulted) : s.phase ≠ .loading := by rcases h with h | h <;> simp [h]

theorem State.Faulted.ne_joining (h : s.Faulted) : s.phase ≠ .joining := by rcases h with h | h <;> simp [h]

theorem State.Faulted.ne_active (h : s.Faulted) : s.phase ≠ .active := by rcases h with h | h <;> simp [h]

theorem State.Faulted.ne_leaving (h : s.Faulted) : s.phase ≠ .leaving := by rcases h with h | h <;> simp [h]

/-- HALTED takes no part in the bus (R27), SILENT does (R20). -/
theorem State.Faulted.silent_of_onBus (h : s.Faulted) (hb : s.phase.onBus = true) : s.phase = .silent := by
  rcases h with h | h
  · simp [h, Phase.onBus] at hb
  · exact h

/-- A command has brought the station from `s` to `t`, where its event ends: what holds within an event holds, and a
station in HALTED or SILENT has stayed there. -/
structure State.Latches (s t : State) : Prop where
  within  : t.Within
  latched : s.Faulted → t.phase = s.phase

theorem State.Within.latches (h : s.Within) : s.Latches s := ⟨h, fun _ => rfl⟩

/-- What evolves changes no phase. -/
theorem Evolves.latches (e : Evolves Writes.all s t) (h : s.Within) : s.Latches t := ⟨e.within h, fun _ => e.phase⟩

/-- A timer's expiry is the effect at the timer's moment, or nothing where the timer is stopped. -/
theorem State.Within.expiry_latches {d : Timer} {f : State → State} (h : s.Within)
    (hf : ∀ {u : State}, Evolves Writes.all u u → Evolves Writes.all u (f u)) : s.Latches (s.onExpiry d f) := by
  cases d with
  | none => exact h.latches
  | some d =>
    have e : Evolves Writes.all (s.reach d) (f (s.reach d)) := hf (Evolves.refl _ _)
    exact ⟨e.within (h.reach d), fun _ => e.phase⟩

theorem State.finish_phase (s : State) : s.finish.phase = s.phase := by simp

theorem State.finish_faultLine (s : State) : s.finish.faultLine = s.faultLine := by simp

/-! ## The senders -/

/-- Only in LEAVING does the end of a transmission bring a hard reset (R36). -/
theorem State.leaveIfEmpty_of_not_leaving (h : s.phase ≠ .leaving) : s.leaveIfEmpty = s := by
  simp [State.leaveIfEmpty, h]

theorem State.leaveIfEmpty_evolves (hl : s.phase ≠ .leaving) (h : Evolves Writes.all s t) :
    Evolves Writes.all s t.leaveIfEmpty := by
  rw [State.leaveIfEmpty_of_not_leaving (by rw [h.phase]; exact hl)]
  exact h

theorem State.settlePort_evolves {p : BusPort} {x : Bool} {e : QueueEntry} (hl : s.phase ≠ .leaving)
    (h : Evolves Writes.all s t) : Evolves Writes.all s (t.settlePort p x e) := by
  unfold State.settlePort
  dsimp only
  split
  · exact State.leaveIfEmpty_evolves hl (State.report_evolves rfl rfl (State.removeQueued_evolves h))
  · exact State.mapQueue_evolves (fun x => by split <;> exact ⟨rfl, rfl⟩) h

theorem State.finishTx_evolves {p : BusPort} {x : Bool} {tx : Tx} (hl : s.phase ≠ .leaving)
    (h : Evolves Writes.all s t) : Evolves Writes.all s (t.finishTx p x tx) := by
  unfold State.finishTx
  split
  · split
    · exact State.settlePort_evolves hl h
    · exact h
  · exact State.dropHead_evolves h

theorem State.txSuccess_evolves {p : BusPort} (hl : s.phase ≠ .leaving) : Evolves Writes.all s (s.txSuccess p) := by
  have r := Evolves.refl Writes.all s
  unfold State.txSuccess
  split
  · exact State.finishTx_evolves hl (State.count_evolves (State.setPort_evolves r))
  all_goals exact r

theorem State.txCollision_evolves {p : BusPort} (hl : s.phase ≠ .leaving) : Evolves Writes.all s (s.txCollision p) := by
  have r := Evolves.refl Writes.all s
  unfold State.txCollision
  dsimp only
  split
  · split
    · exact State.setPort_evolves (State.noteFailure_evolves (State.count_evolves r))
    · exact State.finishTx_evolves hl
        (State.count_evolves (State.setPort_evolves (State.noteFailure_evolves (State.count_evolves r))))
  all_goals exact r

theorem State.Within.txSuccess_latches (h : s.Within) (p : BusPort) : s.Latches (s.txSuccess p) :=
  ⟨h.txSuccess p, fun f => (State.txSuccess_evolves f.ne_leaving).phase⟩

theorem State.Within.txCollision_latches (h : s.Within) (p : BusPort) : s.Latches (s.txCollision p) :=
  ⟨h.txCollision p, fun f => (State.txCollision_evolves f.ne_leaving).phase⟩

theorem State.endBackoff_phase (p : BusPort) (s : State) : (s.endBackoff p).phase = s.phase := by
  unfold State.endBackoff
  split <;> rfl

theorem State.Within.receptionStart_latches (h : s.Within) (p : BusPort) :
    s.Latches (if s.hears p then s.setPort p (s.biu.port p).begun else s) := by
  split
  · exact (State.setPort_evolves (Evolves.refl _ s)).latches h
  · exact h.latches

/-! ## The receive path -/

/-- A station in SILENT looks for no duplicate (R20). -/
theorem State.detectDuplicate_of_silent (h : s.phase = .silent) (b : Bulletin) : s.detectDuplicate b = s := by
  unfold State.detectDuplicate
  split
  · split
    · exact if_neg (by simp [h])
    · rfl
  · rfl

/-- Outside ACTIVE no block's handling of a bulletin changes the phase: a task, RESTART among them, is not taken. -/
theorem State.deliver_evolves {k : Kind} {b : Bulletin} (ha : s.phase ≠ .active) :
    Evolves Writes.all s (s.deliver k b).1 := by
  have r := Evolves.refl Writes.all s
  cases k <;> simp only [State.deliver]
  case task => rw [if_pos ha]; exact r
  case taskReply | capture => exact r
  case callRing | callAnswer | callEnd | callKeep =>
    split
    · rename_i hx; exact State.readCall_evolves r hx
    · dsimp only; simp [r]
  case planClaim | planHold | planYield =>
    split
    · dsimp only; exact State.withNews_evolves rfl rfl (by simp [r])
    · exact r
  case tallyState | talk =>
    split
    · simp [r]
    · exact r
  case presence | sighting | lineJoin | lineLeave | followTalk =>
    split
    · dsimp only; simp [r]
    · exact r

theorem State.dispatch_evolves {b : Bulletin} (ha : s.phase ≠ .active) : Evolves Writes.all s (s.dispatch b).1 := by
  have r := Evolves.refl Writes.all s
  unfold State.dispatch
  split
  · exact State.count_evolves r
  · split
    · exact r
    · split
      · exact State.deliver_evolves ha
      · exact r

theorem State.receivePath_evolves {p : BusPort} {b : Bulletin} (hs : s.phase = .silent) :
    Evolves Writes.all s (s.receivePath p b) := by
  have el : Evolves Writes.all s (s.learn p b) := State.learn_evolves (Evolves.refl _ s)
  unfold State.receivePath
  rw [State.detectDuplicate_of_silent (el.phase.trans hs)]
  have ef := State.captureHook_evolves (b := b) (State.forward_evolves (p := p) (b := b) el)
  have ed := ef.trans (State.dispatch_evolves (b := b) (by rw [ef.phase, hs]; simp))
  exact Evolves.foldl _ (fun u _ => State.makeCapture_evolves (Evolves.refl _ u)) _ ed

theorem State.heardRun_evolves {p : BusPort} {n : Nat} {b : Option Bulletin} (hf : s.Faulted) :
    Evolves Writes.all s (s.heardRun p n b) := by
  have e : Evolves Writes.all s (s.setPort p (s.biu.port p).ended) := State.setPort_evolves (Evolves.refl _ s)
  unfold State.heardRun
  split
  · rename_i hh
    simp only [State.hears, Bool.and_eq_true] at hh
    obtain ⟨⟨hb, _⟩, _⟩ := hh
    have hs : s.phase = .silent := hf.silent_of_onBus hb
    cases b with
    | none => exact State.count_evolves e
    | some b =>
      have ec := State.count_evolves (ev := .rxAccepted) (n := some b.length) e
      exact ec.trans (State.receivePath_evolves (ec.phase.trans hs))
  · exact Evolves.refl _ s

theorem State.Within.heardRun_latches (h : s.Within) (p : BusPort) (n : Nat) (b : Option Bulletin) :
    s.Latches (s.heardRun p n b) :=
  ⟨h.heardRun p n b, fun f => (State.heardRun_evolves f).phase⟩

/-! ## Start-up and input lines -/

/-- The part is held in reset in LOADING alone (R24), so a release concerns no station in HALTED or SILENT. -/
theorem State.Within.resetRelease_latches (h : s.Within) : s.Latches (if s.resetHeld then s.startLoading else s) := by
  split
  · rename_i hr
    exact ⟨h.startLoading, fun f => absurd (h.startUp.2 hr) f.ne_loading⟩
  · exact h.latches

/-- The configuration is read in LOADING alone (R26). -/
theorem State.Within.configurationRead_latches (h : s.Within) (m : List Byte) : s.Latches (s.configurationRead m) :=
  ⟨h.configurationRead m, fun f => by simp [State.configurationRead, f.ne_loading]⟩

/-- The join timer runs in JOINING alone (R29, R32). -/
theorem State.Within.joinExpiry_latches (h : s.Within) : s.Latches (s.onExpiry s.biu.joinTimer State.enterActive) := by
  refine ⟨h.joinExpiry, fun f => ?_⟩
  cases hj : s.biu.joinTimer with
  | none => rfl
  | some d => exact absurd (h.startUp.1 (by simp [hj])) f.ne_joining

theorem State.leaveOver_of_not_leaving (h : s.phase ≠ .leaving) : s.leaveOver = s := by
  simp [State.leaveOver, h]

/-- The leave timer's expiry is a hard reset in LEAVING alone (R36). -/
theorem State.Within.leaveExpiry_latches (h : s.Within) (d : Timer) : s.Latches (s.onExpiry d State.leaveOver) := by
  refine ⟨h.onExpiry d _ State.Within.leaveOver, fun f => ?_⟩
  cases d with
  | none => rfl
  | some d => rw [State.onExpiry, State.leaveOver_of_not_leaving (s := s.reach d) f.ne_leaving]; rfl

theorem State.contactLevel_phase (c : Fin 32) (x : Bool) (s : State) : (s.contactLevel c x).phase = s.phase := by
  unfold State.contactLevel
  dsimp only
  repeat' split
  all_goals rfl

theorem State.keyLevel_phase (k : Fin 16) (x : Bool) (s : State) : (s.keyLevel k x).phase = s.phase := by
  unfold State.keyLevel
  dsimp only
  repeat' split
  all_goals rfl

/-! ## Every command -/

theorem exec_hardReset (s : State) : exec .hardReset s = done s.hardReset := rfl

/-- Every command but a hard reset is an event that latches HALTED and SILENT. -/
theorem exec_latches (c : Instr) (hc : c ≠ .hardReset) (h : s.Within) : ∃ u, exec c s = done u ∧ s.Latches u := by
  have r := Evolves.refl Writes.all s
  cases c with
  | hardReset => exact absurd rfl hc
  | resetRelease => exact ⟨_, rfl, h.resetRelease_latches⟩
  | configurationRead m => exact ⟨_, rfl, h.configurationRead_latches m⟩
  | sendAttemptStart p => exact ⟨_, rfl, (State.startAttempt_evolves r).latches h⟩
  | receptionStart p => exact ⟨_, rfl, h.receptionStart_latches p⟩
  | transmissionSuccess p => exact ⟨_, rfl, h.txSuccess_latches p⟩
  | collision p => exact ⟨_, rfl, h.txCollision_latches p⟩
  | backoffExpiry p => exact ⟨_, rfl, h.endBackoff p, fun _ => State.endBackoff_phase p s⟩
  | receptionEnd p _ | presence p _ | planClaim p _ | planHold p _ | planYield p _ | sighting p _ | tallyState p _
  | lineJoin p _ | lineLeave p _ | talk p _ | followTalk p _ | callRing p _ | callAnswer p _ | callEnd p _
  | callKeep p _ | taskReply p _ | capture p _ | readStation p _ | readLink p _ | readPlan p _ | readTally p _
  | readLine p _ | readCounters p _ | setCounter p _ | setClass p _ | pinLink p _ | unpinLink p _ | moveLink p _
  | setMembership p _ | armCapture p _ | readCapture p _ | restart p _ | setSample p _ | unknownTask p _ =>
    exact ⟨_, rfl, h.heardRun_latches p _ _⟩
  | joinTimerExpiry => exact ⟨_, rfl, h.joinExpiry_latches⟩
  | leaveTimerExpiry => exact ⟨_, rfl, h.leaveExpiry_latches _⟩
  | commandFrameSent => exact ⟨_, rfl, (State.commandSent_evolves rfl r).latches h⟩
  | tuneOutcome => exact ⟨_, rfl, (State.tuneAnswered_evolves rfl rfl r).latches h⟩
  | report => exact ⟨_, rfl, (State.takeReport_evolves rfl rfl rfl r).latches h⟩
  | crosspointUpdateSent => exact ⟨_, rfl, (State.updateSent_evolves rfl r).latches h⟩
  | contactLevelChange c x => exact ⟨_, rfl, h.contactLevel c x, fun _ => State.contactLevel_phase c x s⟩
  | keyLevelChange k x => exact ⟨_, rfl, h.keyLevel k x, fun _ => State.keyLevel_phase k x s⟩
  | claimRetryWaitExpiry | claimWindowExpiry | tentativeAllowanceExpiry | yieldingAllowanceExpiry =>
    exact ⟨_, rfl, h.expiry_latches fun e => State.withNews_evolves rfl rfl (by simp [e])⟩
  | originAgeExpiry | presenceTimerExpiry | rosterExpiry | peerEntryExpiry | overfullTimerExpiry | quarantineExpiry
  | claimRefreshExpiry | defendHoldOffExpiry | holdRefreshExpiry | tuneTimerExpiry | sampleTimerExpiry
  | relocationHoldOffExpiry | copyFilterExpiry | sightingHoldOffExpiry | acquireRetryExpiry | staleTimerExpiry
  | unsetTimerExpiry | contactDebounceExpiry | sourceRefreshExpiry | keyDebounceExpiry | talkerEntryExpiry
  | talkRefreshExpiry | followRefreshExpiry | followEntryExpiry | circuitExpiry | ringTimerExpiry | keepTimerExpiry
  | callExpiry | indicationTimerExpiry | recentTaskExpiry | taskTimerExpiry =>
    exact ⟨_, rfl, h.expiry_latches fun e => by simp [e]⟩

end Latching

/-- Settles O7: the event's end gives the invariant back, whose fault line part is the first clause; a hard reset negates
the line, and every other command latches HALTED and SILENT. -/
theorem faultLineFollowsThePhase : Obligations.FaultLineFollowsThePhase := by
  intro c s h
  by_cases hc : c = .hardReset
  · subst hc
    exact ⟨_, exec_hardReset s, (State.hardReset_within s).finish.faultLine,
      fun _ => by rw [State.finish_faultLine]; rfl, fun _ hn => absurd rfl hn⟩
  · obtain ⟨u, he, hu⟩ := exec_latches c hc h.within
    exact ⟨_, he, hu.within.finish.faultLine, fun e => absurd e hc,
      fun f _ => by rw [State.finish_phase]; exact hu.latched f⟩

end Sys2Proof.Machine
end

section
/-! SUPPORT. Overlap of two spans (R55): the test the search makes of a quarantine entry is the sharing of a channel. -/

namespace Sys2Proof.Machine

theorem overlaps_iff (x y : Span) : overlaps x y = true ↔ x.band = y.band ∧ y.low ≤ x.high ∧ x.low ≤ y.high := by
  simp only [overlaps, Bool.and_eq_true, beq_iff_eq, decide_eq_true_eq, and_assoc, and_comm (a := x.low ≤ y.high)]

/-- Two spans, neither of them empty, that each begin no later than the other ends share the later of their first
channels. -/
theorem Span.exists_shared_channel_iff {x y : Span} (hx : x.low ≤ x.high) (hy : y.low ≤ y.high) :
    (∃ n, x.low ≤ n ∧ n ≤ x.high ∧ y.low ≤ n ∧ n ≤ y.high) ↔ y.low ≤ x.high ∧ x.low ≤ y.high := by
  constructor
  · rintro ⟨n, hxn, hnx, hyn, hny⟩
    exact ⟨hyn.trans hnx, hxn.trans hny⟩
  · rintro ⟨hyx, hxy⟩
    exact ⟨max x.low y.low, le_max_left .., max_le hx hyx, le_max_right .., max_le hxy hy⟩

/-- Settles O44: the test is the quoted condition, and of spans with channels that condition says they share one. -/
theorem overlapIsOneSharedChannel : Obligations.OverlapIsOneSharedChannel := by
  intro entry candidate
  refine ⟨overlaps_iff entry candidate, fun he hc => ?_⟩
  rw [overlaps_iff, Span.exists_shared_channel_iff he hc]

end Sys2Proof.Machine
end

section
/-! SUPPORT. Matches of the tally map (R147): what each question of Machine/TallyMap.lean asks, in the rule's words. -/

namespace Sys2Proof.Machine

/-- The states a rule matches: OFF is never one of them. -/
theorem stateMatches_iff (r : MapRule) (st : InputState) :
    stateMatches r st = true ↔ (st = .preview ∧ r.onPreview = true) ∨ (st = .program ∧ r.onProgram = true) := by
  cases st <;> simp [stateMatches]

theorem mem_ruleInputs (r : MapRule) (i : Fin 64) :
    i ∈ ruleInputs r ↔ r.inputLow ≤ i.val + 1 ∧ i.val + 1 ≤ r.inputHigh := by
  simp [ruleInputs]

theorem Layer.seenBy_iff (y : Layer) (r : MapRule) (k : Fin 8) :
    y.seenBy r k = true ↔ keyMatches r k = true ∧ y.state ≠ .unset := by
  simp [Layer.seenBy]

theorem Layer.matched_iff (y : Layer) (r : MapRule) (k : Fin 8) (st : InputState) :
    y.matched r k st = true ↔
      y.seenBy r k = true ∧ stateMatches r st = true ∧ ∃ i ∈ ruleInputs r, y.inputs[i] = st := by
  simp [Layer.matched, and_assoc]

theorem Tally.matchIn_iff (t : Tally) (r : MapRule) (st : InputState) (ls : LayerState) :
    t.matchIn r st ls = true ↔ ∃ k : Fin 8, t.layers[k].state = ls ∧ t.layers[k].matched r k st = true := by
  simp [Tally.matchIn]

theorem Tally.matches_iff (t : Tally) (r : MapRule) (st : InputState) :
    t.matches r st = true ↔ t.matchIn r st .live = true ∨ t.matchIn r st .stale = true := by
  simp [Tally.matches]

/-- R147's conditions: the layer's state and the rule's states speak of no layer or input, so they stand outside the
search for one. -/
theorem Tally.matchIn_iff_exists_input (t : Tally) (r : MapRule) (st : InputState) (ls : LayerState) :
    t.matchIn r st ls = true ↔ ls ≠ .unset ∧ stateMatches r st = true ∧
      ∃ (k : Fin 8) (i : Fin 64), t.layers[k].state = ls ∧ keyMatches r k = true ∧ r.inputLow ≤ i.val + 1 ∧
        i.val + 1 ≤ r.inputHigh ∧ t.layers[k].inputs[i] = st := by
  simp only [Tally.matchIn_iff, Layer.matched_iff, Layer.seenBy_iff, mem_ruleInputs]
  constructor
  · rintro ⟨k, rfl, ⟨hkey, hset⟩, hst, i, ⟨hlow, hhigh⟩, hin⟩
    exact ⟨hset, hst, k, i, rfl, hkey, hlow, hhigh, hin⟩
  · rintro ⟨hset, hst, k, i, rfl, hkey, hlow, hhigh, hin⟩
    exact ⟨k, rfl, ⟨hkey, hset⟩, hst, i, ⟨hlow, hhigh⟩, hin⟩

theorem Tally.stateMatches_of_matches {t : Tally} {r : MapRule} {st : InputState} (h : t.matches r st = true) :
    stateMatches r st = true := by
  obtain ⟨ls, hls⟩ : ∃ ls, t.matchIn r st ls = true := ((t.matches_iff r st).mp h).elim (⟨_, ·⟩) (⟨_, ·⟩)
  obtain ⟨-, hst, -⟩ := (t.matchIn_iff_exists_input r st ls).mp hls
  exact hst

/-- Settles O45: a match is a layer and an input that meet R147's conditions, and a rule with no state to match has
none. -/
theorem mapRulesMatchByLayerInputAndState : Obligations.MapRulesMatchByLayerInputAndState := by
  intro t r
  refine ⟨fun st ls => ?_, t.matches_iff r, fun hpreview hprogram st => ?_⟩
  · rw [t.matchIn_iff_exists_input, stateMatches_iff]
  · refine Bool.eq_false_iff.mpr fun h => ?_
    have hst := (stateMatches_iff r st).mp (Tally.stateMatches_of_matches h)
    simp [hpreview, hprogram] at hst

end Sys2Proof.Machine
end

section
/-! SUPPORT. The step as a whole: what it takes from the queue of commands, and that it keeps the invariant. -/

namespace Sys2Proof.Machine

theorem step_of_pending {c : Instr} {rest : List Instr} {s : State} (h : s.pending = c :: rest) :
    step s = exec c { s with pending := rest } := by simp only [step, h]

theorem step_of_empty {s : State} (h : s.pending = []) : step s = .next { s with now := s.now + bitMicros } := by
  simp only [step, h]

/-- What waits and what time it is are no part of the invariant. -/
theorem State.Inv.setQueueAndClock {s : State} (h : s.Inv) (n : Nat) (q : List Instr) :
    State.Inv { s with now := n, pending := q } :=
  ⟨h.faultLine, h.quiet, h.queue, h.line, h.ownLaw, h.forward, h.startUp, h.eventOver⟩

/-- Every command is an event that, but for its end, keeps what holds within an event. -/
theorem exec_within (c : Instr) {s : State} (h : s.Within) : ∃ u : State, exec c s = done u ∧ u.Within := by
  by_cases hc : c = .hardReset
  · subst hc
    exact ⟨_, exec_hardReset s, State.hardReset_within s⟩
  · obtain ⟨u, he, hu⟩ := exec_latches c hc h
    exact ⟨u, he, hu.within⟩

theorem exec_inv (c : Instr) {s t : State} (h : s.Inv) (he : exec c s = .next t) : t.Inv := by
  obtain ⟨u, hu, hw⟩ := exec_within c h.within
  have ht : u.finish = t := by simpa [done] using hu.symm.trans he
  exact ht ▸ hw.finish

/-- Settles O1. -/
theorem stepRunsTheFrontCommand : Obligations.StepRunsTheFrontCommand := fun _ _ _ h => step_of_pending h

/-- Settles O2. -/
theorem emptyQueueMovesTheClockAlone : Obligations.EmptyQueueMovesTheClockAlone := fun _ h => step_of_empty h

/-- Settles O5: what holds within an event holds at reset, and no event is in progress. -/
theorem invariantAtReset : Obligations.InvariantAtReset :=
  let h := State.reset_within
  ⟨h.faultLine, h.quiet, h.queue, h.line, h.ownLaw, h.forward, h.startUp, rfl, rfl⟩

/-- Settles O6: on an empty queue the clock alone moves, which the invariant does not name; otherwise the command at the
front is an event, and the end of every event gives the invariant back. -/
theorem everyStepKeepsTheInvariant : Obligations.EveryStepKeepsTheInvariant := by
  intro s t h hs
  cases hp : s.pending with
  | nil =>
    rw [step_of_empty hp] at hs
    have ht : { s with now := s.now + bitMicros } = t := by simpa using hs
    exact ht ▸ h.setQueueAndClock (s.now + bitMicros) s.pending
  | cons c rest =>
    rw [step_of_pending hp] at hs
    exact exec_inv c (h.setQueueAndClock s.now rest) hs

end Sys2Proof.Machine
end

section
/-! SUPPORT. Every command is carried out to the end of its event: it takes no command from the queue, and no event turns
the clock back. -/

namespace Sys2Proof.Machine

variable {s t u : State} {w : Writes}

/-- An event has come from `s` to `t`: the queue of commands is as it was, and the clock not turned back. -/
structure State.Advances (s t : State) : Prop where
  pending : t.pending = s.pending
  now     : s.now ≤ t.now

theorem State.Advances.refl (s : State) : s.Advances s := ⟨rfl, Nat.le_refl _⟩

theorem State.Advances.trans (a : s.Advances t) (b : t.Advances u) : s.Advances u :=
  ⟨b.pending.trans a.pending, Nat.le_trans a.now b.now⟩

/-- What evolves moves no clock at all. -/
theorem Evolves.advances (h : Evolves w s t) : s.Advances t := ⟨h.pending, Nat.le_of_eq h.now.symm⟩

/-- A timer's expiry sets the clock forward to the timer's moment, and not back (log 2). -/
theorem State.reach_advances (s : State) (d : Nat) : s.Advances (s.reach d) := ⟨rfl, Nat.le_max_left _ _⟩

theorem State.onExpiry_advances {d : Timer} {f : State → State} (hf : ∀ u : State, u.Advances (f u)) :
    s.Advances (s.onExpiry d f) := by
  cases d with
  | none => exact .refl s
  | some d => exact (s.reach_advances d).trans (hf _)

/-- The expiry of a timer whose effect is an operation inside an event. -/
theorem State.expiry_advances {d : Timer} {f : State → State}
    (hf : ∀ {u : State}, Evolves Writes.all u u → Evolves Writes.all u (f u)) : s.Advances (s.onExpiry d f) :=
  State.onExpiry_advances fun u => (hf (Evolves.refl _ u)).advances

/-! ## The phases -/

theorem State.startLoading_advances (s : State) : s.Advances s.startLoading :=
  have e : Evolves Writes.all { s with resetHeld := false } s.startLoading :=
    State.loadingMutes_evolves rfl (Evolves.refl _ _)
  ⟨e.pending, Nat.le_of_eq e.now.symm⟩

theorem State.hardReset_advances (s : State) : s.Advances s.hardReset := ⟨rfl, Nat.le_refl _⟩

theorem State.restartPart_advances (s : State) : s.Advances s.restartPart :=
  s.hardReset_advances.trans s.hardReset.startLoading_advances

theorem State.loadingEnd_advances (img : Image) (s : State) : s.Advances (s.loadingEnd img) := by
  have e : Evolves Writes.all { s with cfg := some img }
      ((({ s with cfg := some img }.loadRest).loadTally).loadTbk).darkenLinks :=
    State.darkenLinks_evolves rfl (State.loadBlocks_evolves { s with cfg := some img })
  unfold State.loadingEnd State.loadXp
  dsimp only
  generalize ((({ s with cfg := some img }.loadRest).loadTally).loadTbk).darkenLinks = u at *
  exact ⟨e.pending, Nat.le_of_eq e.now.symm⟩

theorem State.configurationRead_advances (m : List Byte) (s : State) : s.Advances (s.configurationRead m) := by
  unfold State.configurationRead
  split
  · split
    · exact State.loadingEnd_advances _ s
    · exact ⟨rfl, Nat.le_refl _⟩
  · exact .refl s

theorem State.enterActive_advances (s : State) : s.Advances s.enterActive := by
  unfold State.enterActive
  dsimp only
  generalize hv : ({ s with phase := .active, biu := _ } : State) = v
  have e : Evolves Writes.all v (((v.sendPresence).startSources).joinAll).acquireLinks :=
    State.acquireLinks_evolves rfl rfl (State.joinAll_evolves
      (State.startSources_evolves rfl rfl rfl (State.sendPresence_evolves (Evolves.refl _ v))))
  have hp : v.pending = s.pending := by rw [← hv]
  have hn : v.now = s.now := by rw [← hv]
  exact ⟨e.pending.trans hp, Nat.le_of_eq (e.now.trans hn).symm⟩

theorem State.enterLeaving_advances (s : State) : s.Advances s.enterLeaving := by
  unfold State.enterLeaving
  dsimp only
  generalize hv : ({ s with phase := .leaving, biu := _, mgmt := _ } : State) = v
  have e : Evolves Writes.all v (((v.muteTuned).disableLinks).yieldAll.leaveTbk).stopSources :=
    State.stopSources_evolves rfl (State.leaveTbk_evolves rfl (State.yieldAll_evolves rfl
      (State.disableLinks_evolves' (State.muteTuned_evolves rfl (Evolves.refl _ v)))))
  generalize (((v.muteTuned).disableLinks).yieldAll.leaveTbk).stopSources = u at *
  have hp : v.pending = s.pending := by rw [← hv]
  have hn : v.now = s.now := by rw [← hv]
  exact ⟨e.pending.trans hp, Nat.le_of_eq (e.now.trans hn).symm⟩

theorem State.enterSilent_advances (s : State) : s.Advances s.enterSilent := by
  unfold State.enterSilent
  dsimp only
  generalize hv : ({ s with phase := .silent, faultLine := true, biu := _, plan := _, mgmt := _ } : State) = v
  have e : Evolves Writes.all v ((v.muteAll).disableLinks.stopSources).quietTbk :=
    State.quietTbk_evolves rfl (State.stopSources_evolves rfl
      (State.disableLinks_evolves' (State.muteAll_evolves rfl (Evolves.refl _ v))))
  have hp : v.pending = s.pending := by rw [← hv]
  have hn : v.now = s.now := by rw [← hv]
  exact ⟨e.pending.trans hp, Nat.le_of_eq (e.now.trans hn).symm⟩

/-! ## The senders -/

theorem State.leaveIfEmpty_advances (s : State) : s.Advances s.leaveIfEmpty := by
  unfold State.leaveIfEmpty
  split
  · exact s.restartPart_advances
  · exact .refl s

theorem State.leaveOver_advances (s : State) : s.Advances s.leaveOver := by
  unfold State.leaveOver
  split
  · exact s.restartPart_advances
  · exact .refl s

theorem State.settlePort_advances (p : BusPort) (x : Bool) (e : QueueEntry) (s : State) :
    s.Advances (s.settlePort p x e) := by
  have r := Evolves.refl Writes.all s
  unfold State.settlePort
  dsimp only
  split
  · exact (State.report_evolves rfl rfl (State.removeQueued_evolves r)).advances.trans (State.leaveIfEmpty_advances _)
  · exact (State.mapQueue_evolves (fun x => by split <;> exact ⟨rfl, rfl⟩) r).advances

theorem State.finishTx_advances (p : BusPort) (x : Bool) (tx : Tx) (s : State) : s.Advances (s.finishTx p x tx) := by
  unfold State.finishTx
  split
  · split
    · exact s.settlePort_advances p x _
    · exact .refl s
  · exact (State.dropHead_evolves (Evolves.refl Writes.all s)).advances

theorem State.txSuccess_advances (p : BusPort) (s : State) : s.Advances (s.txSuccess p) := by
  unfold State.txSuccess
  split
  · exact (State.count_evolves (State.setPort_evolves (Evolves.refl Writes.all s))).advances.trans
      (State.finishTx_advances _ _ _ _)
  all_goals exact .refl s

theorem State.txCollision_advances (p : BusPort) (s : State) : s.Advances (s.txCollision p) := by
  unfold State.txCollision
  dsimp only
  split
  · have e {k n tx} : Evolves Writes.all s ((s.count .txCollision n).noteFailure p k tx) :=
      State.noteFailure_evolves (State.count_evolves (Evolves.refl _ s))
    split
    · exact (State.setPort_evolves e).advances
    · exact (State.count_evolves (State.setPort_evolves e)).advances.trans (State.finishTx_advances _ _ _ _)
  all_goals exact .refl s

theorem State.endBackoff_advances (p : BusPort) (s : State) : s.Advances (s.endBackoff p) := by
  unfold State.endBackoff
  split
  · exact (s.reach_advances _).trans (State.setPort_evolves (w := Writes.all) (Evolves.refl _ _)).advances
  all_goals exact .refl s

/-! ## The receive path -/

theorem State.detectDuplicate_advances (b : Bulletin) (s : State) : s.Advances (s.detectDuplicate b) := by
  unfold State.detectDuplicate
  split
  · split
    · split
      · exact s.enterSilent_advances
      · exact .refl s
    · exact .refl s
  · exact .refl s

theorem State.takeTask_advances (t : TaskIn) (s : State) : s.Advances (s.takeTask t) := by
  have e : Evolves Writes.all s (s.noteTask t) := State.noteTask_evolves (Evolves.refl _ s)
  unfold State.takeTask
  dsimp only
  split
  · exact .refl s
  · split
    · rename_i c hc
      by_cases hr : c = .restart
      · subst hr
        exact (State.reply_evolves e).advances.trans (State.enterLeaving_advances _)
      · exact (State.runTask_evolves hr rfl rfl rfl rfl e).advances
    · exact (State.rejectTask_evolves e).advances

/-- No block's handling of a bulletin but a task's leaves what an event's operations can do. -/
theorem State.deliver_evolves_of_ne_task {k : Kind} {b : Bulletin} (hk : k ≠ .task) :
    Evolves Writes.all s (s.deliver k b).1 := by
  have r := Evolves.refl Writes.all s
  cases k <;> simp only [State.deliver]
  case task => exact absurd rfl hk
  case taskReply | capture => exact r
  case callRing | callAnswer | callEnd | callKeep =>
    split
    · rename_i hx; exact State.readCall_evolves r hx
    · dsimp only; simp [r]
  case planClaim | planHold | planYield =>
    split
    · dsimp only; exact State.withNews_evolves rfl rfl (by simp [r])
    · exact r
  case tallyState | talk =>
    split
    · simp [r]
    · exact r
  case presence | sighting | lineJoin | lineLeave | followTalk =>
    split
    · dsimp only; simp [r]
    · exact r

/-- A block's handling of a bulletin, a task among them. -/
theorem State.deliver_advances (k : Kind) (b : Bulletin) (s : State) : s.Advances (s.deliver k b).1 := by
  by_cases hk : k = .task
  · subst hk
    simp only [State.deliver]
    split
    · exact .refl s
    · split
      · exact .refl s
      · split
        · exact s.takeTask_advances _
        · exact .refl s
  · exact (State.deliver_evolves_of_ne_task hk).advances

theorem State.dispatch_advances (b : Bulletin) (s : State) : s.Advances (s.dispatch b).1 := by
  unfold State.dispatch
  split
  · exact (State.count_evolves (Evolves.refl Writes.all s)).advances
  · split
    · exact .refl s
    · split
      · exact s.deliver_advances _ b
      · exact .refl s

theorem State.receivePath_advances (p : BusPort) (b : Bulletin) (s : State) : s.Advances (s.receivePath p b) := by
  have el : Evolves Writes.all s (s.learn p b) := State.learn_evolves (Evolves.refl _ s)
  have ed := el.advances.trans (State.detectDuplicate_advances b _)
  have ef := (State.captureHook_evolves (b := b)
    (State.forward_evolves (p := p) (b := b) (Evolves.refl Writes.all ((s.learn p b).detectDuplicate b)))).advances
  exact (ed.trans (ef.trans (State.dispatch_advances b _))).trans
    (Evolves.foldl _ (fun u _ => State.makeCapture_evolves (Evolves.refl Writes.all u)) _ (Evolves.refl _ _)).advances

theorem State.heardRun_advances (p : BusPort) (n : Nat) (b : Option Bulletin) (s : State) :
    s.Advances (s.heardRun p n b) := by
  have e : Evolves Writes.all s (s.setPort p (s.biu.port p).ended) := State.setPort_evolves (Evolves.refl _ s)
  unfold State.heardRun
  split
  · cases b with
    | none => exact (State.count_evolves e).advances
    | some b => exact (State.count_evolves e).advances.trans (State.receivePath_advances p b _)
  · exact .refl s

/-! ## Input lines -/

theorem State.contactLevel_advances (c : Fin 32) (x : Bool) (s : State) : s.Advances (s.contactLevel c x) := by
  unfold State.contactLevel
  dsimp only
  repeat' split
  all_goals exact ⟨rfl, Nat.le_refl _⟩

theorem State.keyLevel_advances (k : Fin 16) (x : Bool) (s : State) : s.Advances (s.keyLevel k x) := by
  unfold State.keyLevel
  dsimp only
  repeat' split
  all_goals exact ⟨rfl, Nat.le_refl _⟩

/-! ## Every command -/

theorem exec_advances (c : Instr) (s : State) : ∃ u, exec c s = done u ∧ s.Advances u := by
  have r := Evolves.refl Writes.all s
  cases c with
  | hardReset => exact ⟨_, rfl, s.hardReset_advances⟩
  | resetRelease =>
    refine ⟨_, rfl, ?_⟩
    split
    · exact s.startLoading_advances
    · exact .refl s
  | configurationRead m => exact ⟨_, rfl, s.configurationRead_advances m⟩
  | sendAttemptStart p => exact ⟨_, rfl, (State.startAttempt_evolves r).advances⟩
  | receptionStart p =>
    refine ⟨_, rfl, ?_⟩
    split
    · exact (State.setPort_evolves r).advances
    · exact .refl s
  | transmissionSuccess p => exact ⟨_, rfl, s.txSuccess_advances p⟩
  | collision p => exact ⟨_, rfl, s.txCollision_advances p⟩
  | backoffExpiry p => exact ⟨_, rfl, s.endBackoff_advances p⟩
  | receptionEnd p _ | presence p _ | planClaim p _ | planHold p _ | planYield p _ | sighting p _ | tallyState p _
  | lineJoin p _ | lineLeave p _ | talk p _ | followTalk p _ | callRing p _ | callAnswer p _ | callEnd p _
  | callKeep p _ | taskReply p _ | capture p _ | readStation p _ | readLink p _ | readPlan p _ | readTally p _
  | readLine p _ | readCounters p _ | setCounter p _ | setClass p _ | pinLink p _ | unpinLink p _ | moveLink p _
  | setMembership p _ | armCapture p _ | readCapture p _ | restart p _ | setSample p _ | unknownTask p _ =>
    exact ⟨_, rfl, s.heardRun_advances p _ _⟩
  | joinTimerExpiry => exact ⟨_, rfl, State.onExpiry_advances State.enterActive_advances⟩
  | leaveTimerExpiry => exact ⟨_, rfl, State.onExpiry_advances State.leaveOver_advances⟩
  | commandFrameSent => exact ⟨_, rfl, (State.commandSent_evolves rfl r).advances⟩
  | tuneOutcome => exact ⟨_, rfl, (State.tuneAnswered_evolves rfl rfl r).advances⟩
  | report => exact ⟨_, rfl, (State.takeReport_evolves rfl rfl rfl r).advances⟩
  | crosspointUpdateSent => exact ⟨_, rfl, (State.updateSent_evolves rfl r).advances⟩
  | contactLevelChange c x => exact ⟨_, rfl, s.contactLevel_advances c x⟩
  | keyLevelChange k x => exact ⟨_, rfl, s.keyLevel_advances k x⟩
  | claimRetryWaitExpiry | claimWindowExpiry | tentativeAllowanceExpiry | yieldingAllowanceExpiry =>
    exact ⟨_, rfl, State.expiry_advances fun e => State.withNews_evolves rfl rfl (by simp [e])⟩
  | originAgeExpiry | presenceTimerExpiry | rosterExpiry | peerEntryExpiry | overfullTimerExpiry | quarantineExpiry
  | claimRefreshExpiry | defendHoldOffExpiry | holdRefreshExpiry | tuneTimerExpiry | sampleTimerExpiry
  | relocationHoldOffExpiry | copyFilterExpiry | sightingHoldOffExpiry | acquireRetryExpiry | staleTimerExpiry
  | unsetTimerExpiry | contactDebounceExpiry | sourceRefreshExpiry | keyDebounceExpiry | talkerEntryExpiry
  | talkRefreshExpiry | followRefreshExpiry | followEntryExpiry | circuitExpiry | ringTimerExpiry | keepTimerExpiry
  | callExpiry | indicationTimerExpiry | recentTaskExpiry | taskTimerExpiry =>
    exact ⟨_, rfl, State.expiry_advances fun e => by simp [e]⟩

/-- Settles O3: every command is an event that advances, and `done` is the end of it. -/
theorem everyCommandCompletes : Obligations.EveryCommandCompletes := by
  intro c s
  obtain ⟨u, he, hu⟩ := exec_advances c s
  exact ⟨u, he, hu.pending, hu.now⟩

end Sys2Proof.Machine
end

section
/-! SUPPORT. Reset and the start of LOADING: what the end of an event adds to them, and what a part held in reset does
with a command. -/

namespace Sys2Proof.Machine

variable {s : State}

@[simp] theorem State.onExpiry_none (f : State → State) (s : State) : s.onExpiry none f = s := rfl

@[simp] theorem State.onExpiry_some (d : Nat) (f : State → State) (s : State) :
    s.onExpiry (some d) f = f (s.reach d) := rfl

/-- An image that is taken anew as it stands changes no entry. -/
theorem Crosspoint.take_self (x : Crosspoint) : x.take x.image x.computed = x := by
  simp [Crosspoint.take]

theorem Crosspoint.sendNext_of_nil {x : Crosspoint} (h : x.pending = []) : x.sendNext = x := by
  cases hs : x.sending <;> simp [Crosspoint.sendNext, h, hs]

theorem State.settleLamps_of_dark (hp : s.phase = .loading) (hl : s.tbk.lamps = Vector.replicate 16 LampImage.dark) :
    s.settleLamps = s := by
  have hn : (Vector.ofFn fun n => s.callLamp n) = s.tbk.lamps := by
    rw [hl]
    exact Vector.ext fun n hn => by simp [State.callLamp, hp, Phase.callLamps]
  simp only [State.settleLamps, hn]

theorem State.settleXp_of_loading (hp : s.phase = .loading) (hx : s.tbk.xp.pending = []) : s.settleXp = s := by
  have hi : s.xpImage = s.tbk.xp.image := by simp [State.xpImage, hp]
  have hc : s.xpComputed = s.tbk.xp.computed := by simp [State.xpComputed, hp]
  simp only [State.settleXp, hi, hc, Crosspoint.take_self, Crosspoint.sendNext_of_nil hx]

/-- In LOADING, with no lamp lit and no crosspoint entry pending, the end of an event settles the radio line alone. -/
theorem State.finish_of_loading (hp : s.phase = .loading) (hl : s.tbk.lamps = Vector.replicate 16 LampImage.dark)
    (hx : s.tbk.xp.pending = []) : s.finish = s.settleRadio := by
  rw [State.finish, State.settleLamps_of_dark hp hl, State.settleXp_of_loading hp hx]

/-- A part in reset, at a moment, with levels outside and commands waiting. -/
def State.resetAt (now : Nat) (pins : Pins) (q : List Instr) : State :=
  { State.reset with now := now, pins := pins, pending := q }

theorem State.hardReset_eq (s : State) : s.hardReset = State.resetAt s.now s.pins s.pending := rfl

theorem State.resetAt_finish (now : Nat) (pins : Pins) (q : List Instr) :
    (State.resetAt now pins q).finish = State.resetAt now pins q := by
  rw [State.finish_of_loading rfl rfl rfl]
  rfl

/-- The radio port of a part in reset with some MUTE commands of this event. -/
def Rport.muting (as : List (Fin 8)) : Rport :=
  { Rport.reset with fresh := as.map fun a => { addr := a, kind := .mute } }

theorem Rport.muting_isPending {a : Fin 8} {as : List (Fin 8)} (h : a ∉ as) (p : RadioCmd → Bool) :
    (Rport.muting as).isPending a p = false := by
  simp only [Rport.isPending, Rport.muting, Rport.reset, List.nil_append, List.any_map, List.any_eq_false]
  intro b hb
  have : b ≠ a := fun e => h (e ▸ hb)
  simp [this]

theorem Rport.muting_fe (as : List (Fin 8)) (a : Fin 8) : (Rport.muting as).fe[a] = FrontEnd.reset := by
  simp [Rport.muting, Rport.reset]

/-- A MUTE request for an address with none yet adds its command (R90). -/
theorem State.mute_muting {a : Fin 8} {as : List (Fin 8)} (hs : s.rport = Rport.muting as) (h : a ∉ as) :
    s.mute a = { s with rport := Rport.muting (as ++ [a]) } := by
  have hl : s.muteLine a = s.queueCmd { addr := a, kind := .mute } := by
    simp [State.muteLine, State.queueMute, hs, Rport.muting_isPending h]
  have hf : (s.fe a).muted = FrontEnd.reset := by
    rw [State.fe, hs, Rport.muting_fe]
    rfl
  have hq : (s.queueCmd { addr := a, kind := .mute }).rport = Rport.muting (as ++ [a]) := by
    simp [hs, Rport.muting]
  have he : (Rport.muting (as ++ [a])).fe.set a FrontEnd.reset = (Rport.muting (as ++ [a])).fe :=
    Vector.ext fun i hi => by simp [Rport.muting, Rport.reset]
  rw [State.mute, hl, hf, State.setFe, hq, he]
  rfl

theorem State.foldMute_muting {as l : List (Fin 8)} (hs : s.rport = Rport.muting as) (h : (as ++ l).Nodup) :
    l.foldl (fun s a => s.mute a) s = { s with rport := Rport.muting (as ++ l) } := by
  induction l generalizing s as with
  | nil =>
    rw [List.append_nil, ← hs]
    rfl
  | cons a l ih =>
    have ha : a ∉ as := fun hm => (List.nodup_append.mp h).2.2 a hm a List.mem_cons_self rfl
    rw [List.foldl_cons, State.mute_muting hs ha]
    have hl : as ++ a :: l = (as ++ [a]) ++ l := by simp
    rw [ih (as := as ++ [a]) rfl (hl ▸ h), hl]

theorem State.resetAt_startLoading (now : Nat) (pins : Pins) (q : List Instr) :
    (State.resetAt now pins q).startLoading =
      { State.resetAt now pins q with resetHeld := false, rport := Rport.muting (List.finRange 8) } :=
  State.foldMute_muting (s := { State.resetAt now pins q with resetHeld := false }) (as := []) rfl
    (List.nodup_finRange 8)

theorem Rport.muting_settled : ({ Rport.muting (List.finRange 8) with
    pending := byAddress (Rport.muting (List.finRange 8)).fresh, fresh := [] } : Rport).takeNext = Says.loadingRport := by
  decide

/-- The eight MUTE commands, the first of them going out (R25, R85). -/
theorem State.resetAt_startLoading_finish (now : Nat) (pins : Pins) (q : List Instr) :
    (State.resetAt now pins q).startLoading.finish =
      { State.resetAt now pins q with resetHeld := false, rport := Says.loadingRport } := by
  rw [State.resetAt_startLoading, State.finish_of_loading rfl rfl rfl, ← Rport.muting_settled]
  rfl

theorem State.restartPart_finish (s : State) : s.restartPart.finish =
    { State.reset with now := s.now, pins := s.pins, pending := s.pending, resetHeld := false,
                       rport := Says.loadingRport } :=
  State.resetAt_startLoading_finish s.now s.pins s.pending

/-- A command moves nothing of a part held in reset but its clock and the levels outside. -/
def State.StaysReset (u : State) (q : List Instr) : Prop := ∃ (now : Nat) (pins : Pins), u = State.resetAt now pins q

theorem State.staysReset_resetAt (now : Nat) (pins : Pins) (q : List Instr) :
    (State.resetAt now pins q).StaysReset q := ⟨now, pins, rfl⟩

/-- The timers of a part in reset are stopped. -/
theorem State.resetAt_timers (now : Nat) (pins : Pins) (q : List Instr) :
    let s := State.resetAt now pins q
    (∀ n : Fin 127, s.biu.origins[n] = none ∧ s.biu.roster[n] = none) ∧ (∀ j : Fin 96, s.plan.peers[j] = none) ∧
    (∀ i, s.ownEntry i = none) ∧ (∀ l, s.link l = none) ∧ (∀ b sp x, s.copyEntry b sp x = none) ∧
    (∀ a, s.fe a = FrontEnd.reset) ∧ (∀ k, s.layer k = Layer.reset) ∧ (∀ k, s.source k = none) ∧
    (∀ c : Fin 32, s.tally.contacts[c] = { accepted := false, timer := none }) ∧
    (∀ k : Fin 16, s.tbk.keys[k] = { accepted := false, timer := none }) ∧
    (∀ n x y, s.talker n x y = none) ∧ (∀ p, s.tbPort p = none) ∧ (∀ k, s.call k = none) ∧
    (∀ c : Fin 15, s.tbk.circuits[c] = none) := by
  simp [State.resetAt, State.reset, Biu.reset, Plan.reset, Rport.reset, Lsup.reset, Tally.reset, Tbk.reset, Line.empty,
    State.ownEntry, State.link, State.copyEntry, State.fe, State.layer, State.source, State.talker, State.line,
    State.tbPort, State.call]

theorem State.resetAt_hears (now : Nat) (pins : Pins) (q : List Instr) (p : BusPort) :
    (State.resetAt now pins q).hears p = false := rfl

theorem State.heardRun_of_deaf {p : BusPort} (h : s.hears p = false) (n : Nat) (b : Option Bulletin) :
    s.heardRun p n b = s := by simp [State.heardRun, h]

theorem State.contactLevel_resetAt (c : Fin 32) (x : Bool) (now : Nat) (pins : Pins) (q : List Instr) :
    ((State.resetAt now pins q).contactLevel c x).StaysReset q := by
  simp only [State.contactLevel]
  split
  · exact State.staysReset_resetAt now pins q
  · exact State.staysReset_resetAt now _ q

theorem State.keyLevel_resetAt (k : Fin 16) (x : Bool) (now : Nat) (pins : Pins) (q : List Instr) :
    ((State.resetAt now pins q).keyLevel k x).StaysReset q := by
  simp only [State.keyLevel]
  split
  · exact State.staysReset_resetAt now pins q
  · exact State.staysReset_resetAt now _ q

theorem exec_resetAt (c : Instr) (now : Nat) (pins : Pins) (q : List Instr) (hc : c ≠ .resetRelease) :
    ∃ u, exec c (State.resetAt now pins q) = done u ∧ u.StaysReset q := by
  have keep := State.staysReset_resetAt now pins q
  obtain ⟨hbiu, hpeer, hown, hlink, hcopy, hfe, hlayer, hsource, hcontact, hkey, htalker, hport, hcall, hcirc⟩ :=
    State.resetAt_timers now pins q
  cases c with
  | resetRelease => exact absurd rfl hc
  | hardReset => exact ⟨_, rfl, keep⟩
  | configurationRead m => exact ⟨_, rfl, keep⟩
  | sendAttemptStart p => exact ⟨_, rfl, keep⟩
  | receptionStart p => exact ⟨_, rfl, keep⟩
  | transmissionSuccess p | collision p | backoffExpiry p => cases p <;> exact ⟨_, rfl, keep⟩
  | receptionEnd p _ | presence p _ | planClaim p _ | planHold p _ | planYield p _ | sighting p _ | tallyState p _
  | lineJoin p _ | lineLeave p _ | talk p _ | followTalk p _ | callRing p _ | callAnswer p _ | callEnd p _
  | callKeep p _ | taskReply p _ | capture p _ | readStation p _ | readLink p _ | readPlan p _ | readTally p _
  | readLine p _ | readCounters p _ | setCounter p _ | setClass p _ | pinLink p _ | unpinLink p _ | moveLink p _
  | setMembership p _ | armCapture p _ | readCapture p _ | restart p _ | setSample p _ | unknownTask p _ =>
    refine ⟨State.heardRun p _ _ _, rfl, ?_⟩
    rw [State.heardRun_of_deaf (State.resetAt_hears now pins q p)]
    exact keep
  | presenceTimerExpiry | joinTimerExpiry | leaveTimerExpiry | overfullTimerExpiry | taskTimerExpiry
  | quarantineExpiry | followEntryExpiry | recentTaskExpiry => exact ⟨_, rfl, keep⟩
  | commandFrameSent => exact ⟨_, rfl, keep⟩
  | crosspointUpdateSent => exact ⟨_, rfl, keep⟩
  | report => exact ⟨_, rfl, keep⟩
  | tuneOutcome a n ok =>
    refine ⟨_, rfl, ?_⟩
    simp only [State.tuneAnswered, hfe]
    exact keep
  | contactLevelChange c x => exact ⟨_, rfl, State.contactLevel_resetAt c x now pins q⟩
  | keyLevelChange k x => exact ⟨_, rfl, State.keyLevel_resetAt k x now pins q⟩
  | originAgeExpiry n | rosterExpiry n =>
    refine ⟨_, rfl, ?_⟩
    simp only [hbiu, Option.map_none, State.onExpiry_none]
    exact keep
  | peerEntryExpiry j =>
    refine ⟨_, rfl, ?_⟩
    simp only [hpeer, Option.map_none, State.onExpiry_none]
    exact keep
  | claimRetryWaitExpiry i | claimWindowExpiry i | tentativeAllowanceExpiry i | claimRefreshExpiry i
  | holdRefreshExpiry i | yieldingAllowanceExpiry i | defendHoldOffExpiry i =>
    refine ⟨_, rfl, ?_⟩
    simp only [State.ownTimer, hown, Option.bind_none, State.onExpiry_none]
    exact keep
  | tuneTimerExpiry a =>
    refine ⟨_, rfl, ?_⟩
    simp only [hfe, FrontEnd.reset, State.onExpiry_none]
    exact keep
  | sampleTimerExpiry l | relocationHoldOffExpiry l | sightingHoldOffExpiry l | acquireRetryExpiry l =>
    refine ⟨_, rfl, ?_⟩
    simp only [State.linkTimer, hlink, Option.bind_none, State.onExpiry_none]
    exact keep
  | copyFilterExpiry o sp x =>
    refine ⟨_, rfl, ?_⟩
    simp only [hcopy, Option.map_none, State.onExpiry_none]
    exact keep
  | staleTimerExpiry k | unsetTimerExpiry k =>
    refine ⟨_, rfl, ?_⟩
    simp only [hlayer, Layer.reset, State.onExpiry_none]
    exact keep
  | contactDebounceExpiry c =>
    refine ⟨_, rfl, ?_⟩
    simp only [hcontact, State.onExpiry_none]
    exact keep
  | keyDebounceExpiry k =>
    refine ⟨_, rfl, ?_⟩
    simp only [hkey, State.onExpiry_none]
    exact keep
  | sourceRefreshExpiry k =>
    refine ⟨_, rfl, ?_⟩
    simp only [hsource, Option.bind_none, State.onExpiry_none]
    exact keep
  | talkerEntryExpiry n x y =>
    refine ⟨_, rfl, ?_⟩
    simp only [htalker, Option.bind_none, State.onExpiry_none]
    exact keep
  | talkRefreshExpiry p | followRefreshExpiry p | indicationTimerExpiry p =>
    refine ⟨_, rfl, ?_⟩
    simp only [hport, Option.bind_none, State.onExpiry_none]
    exact keep
  | ringTimerExpiry k | keepTimerExpiry k | callExpiry k =>
    refine ⟨_, rfl, ?_⟩
    simp only [hcall, Option.bind_none, State.onExpiry_none]
    exact keep
  | circuitExpiry c =>
    refine ⟨_, rfl, ?_⟩
    simp only [hcirc, Option.map_none, State.onExpiry_none]
    exact keep

/-- Settles O8: the end of the event adds nothing to a part in reset, and the values are those of `State.reset`. -/
theorem hardResetRestoresEverything : Obligations.HardResetRestoresEverything := by
  refine ⟨fun s => congrArg Host.Outcome.next (State.resetAt_finish s.now s.pins s.pending), ?_⟩
  simp [State.reset, Biu.reset, Plan.reset, Rport.reset, FrontEnd.reset, Lsup.reset, Tally.reset, Layer.reset,
    LampImage.dark, Tbk.reset, Line.empty, Mgmt.reset, CaptureRule.reset]

/-- Settles O9: the release queues the eight MUTE commands, every other command stays in reset, and outside reset a
release is an event without an effect. -/
theorem releaseBeginsLoading : Obligations.ReleaseBeginsLoading := by
  refine ⟨fun now pins q => congrArg Host.Outcome.next (State.resetAt_startLoading_finish now pins q),
    fun c now pins q hc => ?_, fun s h => ?_⟩
  · obtain ⟨u, he, now', pins', rfl⟩ := exec_resetAt c now pins q hc
    exact ⟨now', pins', he.trans (congrArg Host.Outcome.next (State.resetAt_finish now' pins' q))⟩
  · show done (if s.resetHeld then s.startLoading else s) = done s
    simp [h]

theorem readImage_of_no_mark {m : List Byte} (h : m.take 2 ≠ [0x6B, 0x14]) : readImage m = none := by
  have hm : markPasses m = false := by simpa [markPasses] using h
  simp [readImage, hm]

theorem no_mark_of_all_ones {m : List Byte} (h : ∀ b ∈ m, b = 0xFF) : m.take 2 ≠ [0x6B, 0x14] := by
  intro ht
  have hm : (0x6B : Byte) ∈ m := List.mem_of_mem_take (ht ▸ List.mem_cons_self)
  exact absurd (h _ hm) (by decide)

/-- Settles O11: the mark is the first test, and a memory that reads as all ones holds no byte of it. -/
theorem failingImageHalts : Obligations.FailingImageHalts := by
  refine ⟨fun m s hp hr hm => ?_, fun m => readImage_of_no_mark, fun m h => readImage_of_no_mark (no_mark_of_all_ones h)⟩
  show done (s.configurationRead m) = done s.enterHalted
  simp [State.configurationRead, hp, hr, hm]

/-- In LEAVING no offer is taken between events, so what a report does cannot fill the queue again. -/
theorem State.leaveIfEmpty_report_finish {e : QueueEntry} {x : Bool} (hp : s.phase = .leaving)
    (hl : s.biu.leaveOffers = false) (hq : s.biu.queue = []) :
    (s.report e x).leaveIfEmpty.finish =
      { State.reset with now := s.now, pins := s.pins, pending := s.pending, resetHeld := false,
                         rport := Says.loadingRport } := by
  have ev : Evolves Writes.all s (s.report e x) := State.report_evolves rfl rfl (Evolves.refl _ s)
  have hn := ev.shut (by simp [State.takesOffers, hp, hl])
  have hempty : (s.report e x).biu.queue = [] := List.length_eq_zero_iff.mp (by simpa [hq] using hn)
  rw [State.leaveIfEmpty, if_pos ⟨ev.phase.trans hp, hempty⟩, State.restartPart_finish, ev.now, ev.pins, ev.pending]

@[simp] theorem PortSet.erase_insert_empty (p : BusPort) : (PortSet.empty.insert p).erase p = PortSet.empty := by
  cases p <;> rfl

@[simp] theorem PortSet.isEmpty_empty : PortSet.empty.isEmpty = true := rfl

/-- Settles O14: both ends of the leave wait are the hard reset that begins LOADING. -/
theorem leaveWaitEndsInHardReset : Obligations.LeaveWaitEndsInHardReset := by
  constructor
  · intro d s hp hd
    show done (s.onExpiry s.biu.leaveTimer State.leaveOver) = _
    rw [hd, State.onExpiry_some, State.leaveOver, if_pos (by simpa using hp)]
    exact congrArg Host.Outcome.next (State.restartPart_finish (s.reach d))
  · intro p e s h hp hq hport hpend
    show done (s.txSuccess p) = _
    have hlive : State.liveEntry ((s.setPort p .idle).count .txSent (some e.bulletin.length)) e.age e.version =
        some e := by
      cases p <;> simp [State.liveEntry, Biu.setPort, hq]
    simp only [State.txSuccess, hport, QueueEntry.tx, State.finishTx, hlive, State.settlePort, hpend,
      PortSet.erase_insert_empty, PortSet.isEmpty_empty, if_true]
    refine congrArg Host.Outcome.next (State.leaveIfEmpty_report_finish hp ?_ ?_)
    · cases p <;> exact h.eventOver.1
    · cases p <;> simp [State.removeQueued, Biu.setPort, hq]

end Sys2Proof.Machine
end

section
/-! SUPPORT. The hard conflict test, the ranking, and the candidate search (R48, R50, R56 to R59). -/

namespace Sys2Proof.Machine

theorem conflictsHard_iff (g : Nat) (x y : Span) :
    conflictsHard g x y = true ↔ x.band = y.band ∧ x.low ≤ y.high + g ∧ y.low ≤ x.high + g := by
  simp [conflictsHard, and_assoc]

theorem conflictsHard_eq_false_iff (g : Nat) (x y : Span) :
    conflictsHard g x y = false ↔ (x.band = y.band → x.high + g < y.low ∨ y.high + g < x.low) := by
  rw [← Bool.not_eq_true, conflictsHard_iff, not_and]
  refine imp_congr_right fun _ => ?_
  omega

/-- The ranking in the order of its comparisons (R50). -/
theorem Rank.outranks_iff (x y : Rank) : x.outranks y = true ↔ y.cls < x.cls ∨ (x.cls = y.cls ∧
    ((x.held = true ∧ y.held = false) ∨
      (x.held = y.held ∧ (x.holder < y.holder ∨ (x.holder = y.holder ∧ x.link < y.link))))) := by
  unfold Rank.outranks
  by_cases hc : x.cls = y.cls
  · by_cases hh : x.held = y.held
    · by_cases ho : x.holder = y.holder
      · simp [hc, hh, ho]
      · simp [hc, hh, ho]
    · cases hx : x.held <;> cases hy : y.held <;> simp_all
  · simp [hc]

/-- Of two different ranks exactly one outranks the other. -/
theorem Rank.outranks_iff_not {x y : Rank} (h : x ≠ y) : x.outranks y = true ↔ y.outranks x = false := by
  have hne : ¬(x.cls = y.cls ∧ x.held = y.held ∧ x.holder = y.holder ∧ x.link = y.link) := by
    rintro ⟨hc, hh, ho, hl⟩
    exact h (by cases x; cases y; simp_all)
  rw [← Bool.not_eq_true, Rank.outranks_iff, Rank.outranks_iff]
  cases hx : x.held <;> cases hy : y.held <;> simp only [hx, hy, true_and, false_and, and_true, and_false,
    reduceCtorEq, false_or, or_false] at hne ⊢ <;> omega

theorem Rank.outranks_trans {x y z : Rank} (hxy : x.outranks y = true) (hyz : y.outranks z = true) :
    x.outranks z = true := by
  rw [Rank.outranks_iff] at *
  cases hx : x.held <;> cases hy : y.held <;> cases hz : z.held <;> simp only [hx, hy, hz, true_and, false_and,
    and_true, and_false, reduceCtorEq, false_or, or_false] at hxy hyz ⊢ <;> omega

/-- Settles O46: the test is symmetric in its spans, and the ranking is the strict order of its four comparisons. -/
theorem conflictsAndRanksAreDecided : Obligations.ConflictsAndRanksAreDecided :=
  ⟨conflictsHard_comm, fun g x y _ _ => conflictsHard_eq_false_iff g x y, Rank.outranks_iff,
    fun _ _ => Rank.outranks_iff_not, fun _ _ _ => Rank.outranks_trans⟩

/-! ## The lows of a run -/

/-- Dividing by the step counts the lows of a run that fit. -/
theorem lows_bound {start step width high k : Nat} (hs : 1 ≤ step) (hf : start + width ≤ high + 1) :
    k < (high + 1 - (start + width)) / step + 1 ↔ start + k * step + width ≤ high + 1 := by
  rw [Nat.lt_add_one_iff, Nat.le_div_iff_mul_le hs]
  omega

theorem mem_lowsFrom {start step width high low : Nat} (hs : 1 ≤ step) :
    low ∈ lowsFrom start step width high ↔
      ∃ k, low = start + k * step ∧ start + k * step + width ≤ high + 1 := by
  unfold lowsFrom
  split
  · rename_i hf
    simp only [List.mem_map, List.mem_range, lows_bound hs hf]
    exact ⟨fun ⟨k, hk, e⟩ => ⟨k, e.symm, hk⟩, fun ⟨k, e, hk⟩ => ⟨k, hk, e.symm⟩⟩
  · rename_i hf
    simp only [List.not_mem_nil, false_iff, not_exists, not_and]
    intro k _ hk
    omega

/-- What stands before the `k`th low of a run stands at an earlier step. -/
theorem lowsFrom_split {start step width high low : Nat} {l₁ l₂ : List Nat}
    (h : lowsFrom start step width high = l₁ ++ low :: l₂) :
    low = start + l₁.length * step ∧ ∀ j < l₁.length, start + j * step ∈ l₁ := by
  unfold lowsFrom at h
  split at h
  · have hget (j : Nat) (hj : j < (l₁ ++ low :: l₂).length) : (l₁ ++ low :: l₂)[j] = start + j * step := by
      simp [← h]
    refine ⟨?_, fun j hj => ?_⟩
    · simpa using hget l₁.length (by simp)
    · have := hget j (by simp; omega)
      rw [List.getElem_append_left hj] at this
      exact this ▸ List.getElem_mem hj
  · simp at h

theorem lowsFrom_filter_split {start step width high low : Nat} {p : Nat} {l₁ l₂ : List Nat}
    (h : (lowsFrom start step width high).filter (fun x => decide (x < p)) = l₁ ++ low :: l₂) :
    ∃ k, low = start + k * step ∧ ∀ j < k, start + j * step ∈ l₁ := by
  obtain ⟨m₁, m₂, hm, h₁, h₂⟩ := List.filter_eq_append_iff.mp h
  obtain ⟨n₁, n₂, hn, hn₁, hp, hn₂⟩ := List.filter_eq_cons_iff.mp h₂
  rw [hn, ← List.append_assoc] at hm
  obtain ⟨hlow, hbefore⟩ := lowsFrom_split hm
  refine ⟨_, hlow, fun j hj => ?_⟩
  have hlt : start + j * step < p := by
    have hp' : low < p := by simpa using hp
    have : j * step ≤ (m₁ ++ n₁).length * step := Nat.mul_le_mul_right _ (Nat.le_of_lt hj)
    omega
  rcases List.mem_append.mp (hbefore j hj) with hm | hm
  · exact h₁ ▸ List.mem_filter.mpr ⟨hm, by simpa using hlt⟩
  · exact absurd (by simpa using hlt) (hn₁ _ hm)

/-! ## The search -/

variable {s : State} {d : LinkDesc} {pointer : Nat} {excluded : List Span}

theorem State.acceptable_iff {sp : Span} : s.acceptable excluded sp = true ↔
    (∀ x ∈ s.planSpans, s.conflicts x sp = false) ∧ s.intermodConflict sp = false ∧
      (∀ q ∈ s.plan.quarantine, overlaps q.span sp = false) ∧ sp ∉ excluded := by
  simp [State.acceptable, and_assoc]

theorem State.mem_peers {e : PeerEntry} : e ∈ s.peers ↔ ∃ j : Fin 96, s.plan.peers[j] = some e := by
  simp only [State.peers, List.mem_filterMap, id, exists_eq_right, Vector.mem_toList_iff, Vector.mem_iff_getElem]
  exact ⟨fun ⟨i, hi, h⟩ => ⟨⟨i, hi⟩, h⟩, fun ⟨j, h⟩ => ⟨j.val, j.isLt, h⟩⟩

theorem State.own_mem_planSpans {i : Fin 16} {e : OwnEntry} (h : s.ownEntry i = some e) : e.span ∈ s.planSpans :=
  List.mem_append_left _ (List.mem_map_of_mem (State.mem_owns.mpr ⟨i, h⟩))

theorem State.peer_mem_planSpans {j : Fin 96} {e : PeerEntry} (h : s.plan.peers[j] = some e) :
    e.span ∈ s.planSpans :=
  List.mem_append_right _ (List.mem_map_of_mem (State.mem_peers.mpr ⟨j, h⟩))

theorem State.searchStart_overfull (h : s.plan.overfull = true) : s.searchStart d pointer excluded = .full := by
  simp [State.searchStart, h]

theorem State.searchStart_span_iff {sp : Span} : s.searchStart d pointer excluded = .span sp ↔
    s.plan.overfull = false ∧
      ((searchLows d pointer).map (candidateAt d)).find? (s.acceptable excluded) = some sp := by
  cases h : s.plan.overfull
  · cases hf : ((searchLows d pointer).map (candidateAt d)).find? (s.acceptable excluded) <;>
      simp [State.searchStart, h, hf]
  · simp [State.searchStart, h]

theorem State.searchStart_full_iff : s.searchStart d pointer excluded = .full ↔ s.plan.overfull = true := by
  cases h : s.plan.overfull
  · cases hf : ((searchLows d pointer).map (candidateAt d)).find? (s.acceptable excluded) <;>
      simp [State.searchStart, h, hf]
  · simp [State.searchStart, h]

theorem State.searchStart_ne_current : s.searchStart d pointer excluded ≠ .current := by
  unfold State.searchStart
  repeat' split
  all_goals simp

/-- The low of the answer in the list of lows, with every low before it refused. -/
theorem State.searchStart_low {sp : Span} (h : s.searchStart d pointer excluded = .span sp) :
    ∃ low l₁ l₂, searchLows d pointer = l₁ ++ low :: l₂ ∧ sp = candidateAt d low ∧
      s.acceptable excluded sp = true ∧ ∀ x ∈ l₁, s.acceptable excluded (candidateAt d x) = false := by
  obtain ⟨-, hf⟩ := State.searchStart_span_iff.mp h
  obtain ⟨ha, as, bs, hl, hbefore⟩ := List.find?_eq_some_iff_append.mp hf
  obtain ⟨l₁, l₂', hsplit, rfl, hr⟩ := List.map_eq_append_iff.mp hl
  obtain ⟨low, l₂, rfl, rfl, rfl⟩ := List.map_eq_cons_iff.mp hr
  exact ⟨low, l₁, l₂, hsplit, rfl, ha, fun x hx => by simpa using hbefore _ (List.mem_map_of_mem hx)⟩

/-- The answer's place: the first acceptable low of the pointer's run, or of the window's run below the pointer. -/
theorem State.searchStart_first {sp : Span} (hstep : 1 ≤ d.step) (h : s.searchStart d pointer excluded = .span sp) :
    (∃ k : Nat, sp = candidateAt d (pointer + k * d.step) ∧ pointer + k * d.step + d.width ≤ d.winHigh + 1 ∧
        ∀ j < k, s.acceptable excluded (candidateAt d (pointer + j * d.step)) = false) ∨
      ((∀ k : Nat, pointer + k * d.step + d.width ≤ d.winHigh + 1 →
          s.acceptable excluded (candidateAt d (pointer + k * d.step)) = false) ∧
        ∃ k : Nat, d.winLow + k * d.step < pointer ∧ sp = candidateAt d (d.winLow + k * d.step) ∧
          ∀ j < k, s.acceptable excluded (candidateAt d (d.winLow + j * d.step)) = false) := by
  obtain ⟨low, l₁, l₂, hsplit, rfl, -, hbefore⟩ := State.searchStart_low h
  rcases List.append_eq_append_iff.mp hsplit with ⟨m, rfl, hrest⟩ | ⟨m, hrun, hrest⟩
  · -- the window's run: the whole pointer's run has been refused
    refine .inr ⟨fun k hk => hbefore _ (List.mem_append_left _ ((mem_lowsFrom hstep).mpr ⟨k, rfl, hk⟩)), ?_⟩
    obtain ⟨k, rfl, hk⟩ := lowsFrom_filter_split hrest
    have hm : d.winLow + k * d.step ∈
        (lowsFrom d.winLow d.step d.width d.winHigh).filter fun x => decide (x < pointer) := hrest ▸ by simp
    exact ⟨k, by simpa using (List.mem_filter.mp hm).2, rfl,
      fun j hj => hbefore _ (List.mem_append_right _ (hk j hj))⟩
  · cases m with
    | nil =>
      -- the pointer's run ends here, and the answer is the first of the window's
      simp only [List.append_nil, List.nil_append] at hrun hrest
      subst hrun
      refine .inr ⟨fun k hk => hbefore _ ((mem_lowsFrom hstep).mpr ⟨k, rfl, hk⟩), ?_⟩
      obtain ⟨k, rfl, hk⟩ := lowsFrom_filter_split (l₁ := []) hrest.symm
      have hm : d.winLow + k * d.step ∈
          (lowsFrom d.winLow d.step d.width d.winHigh).filter fun x => decide (x < pointer) := hrest ▸ by simp
      exact ⟨k, by simpa using (List.mem_filter.mp hm).2, rfl, fun j hj => absurd (hk j hj) (by simp)⟩
    | cons y m =>
      obtain ⟨rfl, -⟩ : low = y ∧ _ := by simpa using hrest
      obtain ⟨rfl, hk⟩ := lowsFrom_split hrun
      have hm : pointer + l₁.length * d.step ∈ lowsFrom pointer d.step d.width d.winHigh := hrun ▸ by simp
      obtain ⟨k, he, hfit⟩ := (mem_lowsFrom hstep).mp hm
      exact .inl ⟨l₁.length, rfl, he ▸ hfit, fun j hj => hbefore _ (hk j hj)⟩

theorem mem_searchLows_pointer (hstep : 1 ≤ d.step) {k : Nat} (h : pointer + k * d.step + d.width ≤ d.winHigh + 1) :
    pointer + k * d.step ∈ searchLows d pointer :=
  List.mem_append_left _ ((mem_lowsFrom hstep).mpr ⟨k, rfl, h⟩)

theorem mem_searchLows_window (hstep : 1 ≤ d.step) {k : Nat} (hp : d.winLow + k * d.step < pointer)
    (h : d.winLow + k * d.step + d.width ≤ d.winHigh + 1) : d.winLow + k * d.step ∈ searchLows d pointer :=
  List.mem_append_right _ (List.mem_filter.mpr ⟨(mem_lowsFrom hstep).mpr ⟨k, rfl, h⟩, by simpa using hp⟩)

theorem State.searchStart_of_acceptable {low : Nat} (ho : s.plan.overfull = false) (hm : low ∈ searchLows d pointer)
    (ha : s.acceptable excluded (candidateAt d low) = true) :
    ∃ sp : Span, s.searchStart d pointer excluded = .span sp := by
  have hf : (((searchLows d pointer).map (candidateAt d)).find? (s.acceptable excluded)).isSome = true :=
    List.find?_isSome.mpr ⟨_, List.mem_map_of_mem hm, ha⟩
  obtain ⟨sp, hsp⟩ := Option.isSome_iff_exists.mp hf
  exact ⟨sp, State.searchStart_span_iff.mpr ⟨ho, hsp⟩⟩

/-- Settles O47: the answer is the first acceptable candidate of the two runs, in the order in which they are examined. -/
theorem searchAnswersAnAcceptableSpan : Obligations.SearchAnswersAnAcceptableSpan := by
  intro d pointer excluded s hwidth hstep hlow hfit
  refine ⟨State.searchStart_full_iff, fun sp h => ?_, fun ho h => ?_, State.searchStart_ne_current⟩
  · have hplace := State.searchStart_first hstep h
    have hacc : s.acceptable excluded sp = true := by
      obtain ⟨low, l₁, l₂, -, rfl, ha, -⟩ := State.searchStart_low h
      exact ha
    obtain ⟨hspans, him, hquar, hexcl⟩ := State.acceptable_iff.mp hacc
    have hwin : ∃ low, sp = candidateAt d low ∧ d.winLow ≤ low ∧ low + d.width ≤ d.winHigh + 1 := by
      rcases hplace with ⟨k, he, hk, -⟩ | ⟨-, k, hk, he, -⟩
      · exact ⟨_, he, by omega, hk⟩
      · exact ⟨_, he, by omega, by omega⟩
    obtain ⟨low, he, hge, hle⟩ := hwin
    refine ⟨by simp [he, candidateAt], by simpa [he, candidateAt] using hge, by simp [he, candidateAt]; omega,
      by simp [he, candidateAt]; omega, fun i e hi => hspans _ (State.own_mem_planSpans hi),
      fun j e hj => hspans _ (State.peer_mem_planSpans hj), hquar, hexcl, him, ?_⟩
    rcases hplace with ⟨k, he, -, hk⟩ | hw
    · exact .inl ⟨k, he, hk⟩
    · exact .inr hw
  · rcases h with ⟨k, hk, ha⟩ | ⟨k, hp, hk, ha⟩
    · exact State.searchStart_of_acceptable ho (mem_searchLows_pointer hstep hk) ha
    · exact State.searchStart_of_acceptable ho (mem_searchLows_window hstep hp hk) ha

end Sys2Proof.Machine
end

section
/-! SUPPORT. The frames the statements share, as relations: they hold of a state and itself, compose, and survive the end
of an event; and the steps of the receive path keep them. -/

namespace Sys2Proof.Says

open Sys2Proof.Machine

variable {s t u : State}

theorem stationKept.refl (s : State) : stationKept s s := ⟨rfl, rfl, rfl, rfl, rfl, rfl⟩

theorem stationKept.trans (a : stationKept s t) (b : stationKept t u) : stationKept s u := by
  obtain ⟨a1, a2, a3, a4, a5, a6⟩ := a
  obtain ⟨b1, b2, b3, b4, b5, b6⟩ := b
  exact ⟨b1.trans a1, b2.trans a2, b3.trans a3, b4.trans a4, b5.trans a5, b6.trans a6⟩

theorem talkKept.of_eq (h : t.tbk = s.tbk) : talkKept s t := by
  unfold talkKept
  simp only [h, and_self]

theorem talkKept.trans (a : talkKept s t) (b : talkKept t u) : talkKept s u := by
  obtain ⟨a1, a2, a3, a4, a5, a6⟩ := a
  obtain ⟨b1, b2, b3, b4, b5, b6⟩ := b
  exact ⟨b1.trans a1, b2.trans a2, b3.trans a3, b4.trans a4, b5.trans a5, b6.trans a6⟩

theorem radioKept.of_eq (h : t.rport = s.rport) : radioKept s t := by
  unfold radioKept
  simp only [h, and_self]

theorem radioKept.trans (a : radioKept s t) (b : radioKept t u) : radioKept s u :=
  ⟨b.1.trans a.1, b.2.trans a.2⟩

theorem recordsKept.trans (a : recordsKept s t) (b : recordsKept t u) : recordsKept s u := by
  obtain ⟨a1, a2, a3, a4, a5, a6⟩ := a
  obtain ⟨b1, b2, b3, b4, b5, b6⟩ := b
  exact ⟨b1.trans a1, b2.trans a2, b3.trans a3, b4.trans a4, a5.trans b5, a6.trans b6⟩

theorem recordsKept.refl (s : State) : recordsKept s s :=
  ⟨rfl, rfl, rfl, rfl, talkKept.of_eq rfl, radioKept.of_eq rfl⟩

end Sys2Proof.Says

namespace Sys2Proof.Machine

open Says

variable {w : Writes} {s t u : State}

/-! ## The end of an event -/

theorem byAddress_nil : byAddress [] = [] := by simp [byAddress]

theorem mem_byAddress {c : RadioCmd} {l : List RadioCmd} : c ∈ byAddress l ↔ c ∈ l := by
  simp [byAddress]

/-- The line takes the oldest pending command and no other (R85). -/
theorem commands_takeNext {x : Rport} (h : x.fresh = []) : commands x.takeNext = commands x := by
  unfold Rport.takeNext
  split
  · rename_i hs hp
    simp [commands, hs, hp, h]
  · rfl

theorem State.commands_finish (s : State) : commands s.finish.rport = commands s.rport := by
  show commands (Rport.takeNext _) = _
  rw [commands_takeNext rfl]
  simp [commands, byAddress_nil, State.settleXp, State.settleLamps]

theorem State.finish_stationKept (s : State) : stationKept s s.finish := by
  unfold stationKept
  simp

theorem State.finish_talkKept (s : State) : talkKept s s.finish := by
  unfold talkKept
  simp

theorem State.finish_radioKept (s : State) : radioKept s s.finish := ⟨by simp, s.commands_finish⟩

theorem State.finish_recordsKept (s : State) : recordsKept s s.finish :=
  ⟨by simp, by simp, by simp, by simp, s.finish_talkKept, s.finish_radioKept⟩

theorem Evolves.stationKept (e : Evolves w s t) : stationKept s t :=
  ⟨e.phase, e.resetHeld, e.faultLine, e.pins, e.cfg, e.pending⟩

theorem Arrived.stationKept (a : Arrived s t) : stationKept s t :=
  ⟨a.phase, a.resetHeld, a.faultLine, a.pins, a.cfg, a.pending⟩

theorem Arrived.recordsKept (a : Arrived s t) : recordsKept s t :=
  ⟨a.roster, a.plan, a.lsup, a.tally, talkKept.of_eq a.tbk, radioKept.of_eq a.rport⟩

theorem Captured.stationKept (a : Captured s t) : stationKept s t :=
  ⟨a.phase, a.resetHeld, a.faultLine, a.pins, a.cfg, a.pending⟩

theorem Captured.recordsKept (a : Captured s t) : recordsKept s t :=
  ⟨a.roster, a.plan, a.lsup, a.tally, talkKept.of_eq a.tbk, radioKept.of_eq a.rport⟩

/-! ## The crosspoint at the end of an event (R176) -/

/-- The entry of the update being sent. -/
def Crosspoint.isSending (x : Crosspoint) (n : Fin 20) : Bool := x.sending.any fun u => u.1 == n

theorem Crosspoint.change_of_sending {x : Crosspoint} {n : Fin 20} (h : x.isSending n = true) :
    x.change n = { x with again := true } := if_pos h

theorem Crosspoint.change_of_pending {x : Crosspoint} {n : Fin 20} (h : x.isSending n = false) (hn : n ∈ x.pending) :
    x.change n = x :=
  (if_neg (by rw [← Crosspoint.isSending, h]; simp)).trans (if_pos (by simpa using hn))

theorem Crosspoint.change_of_new {x : Crosspoint} {n : Fin 20} (h : x.isSending n = false) (hn : n ∉ x.pending) :
    x.change n = { x with pending := x.pending ++ [n] } :=
  (if_neg (by rw [← Crosspoint.isSending, h]; simp)).trans (if_neg (by simpa using hn))

/-- What the changes of some entries leave: the entry being sent waits for its update, the others join the list. -/
theorem Crosspoint.foldl_change (x : Crosspoint) (p : Fin 20 → Prop) [DecidablePred p] (l : List (Fin 20))
    (hl : l.Nodup) :
    l.foldl (fun y n => if p n then y else y.change n) x =
      { x with
        pending := x.pending ++ l.filter fun n => decide (¬p n) && !x.isSending n && !x.pending.contains n
        again := x.again || l.any fun n => decide (¬p n) && x.isSending n } := by
  induction l generalizing x with
  | nil => simp
  | cons n l ih =>
    obtain ⟨hn, hl⟩ := List.nodup_cons.mp hl
    rw [List.foldl_cons]
    by_cases hp : p n
    · rw [if_pos hp, ih x hl]
      simp [hp]
    · rw [if_neg hp]
      cases hs : x.isSending n
      · by_cases hc : n ∈ x.pending
        · rw [Crosspoint.change_of_pending hs hc, ih x hl]
          simp [hp, hs, hc]
        · have hf : (l.filter fun m => decide (¬p m) && !x.isSending m && !(x.pending ++ [n]).contains m) =
              l.filter fun m => decide (¬p m) && !x.isSending m && !x.pending.contains m :=
            List.filter_congr fun m hm => by
              have hne : m ≠ n := fun e => hn (e ▸ hm)
              simp [hne]
          rw [Crosspoint.change_of_new hs hc, ih _ hl]
          show ({ x with pending := (x.pending ++ [n]) ++ (l.filter fun m =>
            decide (¬p m) && !x.isSending m && !(x.pending ++ [n]).contains m), again := _ } : Crosspoint) = _
          have hg : ((n :: l).filter fun m => decide (¬p m) && !x.isSending m && !x.pending.contains m) =
              n :: l.filter fun m => decide (¬p m) && !x.isSending m && !x.pending.contains m :=
            List.filter_cons_of_pos (by simp [hp, hs, hc])
          have hy : ((n :: l).any fun m => decide (¬p m) && x.isSending m) =
              l.any fun m => decide (¬p m) && x.isSending m := by simp [hs]
          rw [hf, hg, hy, List.append_assoc, List.singleton_append]
          rfl
      · have hg : ((n :: l).filter fun m => decide (¬p m) && !x.isSending m && !x.pending.contains m) =
            l.filter fun m => decide (¬p m) && !x.isSending m && !x.pending.contains m :=
          List.filter_cons_of_neg (by simp [hs])
        have hy : ((n :: l).any fun m => decide (¬p m) && x.isSending m) = true := by simp [hp, hs]
        rw [Crosspoint.change_of_sending hs, ih _ hl, hg, hy, Bool.or_true, Bool.true_or]
        rfl

/-- The crosspoint at the end of an event, before a free line sends. -/
theorem State.xp_taken (u : State) : u.tbk.xp.take u.xpImage u.xpComputed =
    { image := u.xpImage, computed := u.xpComputed, pending := pendingEntries u, sending := u.tbk.xp.sending,
      again := u.tbk.xp.again || (List.finRange 20).any fun n =>
        decide (u.tbk.xp.image[n] ≠ u.xpImage[n]) && u.tbk.xp.isSending n } := by
  unfold Crosspoint.take
  rw [Crosspoint.foldl_change _ _ _ (List.nodup_finRange 20)]
  rfl

theorem State.finish_xp (u : State) : u.finish.tbk.xp = (u.tbk.xp.take u.xpImage u.xpComputed).sendNext := rfl

/-- A busy line: the entry it sends waits for its update where the event has changed it. -/
theorem State.finish_xp_of_sending {x : Fin 20 × XEntry} (h : u.tbk.xp.sending = some x) : u.finish.tbk.xp =
    { image := u.xpImage, computed := u.xpComputed, pending := pendingEntries u, sending := some x,
      again := u.tbk.xp.again || decide (u.tbk.xp.image[x.1] ≠ u.xpImage[x.1]) } := by
  have ha : ((List.finRange 20).any fun n => decide (u.tbk.xp.image[n] ≠ u.xpImage[n]) && u.tbk.xp.isSending n) =
      decide (u.tbk.xp.image[x.1] ≠ u.xpImage[x.1]) := by
    rw [Bool.eq_iff_iff]
    simp [Crosspoint.isSending, h]
  rw [State.finish_xp, State.xp_taken, h, ha]
  rfl

theorem State.finish_xp_of_nil (h : u.tbk.xp.sending = none) (hp : pendingEntries u = []) : u.finish.tbk.xp =
    { image := u.xpImage, computed := u.xpComputed, pending := [], sending := none, again := u.tbk.xp.again } := by
  have ha : ((List.finRange 20).any fun n => decide (u.tbk.xp.image[n] ≠ u.xpImage[n]) && u.tbk.xp.isSending n) =
      false := by simp [Crosspoint.isSending, h]
  rw [State.finish_xp, State.xp_taken, h, hp, ha, Bool.or_false]
  rfl

theorem State.finish_xp_of_cons {n : Fin 20} {rest : List (Fin 20)} (h : u.tbk.xp.sending = none)
    (hp : pendingEntries u = n :: rest) : u.finish.tbk.xp =
    { image := u.xpImage, computed := u.xpComputed, pending := rest, sending := some (n, u.xpImage[n]),
      again := false } := by
  rw [State.finish_xp, State.xp_taken, h, hp]
  rfl

theorem State.finish_xp_image (u : State) : u.finish.tbk.xp.image = u.xpImage := by
  rw [State.finish_xp, (Crosspoint.sendNext_contents _).1, (Crosspoint.take_contents _ _ _).1]

theorem State.finish_xp_computed (u : State) : u.finish.tbk.xp.computed = u.xpComputed := by
  rw [State.finish_xp, (Crosspoint.sendNext_contents _).2, (Crosspoint.take_contents _ _ _).2]

theorem State.finish_lamps (u : State) : u.finish.tbk.lamps = Vector.ofFn fun n => u.callLamp n := rfl

theorem Rport.takeNext_pending {x : Rport} (h : x.takeNext.sending = none) : x.takeNext.pending = [] := by
  cases hs : x.sending <;> cases hp : x.pending <;> simp_all [Rport.takeNext]

/-- A free radio line has nothing to take (R85). -/
theorem State.finish_line_free (h : u.finish.rport.sending = none) : u.finish.rport.pending = [] :=
  Rport.takeNext_pending h

/-! ## The offer (R8, R9, R11) -/

theorem State.offer_of_shut {o : Offer} (h : s.takesOffers = false) : s.offer o = (s, none) := by
  simp [State.offer, h]

theorem State.takesOffers_of_active (h : s.phase = .active) : s.takesOffers = true := by
  simp [State.takesOffers, h]

theorem State.takesOffers_of_inactive (h : s.phase ≠ .active) (hl : s.phase = .leaving → s.biu.leaveOffers = false) :
    s.takesOffers = false := by
  unfold State.takesOffers
  split
  · rename_i hp; exact absurd hp h
  · rename_i hp; exact hl hp
  all_goals rfl

theorem Offer.supersedes_eq_false {o : Offer} {e : QueueEntry} (h : ∀ (l : Fin 8) (sp : Span),
    o.key = some (.plan .planYield l sp) → e.key ≠ some (.plan .planClaim l sp) ∧ e.key ≠ some (.plan .planHold l sp)) :
    o.supersedes e = false := by
  unfold Offer.supersedes
  split
  · rename_i l sp hk
    obtain ⟨hc, hh⟩ := h l sp hk
    simp [hc, hh]
  · rfl

theorem State.dropSuperseded_of_removesNone {o : Offer} (h : removesNone s o) : s.dropSuperseded o = s := by
  have hf : (s.biu.queue.filter fun e => !o.supersedes e) = s.biu.queue :=
    List.filter_eq_self.mpr fun e he => by rw [Offer.supersedes_eq_false fun l sp hk => h l sp hk e he]; rfl
  rw [State.dropSuperseded, hf]
  rfl

theorem State.queued_some (k : SubjectKey) : s.queued (some k) = s.biu.queue.find? fun e => e.key == some k := by
  simp [State.queued]

theorem State.queued_eq_none {k : Option SubjectKey} (h : k = none ∨ ∀ e ∈ s.biu.queue, e.key ≠ k) :
    s.queued k = none := by
  refine List.find?_eq_none.mpr fun e he => ?_
  rcases h with rfl | h
  · simp
  · simp [h e he]

/-- With nothing to remove and no entry of its subject, an offer is a new entry or refused. -/
theorem State.offer_eq_addEntry {o : Offer} (ht : s.takesOffers = true) (hr : removesNone s o)
    (hk : o.key = none ∨ ∀ e ∈ s.biu.queue, e.key ≠ o.key) : s.offer o = s.addEntry o := by
  simp [State.offer, ht, State.dropSuperseded_of_removesNone hr, State.queued_eq_none hk]

theorem State.appendEntry_eq (o : Offer) (s : State) : s.appendEntry o =
    { s with biu := { s.biu with queue := s.biu.queue ++ [newEntry s o], nextAge := s.biu.nextAge + 1 } } := rfl

theorem State.addEntry_of_room {o : Offer} (h : s.biu.queue.length < 16) : s.addEntry o =
    ({ s with biu := { s.biu with queue := s.biu.queue ++ [newEntry s o], nextAge := s.biu.nextAge + 1 } },
      some s.biu.nextAge) := by
  rw [State.addEntry, if_pos h, State.appendEntry_eq]

theorem State.addEntry_refused {o : Offer} (h : 16 ≤ s.biu.queue.length)
    (ho : o.urgent = false ∨ youngestNormal s = none) : s.addEntry o = (s.refuseOffer o, none) := by
  have hn : ¬s.biu.queue.length < 16 := by omega
  rw [State.addEntry, if_neg hn]
  split
  · rename_i hu
    have hv : s.victim = none := ho.resolve_left (by simp [hu])
    simp [hv]
  · rfl

theorem State.addEntry_evicting {o : Offer} {v : QueueEntry} (h : 16 ≤ s.biu.queue.length) (hu : o.urgent = true)
    (hv : youngestNormal s = some v) : s.addEntry o = ((s.evict v).appendEntry o, some s.biu.nextAge) := by
  have hn : ¬s.biu.queue.length < 16 := by omega
  have hv' : s.victim = some v := hv
  rw [State.addEntry, if_neg hn, if_pos hu, hv']

/-- An entry of the same subject takes the new content in its place (R9). -/
theorem State.offer_replacing {o : Offer} {e : QueueEntry} (ht : s.takesOffers = true) (hr : removesNone s o)
    (he : s.queued o.key = some e) (hu : o.urgent = false ∨ e.urgent = true) :
    s.offer o = (s.replaceQueued e.age o, some e.age) := by
  have hb : (o.urgent && !e.urgent) = false := by rcases hu with h | h <;> simp [h]
  simp [State.offer, ht, State.dropSuperseded_of_removesNone hr, he, hb]

/-- A NORMAL entry of the same subject gives way to an URGENT offer (R9). -/
theorem State.offer_outranking {o : Offer} {e : QueueEntry} (ht : s.takesOffers = true) (hr : removesNone s o)
    (he : s.queued o.key = some e) (hu : o.urgent = true) (hn : e.urgent = false) :
    s.offer o = (s.removeQueued e.age).addEntry o := by
  simp [State.offer, ht, State.dropSuperseded_of_removesNone hr, he, hu, hn]

theorem State.removeQueued_lt {e : QueueEntry} (he : e ∈ s.biu.queue) :
    (s.removeQueued e.age).biu.queue.length < s.biu.queue.length :=
  List.length_filter_lt_length_iff_exists.mpr ⟨e, he, by simp⟩

/-- The offer of a PLAN_YIELD begins by removing the claim and the hold of its entry (R9). -/
theorem State.offer_yield {o : Offer} {l : Fin 8} {sp : Span} (ht : s.takesOffers = true)
    (hk : o.key = some (.plan .planYield l sp)) : s.offer o =
      State.offer o { s with biu := { s.biu with queue := s.biu.queue.filter fun e =>
        !(e.key == some (.plan .planClaim l sp)) && !(e.key == some (.plan .planHold l sp)) } } := by
  have hs : s.dropSuperseded o = { s with biu := { s.biu with queue := s.biu.queue.filter fun e =>
      !(e.key == some (.plan .planClaim l sp)) && !(e.key == some (.plan .planHold l sp)) } } := by
    simp [State.dropSuperseded, Offer.supersedes, hk, State.setQueue]
  have hn : removesNone (s.dropSuperseded o) o := by
    intro l' sp' hk'
    obtain ⟨rfl, rfl⟩ : l = l' ∧ sp = sp' := by simpa [hk] using hk'
    intro e he
    rw [hs] at he
    simpa using (List.mem_filter.mp he).2
  have hd := State.dropSuperseded_of_removesNone hn
  have ht' : (s.dropSuperseded o).takesOffers = true := ht
  rw [← hs]
  simp only [State.offer, ht, ht', hd, if_true]

/-! ### Who is told of an eviction (R11) -/

theorem State.captureReport_of_none {k : Fin 4} {age : Nat} {d : Delivery} (h : s.mgmt.rules[k].held = none) :
    s.captureReport k age d = s := by
  unfold State.captureReport
  dsimp only
  rw [h]

theorem State.captureReport_of_held {k : Fin 4} {age : Nat} {d : Delivery} {h : HeldCapture}
    (hh : s.mgmt.rules[k].held = some h) : s.captureReport k age d =
      if h.age = some age then s.setRule k { s.mgmt.rules[k] with held := some { h with delivery := d } } else s := by
  unfold State.captureReport
  dsimp only
  rw [hh]
  rfl

/-- The rule whose held capture is on the reported entry takes the delivery state (R189, log 25). -/
theorem State.captureReport_rules (k : Fin 4) (age : Nat) (d : Delivery) (s : State) (j : Fin 4) :
    (s.captureReport k age d).mgmt.rules[j] = match s.mgmt.rules[j].held with
      | some h => if k = j ∧ h.age = some age
          then { s.mgmt.rules[j] with held := some { h with delivery := d } } else s.mgmt.rules[j]
      | none => s.mgmt.rules[j] := by
  by_cases hkj : k = j
  · subst hkj
    cases hh : s.mgmt.rules[k].held with
    | none => rw [State.captureReport_of_none hh]
    | some h =>
      rw [State.captureReport_of_held hh]
      by_cases ha : h.age = some age <;> simp [ha]
  · have hv : k.val ≠ j.val := fun e => hkj (Fin.ext e)
    have hs : (s.captureReport k age d).mgmt.rules[j] = s.mgmt.rules[j] := by
      cases hk : s.mgmt.rules[k].held with
      | none => rw [State.captureReport_of_none hk]
      | some h =>
        rw [State.captureReport_of_held hk]
        by_cases ha : h.age = some age <;> simp [ha, hv]
    rw [hs]
    cases s.mgmt.rules[j].held <;> simp [hkj]

end Sys2Proof.Machine
end

section
/-! SUPPORT. Links after a change of one record, and what an eviction tells the evicted entry's block (R11, R113, R189). -/

namespace Sys2Proof.Machine

open Says

variable {s t u : State}

/-! ## One record of a vector -/

@[simp] theorem State.link_setLink (l k : Fin 8) (x : LinkRec) (s : State) :
    (s.setLink l x).link k = if l = k then some x else s.link k := by
  simp [State.link, State.setLink, Vector.getElem_set, Fin.ext_iff]

theorem State.link_modLink (l k : Fin 8) (f : LinkRec → LinkRec) (s : State) :
    (s.modLink l f).link k = if l = k then (s.link l).map f else s.link k := by
  unfold State.modLink
  cases h : s.link l with
  | none =>
    by_cases hk : l = k
    · subst hk; simp [h]
    · simp [hk]
  | some x => simp

theorem State.modLink_of_some {l : Fin 8} {f : LinkRec → LinkRec} {x : LinkRec} (h : s.link l = some x) :
    s.modLink l f = s.setLink l (f x) := by
  simp [State.modLink, h]

theorem State.modLink_of_none {l : Fin 8} {f : LinkRec → LinkRec} (h : s.link l = none) : s.modLink l f = s := by
  simp [State.modLink, h]

/-- The change of a link record touches LSUP's records alone. -/
theorem State.modLink_frame (l : Fin 8) (f : LinkRec → LinkRec) (s : State) :
    s.modLink l f = { s with lsup := { s.lsup with links := (s.modLink l f).lsup.links } } := by
  unfold State.modLink
  split <;> rfl

/-! ## Evictions -/

theorem State.link_sightingRefused (l k : Fin 8) (sp : Span) (bad : Bool) (s : State) :
    (s.sightingRefused l sp bad).link k = match s.link k with
      | some x => if l = k ∧ x.current = some sp ∧ x.announcedBad = bad
          then some { x with announcedBad := !x.announcedBad } else some x
      | none => none := by
  rw [State.sightingRefused, State.link_modLink]
  by_cases hk : l = k
  · subst hk
    cases s.link l with
    | none => simp
    | some x => by_cases hc : x.current = some sp ∧ x.announcedBad = bad <;> simp [hc]
  · cases s.link k <;> simp [hk]

theorem State.sightingRefused_frame (l : Fin 8) (sp : Span) (bad : Bool) (s : State) : s.sightingRefused l sp bad =
    { s with lsup := { s.lsup with links := (s.sightingRefused l sp bad).lsup.links } } :=
  State.modLink_frame _ _ s

theorem State.captureReport_frame (k : Fin 4) (age : Nat) (d : Delivery) (s : State) : s.captureReport k age d =
    { s with mgmt := { s.mgmt with rules := (s.captureReport k age d).mgmt.rules } } := by
  cases h : s.mgmt.rules[k].held with
  | none => rw [State.captureReport_of_none h]
  | some h' =>
    rw [State.captureReport_of_held h]
    split <;> rfl

/-- What the report on an evicted entry writes: link records and capture rules. -/
theorem State.reportEvicted_frame (e : QueueEntry) (s : State) : s.reportEvicted e =
    { s with lsup := { s.lsup with links := (s.reportEvicted e).lsup.links },
             mgmt := { s.mgmt with rules := (s.reportEvicted e).mgmt.rules } } := by
  unfold State.reportEvicted
  split
  · split
    · exact (State.sightingRefused_frame _ _ _ s).trans (by rw [State.sightingRefused_frame])
    · rfl
  · exact (State.captureReport_frame _ _ _ s).trans (by rw [State.captureReport_frame])
  · rfl
  · rfl

theorem State.link_reportEvicted (e : QueueEntry) (s : State) (l : Fin 8) :
    (s.reportEvicted e).link l = match s.link l with
      | some x => if (x.current.any fun sp => e.ticket == .sighting l sp x.announcedBad) ∧ e.sent.isEmpty = true
          then some { x with announcedBad := !x.announcedBad } else some x
      | none => none := by
  have hkeep (h : ∀ x, s.link l = some x →
      ¬((x.current.any fun sp => e.ticket == .sighting l sp x.announcedBad) ∧ e.sent.isEmpty = true)) :
      s.link l = match s.link l with
      | some x => if (x.current.any fun sp => e.ticket == .sighting l sp x.announcedBad) ∧ e.sent.isEmpty = true
          then some { x with announcedBad := !x.announcedBad } else some x
      | none => none := by
    cases hx : s.link l with
    | none => rfl
    | some x => simp only [if_neg (h x hx)]
  unfold State.reportEvicted
  split
  · rename_i k sp bad ht
    split
    · rename_i hs
      rw [State.link_sightingRefused]
      cases s.link l with
      | none => rfl
      | some x =>
        cases hc : x.current with
        | none => simp [hc]
        | some sp' =>
          have hiff : (k = l ∧ sp' = sp ∧ x.announcedBad = bad) ↔ (k = l ∧ sp = sp' ∧ bad = x.announcedBad) := by
            constructor <;> rintro ⟨a, b, c⟩ <;> exact ⟨a, b.symm, c.symm⟩
          simp [hc, ht, hs, hiff]
    · rename_i hs
      exact hkeep fun x _ hx => hs hx.2
  · rename_i k ht
    have hf := State.captureReport_frame k e.age (if e.sent.isEmpty then .refused else .sent) s
    have hl : (s.captureReport k e.age (if e.sent.isEmpty then .refused else .sent)).link l = s.link l := by
      rw [hf]; rfl
    exact hl.trans (hkeep fun x _ hx => by cases hc : x.current <;> simp [hc, ht] at hx)
  · rename_i ht
    exact hkeep fun x _ hx => by cases hc : x.current <;> simp [hc, ht] at hx
  · rename_i ht
    exact hkeep fun x _ hx => by cases hc : x.current <;> simp [hc, ht] at hx

theorem State.reportEvicted_of_capture {e : QueueEntry} {k : Fin 4} (h : e.ticket = .capture k) :
    s.reportEvicted e = s.captureReport k e.age (if e.sent.isEmpty then .refused else .sent) := by
  simp [State.reportEvicted, h]

/-- Only a CAPTURE of a rule tells that rule. -/
theorem State.rules_reportEvicted_other {e : QueueEntry} {k : Fin 4} (h : e.ticket ≠ .capture k) :
    (s.reportEvicted e).mgmt.rules[k] = s.mgmt.rules[k] := by
  unfold State.reportEvicted
  split
  · split
    · rw [State.sightingRefused_frame]
    · rfl
  · rename_i j hj
    rw [State.captureReport_rules]
    have hne : j ≠ k := fun e' => h (e' ▸ hj)
    cases s.mgmt.rules[k].held <;> simp [hne]
  · rfl
  · rfl

theorem State.rules_reportEvicted (e : QueueEntry) (s : State) (k : Fin 4) :
    (s.reportEvicted e).mgmt.rules[k] = match s.mgmt.rules[k].held with
      | some h => if e.ticket = .capture k ∧ h.age = some e.age then { s.mgmt.rules[k] with held := some { h with
          delivery := if e.sent.isEmpty then .refused else .sent } } else s.mgmt.rules[k]
      | none => s.mgmt.rules[k] := by
  by_cases ht : e.ticket = .capture k
  · rw [State.reportEvicted_of_capture ht, State.captureReport_rules]
    cases s.mgmt.rules[k].held <;> simp [ht]
  · rw [State.rules_reportEvicted_other ht]
    cases s.mgmt.rules[k].held <;> simp [ht]

/-- An eviction takes the entry from the queue, counts it, and tells its block. -/
theorem State.evict_frame (e : QueueEntry) (s : State) : s.evict e =
    { s with biu := { s.biu with queue := s.biu.queue.filter fun x => x.age != e.age },
             lsup := { s.lsup with links := (s.evict e).lsup.links },
             mgmt := { s.mgmt with
               counters := s.mgmt.counters.map (Counter.bump .txQueueRefused (some e.bulletin.length))
               rules := (s.evict e).mgmt.rules } } :=
  State.reportEvicted_frame e _

/-- What an URGENT offer in a full queue does (R11). -/
theorem State.offer_evicting {o : Offer} {v : QueueEntry} (ha : s.phase = .active) (hr : removesNone s o)
    (hk : o.key = none ∨ ∀ e ∈ s.biu.queue, e.key ≠ o.key) (hq : 16 ≤ s.biu.queue.length) (hu : o.urgent = true)
    (hv : youngestNormal s = some v) : s.offer o =
      ({ s with
        biu := { s.biu with queue := (s.biu.queue.filter fun x => x.age != v.age) ++ [newEntry s o],
                            nextAge := s.biu.nextAge + 1 },
        lsup := { s.lsup with links := (s.evict v).lsup.links },
        mgmt := { s.mgmt with
          counters := s.mgmt.counters.map (Counter.bump .txQueueRefused (some v.bulletin.length))
          rules := (s.evict v).mgmt.rules } }, some s.biu.nextAge) := by
  rw [State.offer_eq_addEntry (State.takesOffers_of_active ha) hr hk, State.addEntry_evicting hq hu hv,
    State.appendEntry_eq, State.evict_frame]
  rfl

/-- Settles O4: the end of an event by the three settlings it is made of, and an offer by the branches of R8, R9 and
R11. -/
theorem eventEndAndOffers : Obligations.EventEndAndOffers := by
  refine ⟨fun u => ?_, fun o s hp hl => State.offer_of_shut (State.takesOffers_of_inactive hp hl),
    fun o l sp s ha hk => State.offer_yield (State.takesOffers_of_active ha) hk, fun o k e s ha hr hk he => ?_,
    fun o s ha hr hk => ⟨fun hq => ?_, fun hq hu => ?_, fun v hq hu hv => ?_⟩⟩
  · refine ⟨u.finish_stationKept, by simp, by simp, by simp, by simp, by simp, by simp, u.finish_talkKept,
      u.finish_radioKept, by simp, State.finish_line_free, fun n => by simp [State.finish_lamps], fun n => ?_,
      fun x hx => State.finish_xp_of_sending hx,
      fun hn => ⟨fun hp => State.finish_xp_of_nil hn hp, fun n rest hp => State.finish_xp_of_cons hn hp⟩⟩
    rw [State.finish_xp_image, State.finish_xp_computed]
    refine ⟨fun hp => ?_, fun hp => ?_, State.xpImage_silent_changed, State.xpImage_silent_kept, fun hl hh => ?_⟩
    · rcases hp with hp | hp <;> simp [State.xpImage, hp]
    · simp [State.xpImage, hp]
    · cases hp : u.phase <;> simp_all [State.xpComputed]
  · have ht := State.takesOffers_of_active ha
    have hq : s.queued o.key = some e := by rw [hk, State.queued_some, he]
    refine ⟨fun hu => State.offer_replacing ht hr hq hu, fun hu hn hlen => ?_⟩
    have hroom := State.removeQueued_lt (List.mem_of_find?_eq_some he)
    rw [State.offer_outranking ht hr hq hu hn, State.addEntry_of_room (by omega)]
    rfl
  · rw [State.offer_eq_addEntry (State.takesOffers_of_active ha) hr hk, State.addEntry_of_room hq]
  · rw [State.offer_eq_addEntry (State.takesOffers_of_active ha) hr hk, State.addEntry_refused hq hu]
    rfl
  · exact ⟨_, State.offer_evicting ha hr hk hq hu hv, rfl, rfl, fun k => State.rules_reportEvicted v _ k,
      fun l => State.link_reportEvicted v _ l, rfl, rfl, ⟨rfl, rfl, rfl, rfl, rfl, rfl⟩, rfl, rfl, rfl, rfl, rfl⟩

end Sys2Proof.Machine
end

section
/-! SUPPORT. What lives for a time (R13, R54, R110, R165, R167, R174, R179), and the senders (R2, R3, R10, R12, R15). -/

namespace Sys2Proof.Machine

open Says

variable {s t u : State}

theorem State.modTbPort_of_some {q : Fin 12} {f : TbPort → TbPort} {r : TbPort} (h : s.tbPort q = some r) :
    s.modTbPort q f = s.setTbPort q (f r) := by
  simp [State.modTbPort, h]

/-- Settles O48: each expiry is its timer's effect at the timer's moment, or nothing where no entry is found. -/
theorem entriesGoAtTheirExpiry : Obligations.EntriesGoAtTheirExpiry := by
  refine ⟨fun n o s h => ?_, fun sp q s h => ?_, fun origin sp severity c s h => ?_, fun origin port f s h => ?_,
    fun c u s h => ?_, fun origin tag code r s h => ?_, fun q r d s hq hd => ?_, fun n c sp s hn hc hq => ⟨?_, ?_, ?_⟩⟩
  · show done (s.onExpiry (s.biu.origins[n].map (·.expiry)) (State.forgetOrigin n)) = _
    rw [h]
    rfl
  · show done (s.onExpiry ((s.quarantineEntry sp).map (·.expiry)) (State.quarantineOver sp)) = _
    rw [State.quarantineEntry, h]
    rfl
  · show done (s.onExpiry ((s.copyEntry origin sp severity).map (·.expiry)) (State.copyOver origin sp severity)) = _
    rw [h]
    rfl
  · have hf : s.followOf origin port = some f := h
    show done (s.onExpiry ((s.followOf origin port).map (·.expiry)) (State.followGone origin port)) = _
    rw [hf]
    rfl
  · show done (s.onExpiry (s.tbk.circuits[c].map (·.expiry)) (State.circuitOver c)) = _
    rw [h]
    rfl
  · have hr : s.recentTask origin tag code = some r := h
    show done (s.onExpiry ((s.recentTask origin tag code).map (·.expiry)) (State.recentOver origin tag code)) = _
    rw [hr]
    rfl
  · show done (s.onExpiry ((s.tbPort q).bind (·.indication)) (State.endIndication q)) = _
    rw [hq, Option.bind_some, hd, State.onExpiry_some, State.endIndication, State.modTbPort_of_some (s := s.reach d) hq]
    rfl
  · show done (s.onExpiry (s.biu.origins[n].map (·.expiry)) (State.forgetOrigin n)) = _
    rw [hn]
    rfl
  · show done (s.onExpiry (s.tbk.circuits[c].map (·.expiry)) (State.circuitOver c)) = _
    rw [hc]
    rfl
  · show done (s.onExpiry ((s.quarantineEntry sp).map (·.expiry)) (State.quarantineOver sp)) = _
    rw [State.quarantineEntry, hq]
    rfl

/-! ## The sender's choice (R12) -/

theorem State.oldest_urgent (s : State) (p : BusPort) :
    s.oldest p true = s.biu.queue.find? fun e => e.urgent && e.pending.has p := by
  simp [State.oldest]

theorem State.oldest_normal (s : State) (p : BusPort) :
    s.oldest p false = s.biu.queue.find? fun e => !e.urgent && e.pending.has p := by
  simp [State.oldest]

/-- The oldest own entry of a priority that a port may send: none outside ACTIVE and LEAVING (R1). -/
def State.ownChoice (s : State) (p : BusPort) (urgent : Bool) : Option QueueEntry :=
  if s.phase.sendsOwn then s.oldest p urgent else none

theorem State.choose_eq (s : State) (p : BusPort) : s.choose p =
    ((s.ownChoice p true).map (QueueEntry.tx · p)).or
      (((s.biu.fwd p).head?.map FwdEntry.tx).or ((s.ownChoice p false).map (QueueEntry.tx · p))) := by
  unfold State.choose State.ownChoice
  cases s.phase.sendsOwn
  · cases (s.biu.fwd p).head? <;> simp
  · cases hu : s.oldest p true <;> cases (s.biu.fwd p).head? <;> simp [hu]

theorem State.startAttempt_of_idle {p : BusPort} (hb : s.phase.onBus = true) (he : s.enabled p = true)
    (hi : s.biu.port p = .idle) :
    s.startAttempt p = match s.choose p with | some tx => s.setPort p (.sending tx) | none => s := by
  simp only [State.startAttempt, hb, he, hi, beq_self_eq_true, Bool.and_self, if_true]
    <;> cases s.choose p <;> rfl

/-- Settles O15: the choice is the first of the urgent own entry, the forwarded head and the normal own entry. -/
theorem senderTakesUrgentThenForwardedThenNormal : Obligations.SenderTakesUrgentThenForwardedThenNormal := by
  intro p s hb he hi
  have hexec : exec (.sendAttemptStart p) s =
      done (match s.choose p with | some tx => s.setPort p (.sending tx) | none => s) :=
    congrArg done (State.startAttempt_of_idle hb he hi)
  have hnone (urgent : Bool) (h : s.phase.sendsOwn = false ∨ s.oldest p urgent = none) : s.ownChoice p urgent = none := by
    rcases h with h | h <;> simp [State.ownChoice, h]
  rw [← State.oldest_urgent, ← State.oldest_normal]
  refine ⟨fun e hs h => ?_, fun hu => ⟨fun f rest hf => ?_, fun hf => ⟨fun e hs h => ?_, fun hn => ?_⟩⟩⟩
  · have hc : s.choose p = some (e.tx p) := by simp [State.choose_eq, State.ownChoice, hs, h]
    rw [hexec, hc]
    rfl
  · have hc : s.choose p = some f.tx := by simp [State.choose_eq, hnone true hu, hf]
    rw [hexec, hc]
    rfl
  · have hc : s.choose p = some (e.tx p) := by
      rw [State.choose_eq, hnone true hu]
      simp [hf, State.ownChoice, hs, h]
    rw [hexec, hc]
    rfl
  · have hc : s.choose p = none := by simp [State.choose_eq, hnone true hu, hnone false hn, hf]
    rw [hexec, hc]
    rfl

/-! ## The end of a transmission (R2, R10, R15) -/

@[simp] theorem Biu.setPort_queue (x : Biu) (p : BusPort) (st : PortState) : (x.setPort p st).queue = x.queue := by
  cases p <;> rfl

@[simp] theorem Biu.setPort_roster (x : Biu) (p : BusPort) (st : PortState) : (x.setPort p st).roster = x.roster := by
  cases p <;> rfl

@[simp] theorem Biu.port_setPort (x : Biu) (p : BusPort) (st : PortState) : (x.setPort p st).port p = st := by
  cases p <;> rfl

@[simp] theorem Biu.port_setPort_other (x : Biu) (p : BusPort) (st : PortState) :
    (x.setPort p st).port (BusPort.other p) = x.port (BusPort.other p) := by
  cases p <;> rfl

@[simp] theorem Biu.fwd_setPort_same (x : Biu) (p q : BusPort) (st : PortState) : (x.setPort p st).fwd q = x.fwd q :=
  Biu.fwd_setPort x p q st

/-- A transmission has left the wire: the port is IDLE, and TX_SENT counted. -/
def State.sentOn (p : BusPort) (tx : Tx) (s : State) : State :=
  (s.setPort p .idle).count .txSent (some tx.bulletin.length)

theorem State.sentOn_queue (p : BusPort) (tx : Tx) (s : State) : (s.sentOn p tx).biu.queue = s.biu.queue := by
  simp [State.sentOn]

theorem State.sentOn_phase (p : BusPort) (tx : Tx) (s : State) : (s.sentOn p tx).phase = s.phase := rfl

theorem State.txSuccess_of_sending {p : BusPort} {tx : Tx} (h : s.biu.port p = .sending tx) :
    s.txSuccess p = (s.sentOn p tx).finishTx p true tx := by
  simp [State.txSuccess, h, State.sentOn]

theorem State.finishTx_forward {p : BusPort} {x : Bool} {tx : Tx} (h : tx.source = .forward) :
    s.finishTx p x tx = s.dropHead p := by
  simp [State.finishTx, h]

theorem State.finishTx_gone {p : BusPort} {x : Bool} {tx : Tx} {age version : Nat} (h : tx.source = .own age version)
    (hn : s.liveEntry age version = none) : s.finishTx p x tx = s := by
  simp [State.finishTx, h, hn]

theorem State.finishTx_live {p : BusPort} {x : Bool} {tx : Tx} {age version : Nat} {e : QueueEntry}
    (h : tx.source = .own age version) (he : s.liveEntry age version = some e) :
    s.finishTx p x tx = s.settlePort p x e := by
  simp [State.finishTx, h, he]

/-- An entry that has been dealt with on a port, sent or abandoned (R10). -/
def QueueEntry.settled (p : BusPort) (sent : Bool) (e : QueueEntry) : QueueEntry :=
  { e with pending := e.pending.erase p, sent := if sent then e.sent.insert p else e.sent }

theorem State.settlePort_waiting {p : BusPort} {x : Bool} {e : QueueEntry} (h : (e.pending.erase p).isEmpty = false) :
    s.settlePort p x e = s.setQueue (s.biu.queue.map fun y => if y.age = e.age
      then { y with pending := e.pending.erase p, sent := if x then e.sent.insert p else e.sent } else y) := by
  simp [State.settlePort, h]

theorem State.settlePort_over {p : BusPort} {x : Bool} {e : QueueEntry} (h : (e.pending.erase p).isEmpty = true) :
    s.settlePort p x e =
      ((s.removeQueued e.age).report (e.settled p x) (!(e.settled p x).sent.isEmpty)).leaveIfEmpty := by
  simp [State.settlePort, h, QueueEntry.settled]

theorem State.report_untold {e : QueueEntry} {x : Bool} (h : e.ticket = .none ∨ ∃ l sp bad, e.ticket = .sighting l sp bad) :
    s.report e x = s := by
  rcases h with h | ⟨l, sp, bad, h⟩ <;> simp [State.report, h]

/-- Settles O17: what is left of the transmission's entry decides. -/
theorem transmissionSucceeds : Obligations.TransmissionSucceeds := by
  intro p tx s h
  have hexec : exec (.transmissionSuccess p) s = done ((s.sentOn p tx).finishTx p true tx) :=
    congrArg done (State.txSuccess_of_sending h)
  have hlive (age version : Nat) : (s.sentOn p tx).liveEntry age version =
      s.biu.queue.find? fun e => e.age == age && e.version == version := by
    rw [State.liveEntry, State.sentOn_queue]
  refine ⟨fun hf => ?_, fun age version hs => ⟨fun hn => ?_, fun e he hp => ?_, fun e he hp ha ht => ?_⟩⟩
  · rw [hexec, State.finishTx_forward hf, State.dropHead]
    have hfwd : (s.sentOn p tx).biu.fwd p = s.biu.fwd p := by simp [State.sentOn]
    rw [hfwd]
    rfl
  · rw [hexec, State.finishTx_gone hs (by rw [hlive, hn])]
    rfl
  · rw [hexec, State.finishTx_live hs (by rw [hlive, he]), State.settlePort_waiting hp, State.sentOn_queue]
    rfl
  · rw [hexec, State.finishTx_live hs (by rw [hlive, he]), State.settlePort_over hp, State.report_untold (e := e.settled p true) ht,
      State.leaveIfEmpty_of_not_leaving (by simp [State.removeQueued, State.sentOn_phase, ha]), State.removeQueued,
      State.sentOn_queue]
    rfl

/-! ## The report SENT on a claim (R66) -/

/-- A span with a channel conflicts hard with itself. -/
theorem State.conflicts_self {sp : Span} (h : sp.low ≤ sp.high) : s.conflicts sp sp = true :=
  (conflictsHard_iff _ _ _).mpr ⟨rfl, by omega, by omega⟩

/-- Within one station a link and a span are an own entry's identity (R62, R63). -/
theorem State.ownSlot_eq {i : Fin 16} {e : OwnEntry} (hl : s.OwnLaw) (he : s.ownEntry i = some e)
    (hs : e.span.low ≤ e.span.high) : s.ownSlot e.link e.span = some i := by
  have hsome : (s.ownSlot e.link e.span).isSome = true :=
    List.find?_isSome.mpr ⟨i, List.mem_finRange i, by simp [he]⟩
  obtain ⟨j, hj⟩ := Option.isSome_iff_exists.mp hsome
  have hp := List.find?_some hj
  cases hf : s.ownEntry j with
  | none => simp [hf] at hp
  | some f =>
    have hfe : f.link = e.link ∧ f.span = e.span := by simpa [hf] using hp
    obtain ⟨-, -, hcon⟩ := hl
    have hji : j = i := hcon j i f e hf he (by rw [hfe.2]; exact State.conflicts_self hs)
    rw [hj, hji]

theorem Biu.LineRight.age_inj {x : Biu} (h : x.LineRight) {e f : QueueEntry} (he : e ∈ x.queue) (hf : f ∈ x.queue)
    (ha : e.age = f.age) : e = f := by
  obtain ⟨i, hi, rfl⟩ := List.mem_iff_getElem.mp he
  obtain ⟨j, hj, rfl⟩ := List.mem_iff_getElem.mp hf
  have hord := List.pairwise_iff_getElem.mp h.1
  rcases Nat.lt_trichotomy i j with hij | rfl | hij
  · have := hord i j hi hj hij; omega
  · rfl
  · have := hord j i hj hi hij; omega

/-- An entry of the queue is the live entry of its own age and version. -/
theorem State.liveEntry_of_mem {e : QueueEntry} (h : s.biu.LineRight) (he : e ∈ s.biu.queue) :
    s.liveEntry e.age e.version = some e := by
  have hsome : (s.liveEntry e.age e.version).isSome = true := List.find?_isSome.mpr ⟨e, he, by simp⟩
  obtain ⟨f, hf⟩ := Option.isSome_iff_exists.mp hsome
  have hfe : f.age = e.age ∧ f.version = e.version := by simpa using List.find?_some hf
  rw [hf, h.age_inj (List.mem_of_find?_eq_some hf) he hfe.1]

theorem State.claimSent_of_tentative {i : Fin 16} {e : OwnEntry} {l : Fin 8} {sp : Span} (hi : s.ownSlot l sp = some i)
    (he : s.ownEntry i = some e) (ht : e.standing = .tentative) (hs : e.sent = false) :
    s.claimSent l sp = s.setOwn i (some { e with
      sent := true, window := some (s.after (ms 250)), refresh := some (s.after (tenths e.hold)) }) := by
  simp [State.claimSent, hi, State.modOwn, he, ht, hs]

@[simp] theorem PortSet.isEmpty_insert (x : PortSet) (p : BusPort) : (x.insert p).isEmpty = false := by
  cases p <;> simp [PortSet.insert, PortSet.isEmpty]

/-- Settles O18: the transmission's entry leaves the queue, and its claim is the own entry of its link and span. -/
theorem sentClaimOpensItsWindow : Obligations.SentClaimOpensItsWindow := by
  intro p q version i e s hinv ha hport hq hver hpend htick he hspan hten hsent
  subst hver
  let tx : Tx := { source := .own q.age q.version, bulletin := q.bulletin, attempts := q.attempts p }
  have hlive : (s.sentOn p tx).liveEntry q.age q.version = some q := by
    have := State.liveEntry_of_mem hinv.line hq
    rwa [State.liveEntry, State.sentOn_queue]
  let v := (s.sentOn p tx).removeQueued q.age
  have hslot : v.ownSlot e.link e.span = some i := State.ownSlot_eq (s := s) hinv.ownLaw he hspan
  have hrep : v.report (q.settled p true) (!(q.settled p true).sent.isEmpty) = v.claimSent e.link e.span := by
    simp [State.report, QueueEntry.settled, htick]
  have hexec : exec (.transmissionSuccess p) s = done (v.claimSent e.link e.span) := by
    show done (s.txSuccess p) = _
    rw [State.txSuccess_of_sending hport, State.finishTx_live rfl hlive, State.settlePort_over hpend, hrep,
      State.claimSent_of_tentative hslot he hten hsent, State.leaveIfEmpty_of_not_leaving (by
        show s.phase ≠ .leaving
        simp [ha])]
  rw [State.claimSent_of_tentative hslot he hten hsent] at hexec
  refine ⟨_, hexec, ?_, ?_, (stationKept.trans ⟨rfl, rfl, rfl, rfl, rfl, rfl⟩ (State.finish_stationKept _)), ?_, ?_,
    (talkKept.trans (talkKept.of_eq rfl) (State.finish_talkKept _)),
    (radioKept.trans (radioKept.of_eq rfl) (State.finish_radioKept _))⟩
  · simp only [State.finish_fields]
    rfl
  · simp only [State.finish_fields]
    simp [v, State.removeQueued, State.sentOn]
  · simp only [State.finish_fields]
    rfl
  · simp only [State.finish_fields]
    rfl

/-! ## Collisions (R3) -/

/-- The state in which a collision has been counted and the attempt noted. -/
def State.collided (p : BusPort) (tx : Tx) (s : State) : State :=
  (s.count .txCollision (some tx.bulletin.length)).noteFailure p (tx.attempts + 1) tx

/-- The attempt is kept with the bulletin: nothing outside the bus ports' queues changes. -/
theorem State.collided_frame (p : BusPort) (tx : Tx) (s : State) : s.collided p tx =
    { s with biu := { s.biu with queue := (s.collided p tx).biu.queue, fwdA := (s.collided p tx).biu.fwdA,
                                 fwdB := (s.collided p tx).biu.fwdB },
             mgmt := { s.mgmt with
               counters := s.mgmt.counters.map (Counter.bump .txCollision (some tx.bulletin.length)) } } := by
  unfold State.collided State.noteFailure
  split
  · rfl
  · split
    · cases p <;> rfl
    · rfl

theorem State.collided_own {p : BusPort} {tx : Tx} {age version : Nat} (h : tx.source = .own age version) :
    (s.collided p tx).biu.queue = (s.biu.queue.map fun e =>
      if e.age = age ∧ e.version = version then e.setAttempts p (tx.attempts + 1) else e) ∧
    (s.collided p tx).biu.fwdA = s.biu.fwdA ∧ (s.collided p tx).biu.fwdB = s.biu.fwdB := by
  simp [State.collided, State.noteFailure, h]

theorem State.collided_forward {p : BusPort} {tx : Tx} (h : tx.source = .forward) :
    (s.collided p tx).biu.queue = s.biu.queue ∧
    (s.collided p tx).biu.fwd (BusPort.other p) = s.biu.fwd (BusPort.other p) ∧
    (s.collided p tx).biu.fwd p = match s.biu.fwd p with
      | f :: rest => { f with attempts := tx.attempts + 1 } :: rest
      | [] => [] := by
  simp only [State.collided, State.noteFailure, h, State.count_fields]
  cases hf : s.biu.fwd p with
  | nil => cases p <;> simp [hf]
  | cons f rest => cases p <;> simp [Biu.setFwd, Biu.fwd, BusPort.other]

theorem State.txCollision_below {p : BusPort} {tx : Tx} (h : s.biu.port p = .sending tx) (hk : tx.attempts + 1 < 8) :
    s.txCollision p = (s.collided p tx).setPort p (.backoff (backoffSlots s.station (tx.attempts + 1))
      (s.after (backoffSlots s.station (tx.attempts + 1) * slotMicros)) false) := by
  have hst : (s.collided p tx).station = s.station := by rw [State.collided_frame]; rfl
  have hnow : (s.collided p tx).now = s.now := by rw [State.collided_frame]
  simp only [State.txCollision, h, if_pos hk]
  show (s.collided p tx).setPort p _ = _
  unfold State.after
  rw [← hst, ← hnow]
  rfl

theorem State.txCollision_abandon {p : BusPort} {tx : Tx} (h : s.biu.port p = .sending tx) (hk : 8 ≤ tx.attempts + 1) :
    s.txCollision p = (((s.collided p tx).setPort p .idle).count .txAbandoned (some tx.bulletin.length)).finishTx p
      false tx := by
  have hn : ¬tx.attempts + 1 < 8 := by omega
  simp only [State.txCollision, h, if_neg hn]
  rfl

theorem State.collided_setPort_frames {p : BusPort} {tx : Tx} {st : PortState} :
    stationKept s ((s.collided p tx).setPort p st) ∧ recordsKept s ((s.collided p tx).setPort p st) := by
  rw [State.collided_frame]
  cases p <;>
    exact ⟨⟨rfl, rfl, rfl, rfl, rfl, rfl⟩, rfl, rfl, rfl, rfl, talkKept.of_eq rfl, radioKept.of_eq rfl⟩

/-- A transmission abandoned after a collision: the port is IDLE, and TX_ABANDONED counted. -/
def State.abandonedOn (p : BusPort) (tx : Tx) (s : State) : State :=
  ((s.collided p tx).setPort p .idle).count .txAbandoned (some tx.bulletin.length)

theorem State.abandonedOn_frames (p : BusPort) (tx : Tx) (s : State) :
    stationKept s (s.abandonedOn p tx) ∧ recordsKept s (s.abandonedOn p tx) :=
  let h := State.collided_setPort_frames (s := s) (p := p) (tx := tx) (st := .idle)
  ⟨h.1.trans ⟨rfl, rfl, rfl, rfl, rfl, rfl⟩,
    h.2.trans ⟨rfl, rfl, rfl, rfl, talkKept.of_eq rfl, radioKept.of_eq rfl⟩⟩

theorem State.abandonedOn_counters (p : BusPort) (tx : Tx) (s : State) : (s.abandonedOn p tx).mgmt.counters =
    (s.mgmt.counters.map (Counter.bump .txCollision (some tx.bulletin.length))).map
      (Counter.bump .txAbandoned (some tx.bulletin.length)) := by
  rw [State.abandonedOn, State.collided_frame]
  rfl

theorem State.abandonedOn_port (p : BusPort) (tx : Tx) (s : State) : (s.abandonedOn p tx).biu.port p = .idle := by
  simp [State.abandonedOn]

theorem State.endBackoff_of_backoff {p : BusPort} {n d : Nat} {r : Bool} (h : s.biu.port p = .backoff n d r) :
    s.endBackoff p = (s.reach d).setPort p (if r then .receiving else .idle) := by
  simp [State.endBackoff, h]

/-- A forwarded bulletin leaves the head of its queue (R15). -/
theorem State.dropHead_frames (p : BusPort) (s : State) : stationKept s (s.dropHead p) ∧ recordsKept s (s.dropHead p) ∧
    (s.dropHead p).biu.port p = s.biu.port p ∧ (s.dropHead p).biu.queue = s.biu.queue ∧
    (s.dropHead p).biu.fwd p = (s.biu.fwd p).drop 1 := by
  cases p <;>
    exact ⟨⟨rfl, rfl, rfl, rfl, rfl, rfl⟩, ⟨rfl, rfl, rfl, rfl, talkKept.of_eq rfl, radioKept.of_eq rfl⟩, rfl, rfl, rfl⟩

/-- A change of the queue alone touches no other record. -/
theorem State.setQueue_frames (q : List QueueEntry) (s : State) :
    stationKept s (s.setQueue q) ∧ recordsKept s (s.setQueue q) :=
  ⟨⟨rfl, rfl, rfl, rfl, rfl, rfl⟩, ⟨rfl, rfl, rfl, rfl, talkKept.of_eq rfl, radioKept.of_eq rfl⟩⟩

/-- The end of an own transmission whose block is told nothing changes the queue alone. -/
theorem State.settlePort_untold {p : BusPort} {x : Bool} {e : QueueEntry} (ha : s.phase ≠ .leaving)
    (ht : e.ticket = .none) : ∃ q, s.settlePort p x e = s.setQueue q ∧
      ((e.pending.erase p).isEmpty = true → q = s.biu.queue.filter fun y => y.age != e.age) := by
  cases hp : (e.pending.erase p).isEmpty with
  | false => exact ⟨_, State.settlePort_waiting hp, fun h => by cases h⟩
  | true =>
    refine ⟨_, ?_, fun _ => rfl⟩
    rw [State.settlePort_over hp, State.report_untold (e := e.settled p x) (.inl ht),
      State.leaveIfEmpty_of_not_leaving (by simpa [State.removeQueued] using ha)]
    rfl

theorem QueueEntry.setAttempts_ticket (e : QueueEntry) (p : BusPort) (k : Nat) :
    (e.setAttempts p k).ticket = e.ticket ∧ (e.setAttempts p k).pending = e.pending ∧
    (e.setAttempts p k).age = e.age ∧ (e.setAttempts p k).version = e.version := by
  cases p <;> exact ⟨rfl, rfl, rfl, rfl⟩

/-- The live entry of a transmission that has collided: the same entry, with its attempt count. -/
theorem State.liveEntry_collided {p : BusPort} {tx : Tx} {age version : Nat} {e : QueueEntry}
    (h : tx.source = .own age version)
    (he : s.biu.queue.find? (fun e => e.age == age && e.version == version) = some e) :
    (s.abandonedOn p tx).liveEntry age version = some (e.setAttempts p (tx.attempts + 1)) := by
  have hq : (s.abandonedOn p tx).biu.queue = s.biu.queue.map fun e =>
      if e.age = age ∧ e.version = version then e.setAttempts p (tx.attempts + 1) else e := by
    simp [State.abandonedOn, (State.collided_own (s := s) (p := p) h).1]
  have hlive : age = e.age ∧ version = e.version := by
    have := List.find?_some he
    simp only [Bool.and_eq_true, beq_iff_eq] at this
    exact ⟨this.1.symm, this.2.symm⟩
  have hsame : ((fun e : QueueEntry => e.age == age && e.version == version) ∘ fun e : QueueEntry =>
      if e.age = age ∧ e.version = version then e.setAttempts p (tx.attempts + 1) else e) =
      fun e => e.age == age && e.version == version := by
    funext f
    by_cases hf : f.age = age ∧ f.version = version
    · obtain ⟨-, -, h3, h4⟩ := f.setAttempts_ticket p (tx.attempts + 1)
      simp [hf, h3, h4]
    · simp [hf]
  rw [State.liveEntry, hq, List.find?_map, hsame, he, Option.map_some, if_pos ⟨hlive.1.symm, hlive.2.symm⟩]

/-- Settles O19: below the eighth failure the port backs off, at it the bulletin is abandoned as it is when it has been
sent. -/
theorem collisionBacksOffOrAbandons : Obligations.CollisionBacksOffOrAbandons := by
  refine ⟨fun p tx s h hk => ?_, fun p tx s h hk hf => ?_, fun p tx age version e s h hk hs he ht ha => ?_,
    fun p n d r s h => congrArg done (State.endBackoff_of_backoff h)⟩
  · have hfr := State.collided_setPort_frames (s := s) (p := p) (tx := tx)
      (st := .backoff (backoffSlots s.station (tx.attempts + 1))
        (s.after (backoffSlots s.station (tx.attempts + 1) * slotMicros)) false)
    refine ⟨_, congrArg done (State.txCollision_below h hk), ?_, ?_, ?_, fun age version hs => ?_, fun hf => ?_,
      hfr.1.trans (State.finish_stationKept _), hfr.2.trans (State.finish_recordsKept _)⟩
    · simp only [State.finish_fields, State.setPort_fields, Biu.port_setPort]
      rfl
    · simp only [State.finish_fields, State.setPort_fields, Biu.port_setPort_other]
      rw [State.collided_frame]
      cases p <;> rfl
    · simp only [State.finish_fields, State.setPort_fields]
      rw [State.collided_frame]
      rfl
    · obtain ⟨hq, hA, hB⟩ := State.collided_own (s := s) (p := p) hs
      simp only [State.finish_fields, State.setPort_fields, Biu.setPort_queue]
      refine ⟨?_, ?_, hq⟩
      · cases p <;> exact hA
      · cases p <;> exact hB
    · obtain ⟨hq, ho, hfwd⟩ := State.collided_forward (s := s) (p := p) hf
      simp only [State.finish_fields, State.setPort_fields, Biu.setPort_queue, Biu.fwd_setPort_same]
      exact ⟨hq, ho, fun f rest hr => by rw [hfwd, hr]⟩
  · obtain ⟨hst, hrec⟩ := s.abandonedOn_frames p tx
    obtain ⟨dst, drec, dport, dq, dfwd⟩ := (s.abandonedOn p tx).dropHead_frames p
    obtain ⟨hq, -, hfwd⟩ := State.collided_forward (s := s) (p := p) hf
    have hexec : exec (.collision p) s = done ((s.abandonedOn p tx).dropHead p) :=
      congrArg done ((State.txCollision_abandon h hk).trans (State.finishTx_forward hf))
    refine ⟨_, hexec, ?_, ?_, ?_, ?_, (hst.trans dst).trans (State.finish_stationKept _),
      (hrec.trans drec).trans (State.finish_recordsKept _)⟩
    · simp only [State.finish_fields]
      rw [dport, State.abandonedOn_port]
    · simp only [State.finish_fields]
      rw [dfwd]
      simp only [State.abandonedOn, State.count_fields, State.setPort_fields, Biu.fwd_setPort_same, hfwd]
      cases s.biu.fwd p <;> rfl
    · simp only [State.finish_fields]
      rw [dq]
      simpa [State.abandonedOn] using hq
    · simp only [State.finish_fields]
      exact State.abandonedOn_counters p tx s
  · obtain ⟨hst, hrec⟩ := s.abandonedOn_frames p tx
    obtain ⟨hticket, hpend, hage, -⟩ := e.setAttempts_ticket p (tx.attempts + 1)
    have hl : (s.abandonedOn p tx).phase ≠ .leaving := by rw [hst.1]; simp [ha]
    obtain ⟨q, hq, hempty⟩ := State.settlePort_untold (p := p) (x := false) hl (hticket.trans ht)
    have hexec : exec (.collision p) s = done ((s.abandonedOn p tx).setQueue q) :=
      congrArg done ((State.txCollision_abandon h hk).trans
        ((State.finishTx_live hs (State.liveEntry_collided hs he)).trans hq))
    obtain ⟨qst, qrec⟩ := (s.abandonedOn p tx).setQueue_frames q
    refine ⟨_, hexec, ?_, fun hp x hx => ?_, ?_, (hst.trans qst).trans (State.finish_stationKept _),
      (hrec.trans qrec).trans (State.finish_recordsKept _)⟩
    · simp only [State.finish_fields]
      exact State.abandonedOn_port p tx s
    · simp only [State.finish_fields, State.setQueue_fields] at hx
      rw [hempty (by rw [hpend]; exact hp)] at hx
      have hne := (List.mem_filter.mp hx).2
      have : e.age = age := by
        have := List.find?_some he
        simp only [Bool.and_eq_true, beq_iff_eq] at this
        exact this.1
      rw [hage, this] at hne
      simpa using hne
    · simp only [State.finish_fields]
      exact State.abandonedOn_counters p tx s

end Sys2Proof.Machine
end

section
/-! SUPPORT. The wire (R5, section 11.1): an accepted run is the wire of the bulletin it holds, and the check tells two runs
apart that differ in one byte. -/

namespace Sys2Proof

theorem byte_toNat {n : Nat} (h : n < 256) : (byte n).toNat = n := by
  simp [byte, Nat.mod_eq_of_lt h]

theorem byte_toNat_self (b : Byte) : byte b.toNat = b := by simp [byte]

theorem bytes16_inj {m n : Nat} (hm : m < 65536) (hn : n < 65536) (h : bytes16 m = bytes16 n) : m = n := by
  simp only [bytes16, List.cons.injEq, and_true] at h
  obtain ⟨hhi, hlo⟩ := h
  have hhi := congrArg BitVec.toNat hhi
  have hlo := congrArg BitVec.toNat hlo
  rw [byte_toNat (by omega), byte_toNat (by omega)] at hhi hlo
  omega

/-! ## The check -/

/-- One bit of the check of R5. -/
def crcBit (c : BitVec 16) : BitVec 16 := if c.msb then (c <<< 1) ^^^ 0x1021#16 else c <<< 1

theorem crcByte_eq (c : BitVec 16) (b : Byte) :
    crcByte c b = (List.range 8).foldl (fun c _ => crcBit c) (c ^^^ (b.zeroExtend 16 <<< 8)) := rfl

/-- The polynomial's last term shows in the new lowest bit whether it was taken. -/
theorem crcBit_lsb (c : BitVec 16) : (crcBit c).getLsbD 0 = c.msb := by
  unfold crcBit
  cases h : c.msb <;> simp

theorem shiftLeft_one_inj {c d : BitVec 16} (hm : c.msb = d.msb) (h : c <<< 1 = d <<< 1) : c = d := by
  refine BitVec.eq_of_getLsbD_eq fun i hi => ?_
  by_cases h15 : i = 15
  · subst h15
    simpa [BitVec.msb_eq_getLsbD_last] using hm
  · have := congrArg (fun x => BitVec.getLsbD x (i + 1)) h
    have hlt : i + 1 < 16 := by omega
    simpa [hlt, BitVec.getLsbD_eq_getElem hi] using this

theorem crcBit_inj : Function.Injective crcBit := by
  intro c d h
  have hm : c.msb = d.msb := by rw [← crcBit_lsb, ← crcBit_lsb, h]
  refine shiftLeft_one_inj hm ?_
  unfold crcBit at h
  rw [hm] at h
  cases hd : d.msb
  · simpa [hd] using h
  · simpa [hd] using h

theorem foldl_crcBit_inj (l : List Nat) : Function.Injective fun c => l.foldl (fun c _ => crcBit c) c := by
  induction l with
  | nil => exact fun _ _ h => h
  | cons _ l ih => exact fun _ _ h => crcBit_inj (ih h)

theorem xor_right_cancel {c d x : BitVec 16} (h : c ^^^ x = d ^^^ x) : c = d := by
  have := congrArg (· ^^^ x) h
  simpa [BitVec.xor_assoc] using this

theorem crcByte_inj_state (b : Byte) : Function.Injective fun c => crcByte c b := fun _ _ h =>
  xor_right_cancel (foldl_crcBit_inj _ h)

theorem zeroExtend_shift_inj {a b : Byte} (h : a.zeroExtend 16 <<< 8 = b.zeroExtend 16 <<< 8) : a = b := by
  refine BitVec.eq_of_getLsbD_eq fun i hi => ?_
  have := congrArg (fun x => BitVec.getLsbD x (i + 8)) h
  have hlt : i + 8 < 16 := by omega
  simpa [hlt, hi] using this

theorem crcByte_inj_byte (c : BitVec 16) : Function.Injective (crcByte c) := fun _ _ h =>
  zeroExtend_shift_inj (xor_right_cancel (by simpa only [BitVec.xor_comm c] using foldl_crcBit_inj _ h))

theorem foldl_crcByte_inj (l : List Byte) : Function.Injective fun c => l.foldl crcByte c := by
  induction l with
  | nil => exact fun _ _ h => h
  | cons b l ih => exact fun _ _ h => crcByte_inj_state b (ih h)

/-- The check tells one byte from another at one place of a run. -/
theorem crc_append_cons_inj (l r : List Byte) {x y : Byte} (h : crc (l ++ x :: r) = crc (l ++ y :: r)) : x = y := by
  simp only [crc, List.foldl_append, List.foldl_cons] at h
  exact crcByte_inj_byte _ (foldl_crcByte_inj r h)

theorem crc_set_eq {l : List Byte} {i : Nat} {x : Byte} (hi : i < l.length) (h : crc (l.set i x) = crc l) :
    l[i]? = some x := by
  have hsplit : l = l.take i ++ l[i] :: l.drop (i + 1) := by simp
  have hset : l.set i x = l.take i ++ x :: l.drop (i + 1) := List.set_eq_take_append_cons_drop.trans (if_pos hi)
  rw [hset] at h
  have hx := crc_append_cons_inj _ _ (h.trans (congrArg crc hsplit))
  rw [List.getElem?_eq_getElem hi, hx]

namespace Machine

theorem Bulletin.wire_eq (b : Bulletin) : b.wire = b.kind :: b.origin :: b.target :: b.hopPrio :: byte b.body.length ::
    (b.body ++ bytes16 (crc (b.header ++ b.body)).toNat) := rfl

theorem Bulletin.header_length (b : Bulletin) : b.header.length = 5 := rfl

theorem Bulletin.wire_length (b : Bulletin) : b.wire.length = b.body.length + 7 := by
  simp [Bulletin.wire_eq, bytes16]

/-- An accepted run is the wire of the bulletin it holds. -/
theorem wire_of_acceptRun {run : List Byte} {b : Bulletin} (h : acceptRun run = some b) : b.wire = run := by
  unfold acceptRun at h
  split at h
  · rename_i k o t hp len rest
    split at h
    · rename_i hc
      obtain ⟨hle, hlen, -, hcheck⟩ := hc
      obtain rfl := Option.some.inj h
      have hbody : (rest.take len.toNat).length = len.toNat := by simp; omega
      have htake : (k :: o :: t :: hp :: len :: rest).take (5 + len.toNat) =
          k :: o :: t :: hp :: len :: rest.take len.toNat := by
        rw [Nat.add_comm]
        rfl
      rw [htake] at hcheck
      simp only [Bulletin.wire_eq, Bulletin.header, hbody, byte_toNat_self]
      show k :: o :: t :: hp :: len :: (rest.take len.toNat ++
        bytes16 (crc (k :: o :: t :: hp :: len :: rest.take len.toNat)).toNat) = _
      rw [hcheck, List.take_append_drop]
    · cases h
  · cases h

/-- Settles O20: each test of R5 on a bulletin's own wire. -/
theorem wireRoundTrip : Obligations.WireRoundTrip := by
  intro b ho ho' hb
  have hlen : (byte b.body.length).toNat = b.body.length := byte_toNat (by omega)
  have htake : (b.kind :: b.origin :: b.target :: b.hopPrio :: byte b.body.length ::
      (b.body ++ bytes16 (crc (b.header ++ b.body)).toNat)).take (5 + b.body.length) = b.header ++ b.body := by
    rw [Nat.add_comm]
    simp [Bulletin.header]
  have htests : (byte b.body.length).toNat ≤ 48 ∧
      (b.body ++ bytes16 (crc (b.header ++ b.body)).toNat).length = (byte b.body.length).toNat + 2 ∧
      isStation b.origin.toNat ∧
      bytes16 (crc ((b.kind :: b.origin :: b.target :: b.hopPrio :: byte b.body.length ::
        (b.body ++ bytes16 (crc (b.header ++ b.body)).toNat)).take (5 + (byte b.body.length).toNat))).toNat =
        (b.body ++ bytes16 (crc (b.header ++ b.body)).toNat).drop (byte b.body.length).toNat := by
    rw [hlen, htake]
    exact ⟨hb, by simp [bytes16], by simp [isStation, ho, ho'], by simp⟩
  rw [Bulletin.wire_eq, acceptRun, if_pos htests, hlen]
  simp

/-- The test value of R5. -/
theorem crc_digits : crc [0x31, 0x32, 0x33, 0x34, 0x35, 0x36, 0x37, 0x38, 0x39] = 0x29B1 := by
  simp [crc, crcByte, List.range, List.range.loop, BitVec.msb_eq_decide]

/-- Settles O21: a run that were accepted would be the wire of a bulletin of the same length, so the change would stand
either in the bytes that the check covers, which it tells apart, or in the check of the very same bytes. -/
theorem oneDamagedByteIsDiscarded : Obligations.OneDamagedByteIsDiscarded := by
  refine ⟨fun b i x hb hx hi => ?_, crc_digits⟩
  rw [Option.eq_none_iff_forall_ne_some]
  intro b' h
  have hw := wire_of_acceptRun h
  have hcover (c : Bulletin) : c.wire = (c.header ++ c.body) ++ bytes16 (crc (c.header ++ c.body)).toNat := rfl
  have hcoverLen (c : Bulletin) : (c.header ++ c.body).length = c.body.length + 5 := by
    simp [Bulletin.header_length]; omega
  have hlen : b'.body.length = b.body.length := by
    have := congrArg List.length hw
    simp only [Bulletin.wire_length, List.length_set] at this
    omega
  have hlen' : (b'.header ++ b'.body).length = (b.header ++ b.body).length := by rw [hcoverLen, hcoverLen, hlen]
  by_cases hin : i < (b.header ++ b.body).length
  · rw [hcover b, hcover b', List.set_append_left _ _ hin] at hw
    obtain ⟨hleft, hright⟩ := List.append_inj hw (by simpa using hlen')
    have hcrc : crc ((b.header ++ b.body).set i x) = crc (b.header ++ b.body) := by
      rw [← hleft]
      exact BitVec.eq_of_toNat_eq (bytes16_inj (BitVec.isLt _) (BitVec.isLt _) hright)
    have hget := crc_set_eq hin hcrc
    exact hx (by rw [hcover b, List.getElem?_append_left hin, hget])
  · rw [hcover b, hcover b', List.set_append_right _ _ (by omega)] at hw
    obtain ⟨hleft, hright⟩ := List.append_inj hw hlen'
    rw [hleft] at hright
    have hout : i - (b.header ++ b.body).length < (bytes16 (crc (b.header ++ b.body)).toNat).length := by
      rw [hcover b, List.length_append] at hi
      omega
    have hget : (bytes16 (crc (b.header ++ b.body)).toNat)[i - (b.header ++ b.body).length]? = some x := by
      rw [hright, List.getElem?_set_self hout]
    exact hx (by rw [hcover b, List.getElem?_append_right (by omega), hget])

end Machine
end Sys2Proof
end

section
/-! SUPPORT. What an operation inside an event is made of, said once: offers, counts, and changes of one block's records.
What every one of these leaves alone, every operation leaves alone (`Moves.frame` below). -/

namespace Sys2Proof.Machine

/-- Steps inside an event have led from one state to another. -/
inductive Moves (s : State) : State → Prop
  | refl : Moves s s
  | offer {t : State} (o : Offer) (h : Moves s t) : Moves s (t.offer o).1
  | count {t : State} (ev : Event) (n : Option Nat) (h : Moves s t) : Moves s (t.count ev n)
  | plan {t : State} (x : Plan) (h : Moves s t) : Moves s { t with plan := x }
  | rport {t : State} (x : Rport) (h : Moves s t) : Moves s { t with rport := x }
  /-- A link record changes; its descriptor stays. -/
  | link {t : State} (l : Fin 8) (f : LinkRec → LinkRec) (hf : ∀ x, (f x).desc = x.desc) (h : Moves s t) :
      Moves s (t.modLink l f)
  | tables {t : State} (x : Lsup) (hx : ∀ l : Fin 8, (x.links[l]).map (·.desc) = (t.lsup.links[l]).map (·.desc))
      (h : Moves s t) : Moves s { t with lsup := x }
  | tally {t : State} (x : Tally) (h : Moves s t) : Moves s { t with tally := x }
  | tbk {t : State} (x : Tbk) (h : Moves s t) : Moves s { t with tbk := x }
  | longTask {t : State} (x : Option LongTask) (h : Moves s t) :
      Moves s { t with mgmt := { t.mgmt with longTask := x } }
  /-- The report on an own entry's sighting or capture. -/
  | refused {t : State} (l : Fin 8) (sp : Span) (bad : Bool) (h : Moves s t) : Moves s (t.sightingRefused l sp bad)

variable {s t u : State}

theorem Moves.trans (a : Moves s t) (b : Moves t u) : Moves s u := by
  induction b with
  | refl => exact a
  | offer o _ ih => exact ih.offer o
  | count ev n _ ih => exact ih.count ev n
  | plan x _ ih => exact ih.plan x
  | rport x _ ih => exact ih.rport x
  | link l f hf _ ih => exact ih.link l f hf
  | tables x hx _ ih => exact ih.tables x hx
  | tally x _ ih => exact ih.tally x
  | tbk x _ ih => exact ih.tbk x
  | longTask x _ ih => exact ih.longTask x
  | refused l sp bad _ ih => exact ih.refused l sp bad

theorem Moves.foldl {α : Type} (f : State → α → State) (hf : ∀ t a, Moves t (f t a)) (l : List α) (h : Moves s t) :
    Moves s (l.foldl f t) := by
  induction l generalizing t with
  | nil => exact h
  | cons a l ih => exact ih (h.trans (hf t a))

theorem Moves.foldlFst {α β : Type} (f : State × β → α → State × β) (hf : ∀ t a, Moves t.1 (f t a).1) (l : List α)
    (x : State × β) (h : Moves s x.1) : Moves s (l.foldl f x).1 := by
  induction l generalizing x with
  | nil => exact h
  | cons a l ih => exact ih _ (h.trans (hf x a))

/-! ## Offers, links -/

@[simp] theorem State.offer_moves {o : Offer} (h : Moves s t) : Moves s (t.offer o).1 := h.offer o

@[simp] theorem State.offered_moves {o : Offer} (h : Moves s t) : Moves s (t.offered o) := h.offer o

@[simp] theorem State.reply_moves {x : Bool} {o g : Nat} {k : Byte} {r : ReturnCode} {d : List Byte} (h : Moves s t) :
    Moves s (t.reply x o g k r d) := h.offer _

@[simp] theorem State.count_moves {ev : Event} {n : Option Nat} (h : Moves s t) : Moves s (t.count ev n) := h.count ev n

/-- A record set over the one that stands, with its descriptor, is a change of it. -/
theorem State.setLink_moves {l : Fin 8} {x y : LinkRec} (hx : t.link l = some x) (hd : y.desc = x.desc)
    (h : Moves s t) : Moves s (t.setLink l y) := by
  have hm : t.modLink l (fun z => if z.desc = x.desc then y else z) = t.setLink l y := by
    simp [State.modLink_of_some hx]
  rw [← hm]
  refine h.link l _ fun z => ?_
  split
  · rename_i hz; rw [hd, hz]
  · rfl

theorem State.modLink_moves {l : Fin 8} {f : LinkRec → LinkRec} (hf : ∀ x, (f x).desc = x.desc) (h : Moves s t) :
    Moves s (t.modLink l f) := h.link l f hf

@[simp] theorem State.modReloc_moves {l : Fin 8} {f : Reloc → Reloc} (h : Moves s t) : Moves s (t.modReloc l f) :=
  h.link l _ fun _ => rfl

/-! ## RPORT -/

@[simp] theorem State.setFe_moves {a : Fin 8} {r : FrontEnd} (h : Moves s t) : Moves s (t.setFe a r) := h.rport _

@[simp] theorem State.queueCmd_moves {c : RadioCmd} (h : Moves s t) : Moves s (t.queueCmd c) := h.rport _

@[simp] theorem State.mapCmds_moves {f : RadioCmd → RadioCmd} (h : Moves s t) : Moves s (t.mapCmds f) := h.rport _

@[simp] theorem State.withdrawTune_moves {a : Fin 8} (h : Moves s t) : Moves s (t.withdrawTune a) := h.rport _

@[simp] theorem State.queueMute_moves {a : Fin 8} (h : Moves s t) : Moves s (t.queueMute a) := by
  unfold State.queueMute
  split <;> simp [h]

@[simp] theorem State.muteLine_moves {a : Fin 8} (h : Moves s t) : Moves s (t.muteLine a) := by
  unfold State.muteLine
  repeat' split
  all_goals simp [h]

@[simp] theorem State.mute_moves {a : Fin 8} (h : Moves s t) : Moves s (t.mute a) := by simp [State.mute, h]

@[simp] theorem State.tune_moves {a : Fin 8} {sp : Span} (h : Moves s t) : Moves s (t.tune a sp).1 := by
  unfold State.tune
  repeat' split
  all_goals simp [h]

@[simp] theorem State.lamp_moves {a : Fin 8} {c : Colour} (h : Moves s t) : Moves s (t.lamp a c) := by
  unfold State.lamp
  split <;> simp [h]

@[simp] theorem State.takeMailbox_moves {a : Fin 8} (h : Moves s t) : Moves s (t.takeMailbox a).1 := h.rport _

/-! ## PLAN -/

@[simp] theorem State.setOwn_moves {i : Fin 16} {e : Option OwnEntry} (h : Moves s t) : Moves s (t.setOwn i e) := h.plan _

@[simp] theorem State.setPeer_moves {j : Fin 96} {e : Option PeerEntry} (h : Moves s t) : Moves s (t.setPeer j e) :=
  h.plan _

@[simp] theorem State.modOwn_moves {i : Fin 16} {f : OwnEntry → OwnEntry} (h : Moves s t) : Moves s (t.modOwn i f) := by
  unfold State.modOwn
  split <;> simp [h]

@[simp] theorem State.takeSighting_moves {sp : Span} {n : Nat} (h : Moves s t) : Moves s (t.takeSighting sp n) := by
  unfold State.takeSighting
  split
  · exact h.plan _
  · exact h

@[simp] theorem State.storePeer_moves {b : Bool} {n m : Nat} {x : PlanBody} (h : Moves s t) :
    Moves s (t.storePeer b n x m).1 := by
  unfold State.storePeer
  dsimp only
  repeat' split
  all_goals first
    | exact h.plan _
    | exact (h.count _ _).plan _

@[simp] theorem State.removePeer_moves {n m : Nat} {sp : Span} (h : Moves s t) : Moves s (t.removePeer n m sp) := by
  unfold State.removePeer
  split <;> simp [h]

@[simp] theorem State.offerClaim_moves {x : Bool} {e : OwnEntry} (h : Moves s t) : Moves s (t.offerClaim x e).1 :=
  h.offer _

@[simp] theorem State.announceHold_moves {x : Bool} {i : Fin 16} (h : Moves s t) : Moves s (t.announceHold x i) := by
  unfold State.announceHold
  dsimp only
  repeat' split
  all_goals simp [h]

@[simp] theorem State.removeOwn_moves {i : Fin 16} (h : Moves s t) : Moves s (t.removeOwn i) := by
  unfold State.removeOwn
  split <;> simp [h]

@[simp] theorem State.yieldRequest_moves {l : Fin 8} {sp : Span} (h : Moves s t) : Moves s (t.yieldRequest l sp) := by
  unfold State.yieldRequest
  split <;> simp [h]

@[simp] theorem State.yieldWhere_moves {l : Fin 8} {p : OwnEntry → Bool} (h : Moves s t) :
    Moves s (t.yieldWhere l p) := by
  refine Moves.foldl _ (fun u i => ?_) _ h
  have r := Moves.refl (s := u)
  repeat' split
  all_goals simp [r]

@[simp] theorem State.sendFailure_moves {x : Bool} {i : Fin 16} (h : Moves s t) : Moves s (t.sendFailure x i).1 := by
  unfold State.sendFailure
  dsimp only
  repeat' split
  all_goals simp (maxDischargeDepth := 9) [h]

@[simp] theorem State.claimStart_moves {l : Fin 8} {sp : Span} (h : Moves s t) : Moves s (t.claimStart l sp).1 := by
  unfold State.claimStart
  dsimp only
  repeat' split
  all_goals simp (maxDischargeDepth := 9) [h]

@[simp] theorem State.claimSent_moves {l : Fin 8} {sp : Span} (h : Moves s t) : Moves s (t.claimSent l sp) := by
  unfold State.claimSent
  split <;> simp [h]

@[simp] theorem State.claimAbandoned_moves {l : Fin 8} {sp : Span} (h : Moves s t) :
    Moves s (t.claimAbandoned l sp).1 := by
  unfold State.claimAbandoned
  repeat' split
  all_goals simp [h]

@[simp] theorem State.becomeHeld_moves {i : Fin 16} (h : Moves s t) : Moves s (t.becomeHeld i).1 := by
  unfold State.becomeHeld
  dsimp only
  split <;> simp (maxDischargeDepth := 9) [h]

@[simp] theorem State.dropPair_moves {x : Nat × Nat} {i : Fin 16} (h : Moves s t) : Moves s (t.dropPair x i).1 := by
  unfold State.dropPair
  dsimp only
  repeat' split
  all_goals simp [h]

theorem State.overOwns_moves {f : Fin 16 → State → State × List PlanNews} (hf : ∀ i u, Moves u (f i u).1)
    (h : Moves s t) : Moves s (t.overOwns f).1 :=
  Moves.foldlFst (fun x i => ((f i x.1).1, x.2 ++ (f i x.1).2)) (fun x i => hf i x.1) _ (t, []) h

@[simp] theorem State.pairYielded_moves {n m : Nat} {sp : Span} (h : Moves s t) : Moves s (t.pairYielded n m sp).1 := by
  refine State.overOwns_moves (fun i u => ?_) h
  have r := Moves.refl (s := u)
  repeat' split
  all_goals simp [r]

@[simp] theorem State.pairRemoved_moves {n m : Nat} (h : Moves s t) : Moves s (t.pairRemoved n m).1 := by
  refine State.overOwns_moves (fun i u => ?_) h
  have r := Moves.refl (s := u)
  repeat' split
  all_goals simp [r]

@[simp] theorem State.sendDefence_moves {i : Fin 16} (h : Moves s t) : Moves s (t.sendDefence i) := by
  unfold State.sendDefence
  repeat' split
  all_goals simp [h]

@[simp] theorem State.defend_moves {i : Fin 16} (h : Moves s t) : Moves s (t.defend i) := by
  unfold State.defend
  repeat' split
  all_goals simp [h]

@[simp] theorem State.claimLost_moves {n : Nat} {i : Fin 16} {e : OwnEntry} (h : Moves s t) :
    Moves s (t.claimLost n i e).1 := by simp [State.claimLost, h]

@[simp] theorem State.preempt_moves {n : Nat} {i : Fin 16} {e : OwnEntry} (h : Moves s t) :
    Moves s (t.preempt n i e).1 := by
  unfold State.preempt
  dsimp only
  split <;> simp (maxDischargeDepth := 9) [h]

@[simp] theorem State.testOwn_moves {b : Bool} {n m : Nat} {x : PlanBody} {i : Fin 16} (h : Moves s t) :
    Moves s (t.testOwn b n x m i).1 := by
  unfold State.testOwn
  dsimp only
  repeat' split
  all_goals simp [h]

@[simp] theorem State.planArrival_moves {b : Bool} {n m : Nat} {x : PlanBody} (h : Moves s t) :
    Moves s (t.planArrival b n x m).1 := by
  unfold State.planArrival
  dsimp only
  refine State.overOwns_moves (fun i u => State.testOwn_moves .refl) ?_
  split <;> simp [h]

@[simp] theorem State.planYielded_moves {n m : Nat} {sp : Span} (h : Moves s t) : Moves s (t.planYielded n m sp).1 :=
  State.pairYielded_moves (State.removePeer_moves h)

@[simp] theorem State.retryClaim_moves {i : Fin 16} (h : Moves s t) : Moves s (t.retryClaim i).1 := by
  unfold State.retryClaim
  dsimp only
  repeat' split
  all_goals simp (maxDischargeDepth := 9) [h]

@[simp] theorem State.closeWindow_moves {i : Fin 16} (h : Moves s t) : Moves s (t.closeWindow i).1 := by
  unfold State.closeWindow
  repeat' split
  all_goals simp [h]

@[simp] theorem State.endAllowance_moves {i : Fin 16} (h : Moves s t) : Moves s (t.endAllowance i).1 := by
  unfold State.endAllowance
  split
  · exact State.becomeHeld_moves (h.plan _)
  · exact h

@[simp] theorem State.refreshClaim_moves {i : Fin 16} (h : Moves s t) : Moves s (t.refreshClaim i) := by
  unfold State.refreshClaim
  split <;> simp [h]

@[simp] theorem State.refreshHold_moves {i : Fin 16} (h : Moves s t) : Moves s (t.refreshHold i) := by
  simp [State.refreshHold, h]

@[simp] theorem State.endHoldOff_moves {i : Fin 16} (h : Moves s t) : Moves s (t.endHoldOff i) := by
  unfold State.endHoldOff
  dsimp only
  repeat' split
  all_goals simp (maxDischargeDepth := 9) [h]

@[simp] theorem State.allowanceOver_moves {i : Fin 16} (h : Moves s t) : Moves s (t.allowanceOver i).1 := by
  unfold State.allowanceOver
  split <;> simp [h]

@[simp] theorem State.onAirHolds_moves {l : Fin 8} (h : Moves s t) : Moves s (t.onAirHolds l) := by
  refine Moves.foldl _ (fun u i => ?_) _ h
  have r := Moves.refl (s := u)
  repeat' split
  all_goals simp [r]

/-! ## Relocations -/

@[simp] theorem State.muteLink_moves {l : Fin 8} (h : Moves s t) : Moves s (t.muteLink l) := by
  unfold State.muteLink
  split
  · exact (State.mute_moves h).link l _ fun _ => rfl
  · exact h

@[simp] theorem State.leaveSpan_moves {l : Fin 8} {sp : Span} (h : Moves s t) : Moves s (t.leaveSpan l sp) :=
  h.link l _ fun x => by split <;> rfl

@[simp] theorem State.leaveYielding_moves {l : Fin 8} (h : Moves s t) : Moves s (t.leaveYielding l) :=
  Moves.foldl _ (fun _ _ => State.leaveSpan_moves .refl) _ (State.yieldWhere_moves h)

@[simp] theorem State.landTune_moves {l : Fin 8} (h : Moves s t) : Moves s (t.landTune l) := h.link l _ fun _ => rfl

@[simp] theorem State.issueTune_moves {l : Fin 8} {sp : Span} (h : Moves s t) : Moves s (t.issueTune l sp).1 := by
  unfold State.issueTune
  dsimp only
  split
  · exact h
  · rename_i x hx
    have hm : Moves s (if x.tuneInFlight then (t.muteLink l).leaveYielding l else t) := by split <;> simp [h]
    generalize (if x.tuneInFlight then (t.muteLink l).leaveYielding l else t) = v at hm
    split
    · exact State.modLink_moves (fun _ => rfl) (State.tune_moves hm)
    · exact State.tune_moves hm

@[simp] theorem State.tellTask_moves {l : Fin 8} {e : Ending} (h : Moves s t) : Moves s (t.tellTask l e) := by
  unfold State.tellTask
  split
  · exact State.reply_moves (h.longTask none)
  · exact h

@[simp] theorem State.endReloc_moves {l : Fin 8} {r : Reloc} {e : Ending} (h : Moves s t) :
    Moves s (t.endReloc l r e) := by
  unfold State.endReloc
  dsimp only
  have hm : Moves s (t.modLink l fun x => { x with reloc := none, lastOutcome := some (r.cause, e) }) :=
    h.link l _ fun _ => rfl
  split
  · exact State.tellTask_moves hm
  · exact hm

@[simp] theorem State.relocFail_moves {l : Fin 8} {c : FailCause} {b : Bool} (h : Moves s t) :
    Moves s (t.relocFail l c b) := by
  unfold State.relocFail
  dsimp only
  split
  · exact h
  · refine State.endReloc_moves ?_
    split
    · exact Moves.link l _ (fun _ => rfl) (by simp (maxDischargeDepth := 9) [h])
    · exact Moves.link l _ (fun _ => rfl) (by simp (maxDischargeDepth := 9) [h])

@[simp] theorem State.searchRun_moves {l : Fin 8} {n : Nat} (h : Moves s t) : Moves s (State.searchRun l n t) := by
  induction n generalizing t with
  | zero => exact h
  | succ n ih =>
    unfold State.searchRun
    dsimp only
    repeat' split
    all_goals first
      | exact ih (by simp (maxDischargeDepth := 9) [h])
      | simp (maxDischargeDepth := 9) [h]

@[simp] theorem State.enterSearch_moves {l : Fin 8} (h : Moves s t) : Moves s (t.enterSearch l) := by
  simp [State.enterSearch, h]

@[simp] theorem State.startReloc_moves {l : Fin 8} {c : Cause} {x : Option Span} {a b : Bool} (h : Moves s t) :
    Moves s (t.startReloc l c x a b) := by
  unfold State.startReloc
  split
  · rename_i y hy
    split
    · exact State.enterSearch_moves (State.setLink_moves (x := y) hy (by rfl) h)
    · exact h
  · exact h

@[simp] theorem State.startReturn_moves {l : Fin 8} {sp : Span} {c : FailCause} (h : Moves s t) :
    Moves s (t.startReturn l sp c) := by
  unfold State.startReturn
  dsimp only
  split <;> simp (maxDischargeDepth := 9) [h]

@[simp] theorem State.tuneFailed_moves {l : Fin 8} (h : Moves s t) : Moves s (t.tuneFailed l) := by
  unfold State.tuneFailed
  repeat' split
  all_goals simp [h]

@[simp] theorem State.tuneCandidate_moves {l : Fin 8} (h : Moves s t) : Moves s (t.tuneCandidate l) := by
  unfold State.tuneCandidate
  dsimp only
  repeat' split
  all_goals simp (maxDischargeDepth := 9) [h]

@[simp] theorem State.cutover_moves {l : Fin 8} {r : Reloc} {sp : Span} (h : Moves s t) :
    Moves s (t.cutover l r sp) := by
  unfold State.cutover
  dsimp only
  refine State.endReloc_moves (Moves.count _ _ (Moves.link l _ (fun _ => rfl) ?_))
  split <;> simp [h]

@[simp] theorem State.returned_moves {l : Fin 8} {r : Reloc} (h : Moves s t) : Moves s (t.returned l r) := by
  unfold State.returned
  dsimp only
  refine State.relocFail_moves (Moves.link l _ (fun _ => rfl) ?_)
  split <;> simp [h]

@[simp] theorem State.tunedOk_moves {l : Fin 8} (h : Moves s t) : Moves s (t.tunedOk l) := by
  unfold State.tunedOk
  dsimp only
  repeat' split
  all_goals simp [h]

@[simp] theorem State.tuneLost_moves {l : Fin 8} (h : Moves s t) : Moves s (t.tuneLost l) := by
  unfold State.tuneLost
  dsimp only
  repeat' split
  all_goals simp [h]

@[simp] theorem State.hearLostRank_moves {l : Fin 8} {sp : Span} (h : Moves s t) : Moves s (t.hearLostRank l sp) := by
  unfold State.hearLostRank
  dsimp only
  repeat' split
  all_goals simp [h]

@[simp] theorem State.hearBusFault_moves {l : Fin 8} {sp : Span} (h : Moves s t) : Moves s (t.hearBusFault l sp) := by
  unfold State.hearBusFault
  repeat' split
  all_goals simp [h]

@[simp] theorem State.hearHeld_moves {l : Fin 8} {sp : Span} (h : Moves s t) : Moves s (t.hearHeld l sp) := by
  unfold State.hearHeld
  repeat' split
  all_goals simp [h]

@[simp] theorem State.candidateLost_moves {l : Fin 8} {r : Reloc} {sp : Span} (h : Moves s t) :
    Moves s (t.candidateLost l r sp) := by
  unfold State.candidateLost
  dsimp only
  repeat' split
  all_goals simp (maxDischargeDepth := 9) [h]

@[simp] theorem State.hearPreempted_moves {l : Fin 8} {sp : Span} (h : Moves s t) : Moves s (t.hearPreempted l sp) := by
  unfold State.hearPreempted
  repeat' split
  all_goals simp [h]

@[simp] theorem State.lossReloc_moves {l : Fin 8} (h : Moves s t) : Moves s (t.lossReloc l) := by
  unfold State.lossReloc
  repeat' split
  all_goals simp [h]

@[simp] theorem State.loseLink_moves {l : Fin 8} (h : Moves s t) : Moves s (t.loseLink l) := by
  unfold State.loseLink
  split
  · rename_i x hx
    split
    · exact State.lossReloc_moves ((State.setLink_moves (y := { x with state := .lost }) hx rfl h).count _ _)
    · exact h
  · exact h

@[simp] theorem State.hearAllowance_moves {l : Fin 8} {sp : Span} (h : Moves s t) : Moves s (t.hearAllowance l sp) := by
  unfold State.hearAllowance
  dsimp only
  repeat' split
  all_goals simp (maxDischargeDepth := 9) [h]

@[simp] theorem State.hear_moves {n : PlanNews} (h : Moves s t) : Moves s (t.hear n) := by
  unfold State.hear
  split <;> simp [h]

@[simp] theorem State.withNews_moves {r : State × List PlanNews} (h : Moves s r.1) : Moves s (State.withNews r) :=
  Moves.foldl _ (fun _ _ => State.hear_moves .refl) _ h

@[simp] theorem State.onAirSet_moves {l : Fin 8} (h : Moves s t) : Moves s (t.onAirSet l) := by
  unfold State.onAirSet
  repeat' split
  all_goals simp [h]

@[simp] theorem State.resumeWaiting_moves (h : Moves s t) : Moves s t.resumeWaiting := by
  refine Moves.foldl _ (fun u l => ?_) _ h
  have r := Moves.refl (s := u)
  split <;> simp [r]

@[simp] theorem State.overfullOver_moves (h : Moves s t) : Moves s t.overfullOver :=
  State.resumeWaiting_moves (h.plan _)

@[simp] theorem State.peerGone_moves {j : Fin 96} (h : Moves s t) : Moves s (t.peerGone j) := by
  unfold State.peerGone
  split <;> simp (maxDischargeDepth := 9) [h]

@[simp] theorem State.retryAcquire_moves {l : Fin 8} (h : Moves s t) : Moves s (t.retryAcquire l) := by
  unfold State.retryAcquire
  dsimp only
  split
  · rename_i x hx
    have hm : Moves s (t.setLink l { x with acquireRetry := none }) := State.setLink_moves hx rfl h
    split <;> simp [hm]
  · exact h

@[simp] theorem State.hearFault_moves {l : Fin 8} (h : Moves s t) : Moves s (t.hearFault l) := by
  simp [State.hearFault, h]

@[simp] theorem State.hearRecovered_moves {l : Fin 8} (h : Moves s t) : Moves s (t.hearRecovered l) := by
  unfold State.hearRecovered
  dsimp only
  repeat' split
  all_goals simp [h]

/-! ## TALLY -/

@[simp] theorem State.setLayer_moves {k : Fin 8} {y : Layer} (h : Moves s t) : Moves s (t.setLayer k y) := h.tally _

@[simp] theorem State.setSource_moves {k : Fin 8} {y : Option Source} (h : Moves s t) : Moves s (t.setSource k y) :=
  h.tally _

@[simp] theorem State.standBy_moves {k : Fin 8} {n : Nat} (h : Moves s t) : Moves s (t.standBy k n) := by
  unfold State.standBy
  repeat' split
  all_goals simp [h]

theorem State.handMark_moves {v : Vector Bool 8} {l : Fin 8} (h : Moves s t) : Moves s (State.handMark v t l) := by
  unfold State.handMark
  dsimp only
  repeat' split
  all_goals simp [h]

theorem State.handLamp_moves {v : Vector Colour 8} {l : Fin 8} (h : Moves s t) : Moves s (State.handLamp v t l) := by
  unfold State.handLamp
  repeat' split
  all_goals simp [h]

@[simp] theorem State.evaluate_moves (h : Moves s t) : Moves s t.evaluate :=
  Moves.foldl _ (fun _ _ => State.handLamp_moves .refl) _
    (Moves.foldl _ (fun _ _ => State.handMark_moves .refl) _ (h.tally _))

@[simp] theorem State.takeLayer_moves {n m : Nat} {b : TallyBody} (h : Moves s t) : Moves s (t.takeLayer n b m).1 := by
  unfold State.takeLayer
  split <;> simp (maxDischargeDepth := 9) [h]

@[simp] theorem State.publish_moves {x : Bool} {k : Fin 8} (h : Moves s t) : Moves s (t.publish x k) := by
  unfold State.publish
  dsimp only
  split <;> simp (maxDischargeDepth := 9) [h]

@[simp] theorem State.contactChanged_moves {k : Fin 8} (h : Moves s t) : Moves s (t.contactChanged k) := by
  unfold State.contactChanged
  split <;> simp [h]

@[simp] theorem State.startSources_moves (h : Moves s t) : Moves s t.startSources := by
  refine State.evaluate_moves (Moves.foldl _ (fun u k => ?_) _ h)
  have r := Moves.refl (s := u)
  split <;> simp [r]

@[simp] theorem State.resume_moves {k : Fin 8} (h : Moves s t) : Moves s (t.resume k) := by
  unfold State.resume
  dsimp only
  repeat' split
  all_goals simp [h]

@[simp] theorem State.stale_moves {k : Fin 8} (h : Moves s t) : Moves s (t.stale k) := by simp (maxDischargeDepth := 9) [State.stale, h]

@[simp] theorem State.unset_moves {k : Fin 8} (h : Moves s t) : Moves s (t.unset k) := by simp [State.unset, h]

@[simp] theorem State.refreshSource_moves {k : Fin 8} (h : Moves s t) : Moves s (t.refreshSource k) := by
  unfold State.refreshSource
  repeat' split
  all_goals simp [h]

@[simp] theorem State.contactSettled_moves {c : Fin 32} (h : Moves s t) : Moves s (t.contactSettled c) := by
  unfold State.contactSettled
  dsimp only
  split
  · exact h.tally _
  · split
    · exact State.contactChanged_moves (h.tally _)
    · exact h.tally _

/-! ## TBK -/

@[simp] theorem State.setTbPort_moves {q : Fin 12} {r : TbPort} (h : Moves s t) : Moves s (t.setTbPort q r) := h.tbk _

@[simp] theorem State.setLine_moves {n : Fin 16} {x : Line} (h : Moves s t) : Moves s (t.setLine n x) := h.tbk _

@[simp] theorem State.setFollows_moves {q : List FollowEntry} (h : Moves s t) : Moves s (t.setFollows q) := h.tbk _

@[simp] theorem State.setCall_moves {k : Fin 4} {c : Option CallRec} (h : Moves s t) : Moves s (t.setCall k c) := h.tbk _

@[simp] theorem State.setCircuit_moves {c : Fin 15} {x : Option CircuitUse} (h : Moves s t) :
    Moves s (t.setCircuit c x) := h.tbk _

@[simp] theorem State.modTbPort_moves {q : Fin 12} {f : TbPort → TbPort} (h : Moves s t) : Moves s (t.modTbPort q f) := by
  unfold State.modTbPort
  split <;> simp [h]

@[simp] theorem State.indicate_moves {q : Fin 12} (h : Moves s t) : Moves s (t.indicate q) := by
  simp [State.indicate, h]

@[simp] theorem State.offerTalk_moves {x y : Bool} {n : Fin 16} {q : Fin 12} {c : Nat} (h : Moves s t) :
    Moves s (t.offerTalk x y n q c) := h.offer _

@[simp] theorem State.endTalk_moves {n : Fin 16} {q : Fin 12} {x : TalkState} (h : Moves s t) :
    Moves s (t.endTalk n q x) := by
  unfold State.endTalk
  dsimp only
  split <;> simp (maxDischargeDepth := 9) [h]

@[simp] theorem State.capEval_moves {n : Fin 16} (h : Moves s t) : Moves s (t.capEval n) := by
  refine Moves.foldl _ (fun u q => ?_) _ h
  have r := Moves.refl (s := u)
  unfold State.bumpPort
  repeat' split
  all_goals simp [r]

@[simp] theorem State.changeLine_moves {n : Fin 16} {f : Line → Line} (h : Moves s t) : Moves s (t.changeLine n f) := by
  simp [State.changeLine, h]

@[simp] theorem State.pressTalk_moves {q : Fin 12} {n : Fin 16} {k : KeyId} (h : Moves s t) :
    Moves s (t.pressTalk q n k) := by
  unfold State.pressTalk
  dsimp only
  repeat' split
  all_goals simp (maxDischargeDepth := 9) [h]

@[simp] theorem State.refreshTalk_moves {q : Fin 12} (h : Moves s t) : Moves s (t.refreshTalk q) := by
  unfold State.refreshTalk
  repeat' split
  all_goals simp [h]

@[simp] theorem State.offerFollow_moves {x y : Bool} {q : Fin 12} {f : FollowState} (h : Moves s t) :
    Moves s (t.offerFollow x y q f) := h.offer _

@[simp] theorem State.pressFollow_moves {q : Fin 12} {k : Fin 8} {y : KeyId} (h : Moves s t) :
    Moves s (t.pressFollow q k y) := by
  unfold State.pressFollow
  dsimp only
  repeat' split
  all_goals simp [h]

@[simp] theorem State.refreshFollow_moves {q : Fin 12} (h : Moves s t) : Moves s (t.refreshFollow q) := by
  unfold State.refreshFollow
  repeat' split
  all_goals simp [h]

@[simp] theorem State.endFollow_moves {q : Fin 12} {f : FollowState} (h : Moves s t) : Moves s (t.endFollow q f) := by
  simp [State.endFollow, h]

@[simp] theorem State.release_moves {q : Fin 12} {k : KeyId} (h : Moves s t) : Moves s (t.release q k) := by
  unfold State.release
  dsimp only
  repeat' split
  all_goals simp (maxDischargeDepth := 9) [h]

@[simp] theorem State.takeJoin_moves {o p : Nat} {n : Fin 16} {a b : Bool} (h : Moves s t) :
    Moves s (t.takeJoin o n p a b) := State.changeLine_moves h

@[simp] theorem State.takeLeave_moves {o p : Nat} {n : Fin 16} (h : Moves s t) : Moves s (t.takeLeave o n p) :=
  State.changeLine_moves h

@[simp] theorem State.agreeMembers_moves {o : Nat} {rs : List PresenceRecord} (h : Moves s t) :
    Moves s (t.agreeMembers o rs) := Moves.foldl _ (fun _ _ => State.changeLine_moves .refl) _ h

@[simp] theorem State.dropStation_moves {o : Nat} (h : Moves s t) : Moves s (t.dropStation o) :=
  Moves.foldl _ (fun _ _ => State.changeLine_moves .refl) _ h

@[simp] theorem State.takeTalk_moves {o p c m : Nat} {n : Fin 16} {on : Bool} (h : Moves s t) :
    Moves s (t.takeTalk o n p c on m).1 := by
  unfold State.takeTalk
  repeat' split
  all_goals simp [h]

@[simp] theorem State.talkerGone_moves {o p : Nat} {n : Fin 16} (h : Moves s t) : Moves s (t.talkerGone n o p) :=
  State.changeLine_moves h

@[simp] theorem State.takeFollow_moves {o i p : Nat} {l : Fin 8} {on : Bool} (h : Moves s t) :
    Moves s (t.takeFollow o l i p on) := by
  unfold State.takeFollow
  dsimp only
  repeat' split
  all_goals simp [h]

theorem State.overPorts_moves {f : Fin 12 → TbPort → State → State} (hf : ∀ q r u, Moves u (f q r u)) (h : Moves s t) :
    Moves s (t.overPorts f) :=
  Moves.foldl _ (fun u q => by
    split
    · exact hf _ _ u
    · exact .refl) _ h

@[simp] theorem State.joinAll_moves (h : Moves s t) : Moves s t.joinAll :=
  State.overPorts_moves (fun _ _ _ => Moves.foldl _ (fun _ _ => State.offered_moves .refl) _ .refl) h

@[simp] theorem State.putMembership_moves {q : Fin 12} {m : Membership} (h : Moves s t) :
    Moves s (t.putMembership q m) := by simp (maxDischargeDepth := 9) [State.putMembership, h]

@[simp] theorem State.dropMembership_moves {q : Fin 12} {n : Fin 16} (h : Moves s t) :
    Moves s (t.dropMembership q n) := by simp (maxDischargeDepth := 9) [State.dropMembership, h]

/-! ## Calls and keys -/

@[simp] theorem State.useCircuit_moves {c : Fin 15} {x : Nat × Nat} (h : Moves s t) : Moves s (t.useCircuit c x) :=
  State.setCircuit_moves h

@[simp] theorem State.freeCircuit_moves {c : Fin 15} {x : Nat × Nat} (h : Moves s t) : Moves s (t.freeCircuit c x) := by
  unfold State.freeCircuit
  split <;> simp [h]

@[simp] theorem State.takeCircuit_moves {c : Fin 15} {x : Nat × Nat} (h : Moves s t) : Moves s (t.takeCircuit c x) := by
  unfold State.takeCircuit
  repeat' split
  all_goals simp [h]

@[simp] theorem State.offerCall_moves {k : Kind} {x : Bool} {n : Nat} {a b : Nat × Nat} {c : Fin 15} {r : Nat}
    (h : Moves s t) : Moves s (t.offerCall k x n a b c r) := by
  unfold State.offerCall
  dsimp only
  split <;> simp [h]

@[simp] theorem State.offerFor_moves {k : Kind} {x : Bool} {n : Fin 4} {c : CallRec} {r : Nat} (h : Moves s t) :
    Moves s (t.offerFor k x n c r) := State.offerCall_moves h

@[simp] theorem State.openCall_moves {k : Fin 4} {c : CallRec} (h : Moves s t) : Moves s (t.openCall k c) := by
  unfold State.openCall
  dsimp only
  split <;> simp [h]

@[simp] theorem State.answer_moves {k : Fin 4} {c : CallRec} (h : Moves s t) : Moves s (t.answer k c) := by
  simp [State.answer, h]

@[simp] theorem State.closeCall_moves {k : Fin 4} {c : CallRec} {r : EndReason} (h : Moves s t) :
    Moves s (t.closeCall k c r) := by
  unfold State.closeCall
  dsimp only
  split <;> simp [h]

@[simp] theorem State.endCall_moves {k : Fin 4} {c : CallRec} {r : EndReason} (h : Moves s t) :
    Moves s (t.endCall k c r) := by simp [State.endCall, h]

@[simp] theorem State.pressCall_moves {q : Fin 12} {n p : Nat} (h : Moves s t) : Moves s (t.pressCall q n p) := by
  unfold State.pressCall
  dsimp only
  repeat' split
  all_goals simp [h]

@[simp] theorem State.pressAnswer_moves {q : Fin 12} (h : Moves s t) : Moves s (t.pressAnswer q) := by
  unfold State.pressAnswer
  repeat' split
  all_goals simp [h]

@[simp] theorem State.keepCall_moves {k : Fin 4} (h : Moves s t) : Moves s (t.keepCall k) := by
  unfold State.keepCall
  dsimp only
  repeat' split
  all_goals simp [h]

@[simp] theorem State.expireCall_moves {k : Fin 4} {r : EndReason} (h : Moves s t) : Moves s (t.expireCall k r) := by
  unfold State.expireCall
  split <;> simp [h]

@[simp] theorem State.loseCalls_moves {n : Nat} (h : Moves s t) : Moves s (t.loseCalls n) := by
  refine Moves.foldl _ (fun u k => ?_) _ h
  have r := Moves.refl (s := u)
  repeat' split
  all_goals simp [r]

@[simp] theorem State.stationGone_moves {n : Nat} (h : Moves s t) : Moves s (t.stationGone n) := by
  simp [State.stationGone, h]

@[simp] theorem State.clash_moves {c : Fin 15} {x : Nat × Nat} (h : Moves s t) : Moves s (t.clash c x) := by
  refine Moves.foldl _ (fun u k => ?_) _ h
  have r := Moves.refl (s := u)
  unfold State.clashSlot
  dsimp only
  repeat' split
  all_goals simp [r]

@[simp] theorem State.glare_moves {k : Fin 4} {c : CallRec} {b : CallBody} (h : Moves s t) :
    Moves s (t.glare k c b) := by
  unfold State.glare
  dsimp only
  split <;> simp [h]

@[simp] theorem State.ringAgain_moves {k : Fin 4} {b : CallBody} (h : Moves s t) : Moves s (t.ringAgain k b) := by
  unfold State.ringAgain
  dsimp only
  repeat' split
  all_goals simp [h]

@[simp] theorem State.newRing_moves {b : CallBody} (h : Moves s t) : Moves s (t.newRing b) := by
  unfold State.newRing
  dsimp only
  repeat' split
  all_goals simp [h]

@[simp] theorem State.ringElsewhere_moves {o : Nat} {b : CallBody} (h : Moves s t) : Moves s (t.ringElsewhere o b) := by
  unfold State.ringElsewhere
  dsimp only
  split <;> simp [h]

@[simp] theorem State.takeRing_moves {o : Nat} {b : CallBody} (h : Moves s t) : Moves s (t.takeRing o b) := by
  unfold State.takeRing
  dsimp only
  repeat' split
  all_goals simp (maxDischargeDepth := 9) [h]

@[simp] theorem State.takeAnswer_moves {o : Nat} {b : CallBody} (h : Moves s t) : Moves s (t.takeAnswer o b) := by
  unfold State.takeAnswer
  split <;> simp [h]

@[simp] theorem State.takeKeep_moves {o : Nat} {b : CallBody} (h : Moves s t) : Moves s (t.takeKeep o b) := by
  unfold State.takeKeep
  dsimp only
  split <;> simp (maxDischargeDepth := 9) [h]

@[simp] theorem State.takeEnd_moves {o : Nat} {b : CallBody} (h : Moves s t) : Moves s (t.takeEnd o b) := by
  unfold State.takeEnd
  dsimp only
  repeat' split
  all_goals simp [h]

@[simp] theorem State.press_moves {q : Fin 12} {f : KeyFn} {k : KeyId} (h : Moves s t) : Moves s (t.press q f k) := by
  unfold State.press
  repeat' split
  all_goals simp [h]

@[simp] theorem State.keyChange_moves {q : Fin 12} {f : KeyFn} {k : KeyId} {b : Bool} (h : Moves s t) :
    Moves s (t.keyChange q f k b) := by
  unfold State.keyChange
  repeat' split
  all_goals simp [h]

@[simp] theorem State.keySettled_moves {k : Fin 16} (h : Moves s t) : Moves s (t.keySettled k) := by
  unfold State.keySettled
  dsimp only
  split
  · exact h.tbk _
  · split
    · exact h.tbk _
    · exact State.keyChange_moves (h.tbk _)

@[simp] theorem State.beltpack_moves {a : Fin 8} {x y : BitVec 4} (h : Moves s t) : Moves s (t.beltpack a x y) := by
  unfold State.beltpack
  split
  · exact h
  · split
    · exact h
    · split
      · refine Moves.foldl _ (fun u k => ?_) _ h
        have r := Moves.refl (s := u)
        split <;> simp [r]
      · exact h

/-! ## LSUP's samples and sightings -/

@[simp] theorem State.fold_moves {sp : Span} {n : Nat} (h : Moves s t) : Moves s (t.fold sp n) := h.tables _ (fun _ => rfl)

@[simp] theorem State.setFilter_moves {d : Band} {q : List CopyEntry} (h : Moves s t) : Moves s (t.setFilter d q) :=
  h.tables _ (fun _ => rfl)

@[simp] theorem State.foldReceived_moves {o n : Nat} {sp : Span} (h : Moves s t) : Moves s (t.foldReceived o sp n) := by
  unfold State.foldReceived
  dsimp only
  split <;> simp [h]

@[simp] theorem State.issueSighting_moves {l : Fin 8} {sp : Span} {b : Bool} {n : Nat} (h : Moves s t) :
    Moves s (t.issueSighting l sp b n) := by
  unfold State.issueSighting
  dsimp only
  split
  · exact State.modLink_moves (fun _ => rfl) (State.fold_moves (State.takeSighting_moves (State.offer_moves h)))
  · refine Moves.refused l sp b (State.modLink_moves (fun _ => rfl) ?_)
    exact State.fold_moves (State.takeSighting_moves (State.offer_moves h))

@[simp] theorem State.resolveStep_moves {l : Fin 8} {m : Sample} (h : Moves s t) : Moves s (t.resolveStep l m) := by
  unfold State.resolveStep
  split
  · exact State.modLink_moves (fun _ => rfl) (h.tables (t.lsup.resolve _ m.bad) (fun _ => rfl))
  · exact h

@[simp] theorem State.lossStep_moves {l : Fin 8} {m : Sample} (h : Moves s t) : Moves s (t.lossStep l m) := by
  unfold State.lossStep
  split
  · rename_i x hx
    split
    · split <;> simp [h]
    · split
      · exact h
      · exact State.setLink_moves hx rfl h
    all_goals exact h
  · exact h

@[simp] theorem State.sightStep_moves {l : Fin 8} {m : Sample} (h : Moves s t) : Moves s (t.sightStep l m) := by
  have hm : Moves s (t.modLink l fun x => { x with previousBad := m.bad, lastSeverity := m.severity }) :=
    h.link l _ fun _ => rfl
  unfold State.sightStep
  dsimp only
  repeat' split
  all_goals simp [hm]

@[simp] theorem State.predictStep_moves {l : Fin 8} (h : Moves s t) : Moves s (t.predictStep l) :=
  h.link l _ fun _ => rfl

@[simp] theorem State.triggerStep_moves {l : Fin 8} (h : Moves s t) : Moves s (t.triggerStep l) := by
  unfold State.triggerStep
  split
  · rename_i x hx
    split
    · exact State.startReloc_moves (State.setLink_moves hx rfl h)
    · exact h
  · exact h

@[simp] theorem State.countedSample_moves {l : Fin 8} {m : Sample} (h : Moves s t) : Moves s (t.countedSample l m) := by
  unfold State.countedSample
  dsimp only
  exact State.triggerStep_moves (State.predictStep_moves (State.sightStep_moves (State.lossStep_moves
    ((State.resolveStep_moves h).link l _ fun _ => rfl))))

@[simp] theorem State.sample_moves {l : Fin 8} (h : Moves s t) : Moves s (t.sample l) := by
  unfold State.sample
  split
  · rename_i x hx
    have hm : Moves s (t.setLink l { x with sampleTimer := some (t.after (ms x.sampleMs)) }) :=
      State.setLink_moves hx rfl h
    dsimp only
    split
    · exact (State.takeMailbox_moves hm).link l _ fun _ => rfl
    · refine State.countedSample_moves ?_
      split <;> simp [hm]
  · exact h

@[simp] theorem State.endSightingHoldOff_moves {l : Fin 8} (h : Moves s t) : Moves s (t.endSightingHoldOff l) := by
  unfold State.endSightingHoldOff
  split
  · rename_i x hx
    have hm : Moves s (t.setLink l { x with sightingHoldOff := none }) := State.setLink_moves hx rfl h
    dsimp only
    split <;> simp [hm]
  · exact h

@[simp] theorem State.endRelocHoldOff_moves {l : Fin 8} (h : Moves s t) : Moves s (t.endRelocHoldOff l) :=
  State.lossReloc_moves (h.link l _ fun _ => rfl)

/-! ## Tasks -/

@[simp] theorem State.answerTask_moves {k : TaskIn} {r : ReturnCode} {d : List Byte} (h : Moves s t) :
    Moves s (t.answerTask k r d) := State.reply_moves h

@[simp] theorem State.rejectTask_moves {k : TaskIn} {r : ReturnCode} (h : Moves s t) : Moves s (t.rejectTask k r) :=
  State.answerTask_moves h

@[simp] theorem State.setClass_moves {k : TaskIn} (h : Moves s t) : Moves s (t.setClass k) := by
  unfold State.setClass
  split
  · simp [h]
  · rename_i l x hx
    split
    · exact State.answerTask_moves (State.setLink_moves (State.taskLink_link hx) rfl h)
    · simp [h]

@[simp] theorem State.unpinLink_moves {k : TaskIn} (h : Moves s t) : Moves s (t.unpinLink k) := by
  unfold State.unpinLink
  split
  · simp [h]
  · rename_i l x hx
    have hm : Moves s (t.setLink l { x with pinned := false }) := State.setLink_moves (State.taskLink_link hx) rfl h
    dsimp only
    split <;> simp [hm]

@[simp] theorem State.setSample_moves {k : TaskIn} (h : Moves s t) : Moves s (t.setSample k) := by
  unfold State.setSample
  split
  · simp [h]
  · rename_i l x hx
    split
    · split
      · split
        · simp [h]
        · exact State.answerTask_moves (State.setLink_moves (State.taskLink_link hx) rfl h)
      · simp [h]
    · simp [h]

@[simp] theorem State.startLong_moves {k : TaskIn} {c : TaskCode} {l : Fin 8} {a : Cause} {sp : Option Span} {o : Bool}
    (h : Moves s t) : Moves s (t.startLong k c l a sp o) := State.startReloc_moves (h.longTask _)

@[simp] theorem State.pinLink_moves {k : TaskIn} (h : Moves s t) : Moves s (t.pinLink k) := by
  unfold State.pinLink
  repeat' split
  all_goals simp [h]

@[simp] theorem State.moveLink_moves {k : TaskIn} (h : Moves s t) : Moves s (t.moveLink k) := by
  unfold State.moveLink
  repeat' split
  all_goals simp [h]

theorem State.applyMembership_moves {q : Fin 12} {r : TbPort} {n : Fin 16} {a b c : Bool} (h : Moves s t)
    (hu : t.applyMembership q r n a b c = some u) : Moves s u := by
  have hd : Moves s (t.dropMembership q n) := State.dropMembership_moves h
  have hp (m : Membership) : Moves s (t.putMembership q m) := State.putMembership_moves h
  generalize hD : t.dropMembership q n = d at hd
  unfold State.applyMembership at hu
  simp only [hD] at hu
  by_cases hr : (c || (!a && !b)) = true
  · simp only [hr, if_true] at hu
    split at hu
    · exact Option.some.inj hu ▸ hd
    · exact Option.some.inj hu ▸ h
  · simp only [hr] at hu
    generalize hP : t.putMembership q { line := n, listen := a, talk := b } = v at hu
    have hv : Moves s v := hP ▸ hp _
    repeat' split at hu
    all_goals simp only [Option.some.injEq, reduceCtorEq] at hu
    all_goals exact hu ▸ (by assumption)

@[simp] theorem State.setMembership_moves {k : TaskIn} (h : Moves s t) : Moves s (t.setMembership k) := by
  unfold State.setMembership
  split
  · split
    · exact State.rejectTask_moves h
    · split
      · rename_i v hv
        exact State.answerTask_moves (State.applyMembership_moves h hv)
      · exact State.rejectTask_moves h
  · exact State.rejectTask_moves h

@[simp] theorem State.readTally_moves {k : TaskIn} (h : Moves s t) : Moves s (t.readTally k) := by
  unfold State.readTally
  split
  · refine State.answerTask_moves ?_
    split
    · exact h.tally _
    · exact h
  · simp [h]

@[simp] theorem State.taskTimeout_moves (h : Moves s t) : Moves s t.taskTimeout := by
  unfold State.taskTimeout
  split
  · exact State.reply_moves (State.modReloc_moves (h.longTask none))
  · exact h

end Sys2Proof.Machine
end

section
/-! SUPPORT. The receive path (R6) around the dispatch, exactly: what the steps before it do to the ports, the origin
table, the forward queues, the counters and the capture rules, and what the captures after it do to the rules. -/

namespace Sys2Proof.Machine

open Says

variable {p : BusPort} {b : Bulletin} {s t u : State}

@[simp] theorem BusPort.other_other (p : BusPort) : BusPort.other (BusPort.other p) = p := by cases p <;> rfl

/-! ## Learning and forwarding -/

theorem finOf_val {n : Nat} (i : Fin n) : finOf n i.val = some i := by simp [finOf]

/-- Learning changes the origin table alone. -/
theorem State.learn_frame (p : BusPort) (b : Bulletin) (s : State) :
    s.learn p b = { s with biu := { s.biu with origins := (s.learn p b).biu.origins } } := by
  unfold State.learn
  repeat' split
  all_goals rfl

theorem State.learn_of_no_bridge (h : s.isBridge = false ∨ s.isOwn b = true) : s.learn p b = s := by
  unfold State.learn
  rw [if_neg]
  rcases h with h | h <;> simp [h]

theorem State.learn_of_bridge {i : Fin 127} (hb : s.isBridge = true) (ho : s.isOwn b = false)
    (hi : b.origin.toNat = i.val) : s.learn p b =
      if (s.biu.origins[i]).all (fun o => o.port == p) then
        s.setOrigin i (some { port := p, expiry := s.after (sec 10) }) else s := by
  unfold State.learn
  rw [if_pos (by simp [hb, ho]), hi, finOf_val]
  show (match s.biu.origins[i] with | none => _ | some o => _) = _
  cases s.biu.origins[i] <;> simp

/-- Forwarding changes the other port's forward queue or the counters. -/
theorem State.forward_frame (p : BusPort) (b : Bulletin) (s : State) :
    s.forward p b = { s with
      biu := s.biu.setFwd (BusPort.other p) ((s.forward p b).biu.fwd (BusPort.other p)),
      mgmt := { s.mgmt with counters := (s.forward p b).mgmt.counters } } := by
  have hs : s.biu.setFwd (BusPort.other p) (s.biu.fwd (BusPort.other p)) = s.biu := by cases p <;> rfl
  have hf (x : List FwdEntry) : (s.biu.setFwd (BusPort.other p) x).fwd (BusPort.other p) = x := by cases p <;> rfl
  unfold State.forward State.forwardTo
  repeat' split
  all_goals simp only [State.count, State.setFwd, hs, hf]

theorem State.forward_of_no_bridge (h : s.isBridge = false ∨ s.isOwn b = true) : s.forward p b = s := by
  unfold State.forward
  rw [if_neg]
  rcases h with h | h <;> simp [h]

theorem State.forward_of_bridge {i : Fin 127} (hb : s.isBridge = true) (ho : s.isOwn b = false)
    (hi : b.origin.toNat = i.val) : s.forward p b =
      if (s.biu.origins[i]).any (fun o => o.port == p) then
        if b.hops = 0 then s.count .rxHopExpired (some b.length) else s.forwardTo (BusPort.other p) b.copy
      else s.count .rxOriginMismatch (some b.length) := by
  have hl : s.origin b.origin.toNat = s.biu.origins[i] := by rw [State.origin, hi, finOf_val]; rfl
  unfold State.forward
  rw [if_pos (by simp [hb, ho]), hl]

/-! ## Up to the dispatch -/

/-- A bulletin has come through the steps before dispatch (R6), and the capture hook has marked the rules it matches. -/
structure Met (p : BusPort) (b : Bulletin) (s u : State) : Prop where
  arrived : Arrived s u
  port    : u.biu.port p = (s.biu.port p).ended
  other   : u.biu.port (BusPort.other p) = s.biu.port (BusPort.other p)
  rules   : u.mgmt.rules = s.mgmt.rules.map fun r => if r.hitBy b then r.hit else r
  still   : s.isBridge = false ∨ s.isOwn b = true →
    u.biu = s.biu.setPort p (s.biu.port p).ended ∧
      u.mgmt.counters = s.mgmt.counters.map (Counter.bump .rxAccepted (some b.length))
  fwd     : u.biu.fwd p = s.biu.fwd p
  bridge  : ∀ i : Fin 127, s.isBridge = true → s.isOwn b = false → b.origin.toNat = i.val → bridged p b i s u

theorem Met.station_eq (h : Met p b s u) : u.station = s.station := by simp [State.station, State.image, h.arrived.cfg]

theorem Met.image_eq (h : Met p b s u) : u.image = s.image := by simp [State.image, h.arrived.cfg]

/-- The reception ends, and the acceptance is counted (R4, R6). -/
def State.accepted (p : BusPort) (b : Bulletin) (s : State) : State :=
  (s.setPort p (s.biu.port p).ended).count .rxAccepted (some b.length)

/-- The state the dispatch meets, where the bulletin shows no duplicate station. -/
def State.hooked (p : BusPort) (b : Bulletin) (s : State) : State :=
  (((s.accepted p b).learn p b).forward p b).captureHook b

theorem State.accepted_biu (p : BusPort) (b : Bulletin) (s : State) :
    (s.accepted p b).biu = s.biu.setPort p (s.biu.port p).ended := rfl

theorem State.accepted_isBridge (p : BusPort) (b : Bulletin) (s : State) : (s.accepted p b).isBridge = s.isBridge := rfl

theorem State.accepted_isOwn (p : BusPort) (b c : Bulletin) (s : State) : (s.accepted p b).isOwn c = s.isOwn c := rfl

theorem Biu.setPort_fwd (x : Biu) (p q : BusPort) (st : PortState) : (x.setPort p st).fwd q = x.fwd q := by
  cases p <;> cases q <;> rfl

theorem Biu.setPort_origins (x : Biu) (p : BusPort) (st : PortState) : (x.setPort p st).origins = x.origins := by
  cases p <;> rfl

theorem Biu.setFwd_port (x : Biu) (p q : BusPort) (l : List FwdEntry) : (x.setFwd p l).port q = x.port q := by
  cases p <;> cases q <;> rfl

theorem Biu.setFwd_origins (x : Biu) (p : BusPort) (l : List FwdEntry) : (x.setFwd p l).origins = x.origins := by
  cases p <;> rfl

theorem Biu.fwd_setFwd (x : Biu) (p : BusPort) (l : List FwdEntry) : (x.setFwd p l).fwd p = l := by cases p <;> rfl

theorem Biu.fwd_setFwd_other (x : Biu) (p : BusPort) (l : List FwdEntry) :
    (x.setFwd (BusPort.other p) l).fwd p = x.fwd p := by cases p <;> rfl

/-- A bridge's learning and forwarding of a bulletin from another station (R13, R14, R15). -/
theorem State.learn_forward_bridged {i : Fin 127} (hb : s.isBridge = true) (ho : s.isOwn b = false)
    (hi : b.origin.toNat = i.val) : bridged p b i s ((s.learn p b).forward p b) := by
  have hl := State.learn_of_bridge (p := p) hb ho hi
  have hop : (s.biu.origins.set i (some (Origin.mk p (s.after (sec 10)))))[i] = some ⟨p, s.after (sec 10)⟩ :=
    Vector.getElem_set_self _
  have hne (j : Fin 127) (hj : j ≠ i) (o : Option Origin) : (s.biu.origins.set i o)[j] = s.biu.origins[j] :=
    Vector.getElem_set_ne _ _ fun h => hj (Fin.ext h.symm)
  by_cases hk : (s.biu.origins[i]).all (fun o => o.port == p) = true
  · rw [if_pos hk] at hl
    have hf := State.forward_of_bridge (p := p) (b := b) (s := s.setOrigin i (some ⟨p, s.after (sec 10)⟩)) hb ho hi
    have hany : ((s.setOrigin i (some ⟨p, s.after (sec 10)⟩)).biu.origins[i]).any (fun o => o.port == p) = true := by
      show ((s.biu.origins.set i _)[i]).any _ = true
      rw [hop]
      simp
    rw [if_pos hany] at hf
    rw [hl, hf]
    have keep (o : Origin) (h : s.biu.origins[i] = some o) : ¬ o.port ≠ p := by simpa [h] using hk
    by_cases h0 : b.hops = 0
    · rw [if_pos h0]
      exact ⟨rfl, fun j hj => hne j hj _, fun o h h' => absurd h' (keep o h), fun _ => ⟨hop,
        fun h1 => absurd h1 (by have : b.hopPrio.toNat % 4 = 0 := h0
                                omega), fun _ => rfl⟩⟩
    · rw [if_neg h0]
      have h0' : b.hopPrio.toNat % 4 ≠ 0 := h0
      unfold State.forwardTo
      have hq : (s.setOrigin i (some ⟨p, s.after (sec 10)⟩)).biu.fwd (BusPort.other p) =
          s.biu.fwd (BusPort.other p) := by cases p <;> rfl
      rw [hq]
      by_cases hr : (s.biu.fwd (BusPort.other p)).length < 8
      · rw [if_pos hr]
        refine ⟨?_, fun j hj => ?_, fun o h h' => absurd h' (keep o h), fun _ => ⟨?_, fun _ _ => ?_, fun h => ?_⟩⟩
        · exact Biu.fwd_setFwd_other _ p _
        · simp only [State.setFwd, Biu.setFwd_origins]
          exact hne j hj _
        · simp only [State.setFwd, Biu.setFwd_origins]
          exact hop
        · exact Biu.fwd_setFwd _ _ _
        · rcases h with h | h
          · exact absurd h h0'
          · omega
      · rw [if_neg hr]
        exact ⟨rfl, fun j hj => hne j hj _, fun o h h' => absurd h' (keep o h), fun _ => ⟨hop,
          fun _ h => absurd h hr, fun _ => hq⟩⟩
  · rw [if_neg hk] at hl
    have hany : (s.biu.origins[i]).any (fun o => o.port == p) = false := by
      cases ho : s.biu.origins[i] <;> simp [ho] at hk ⊢
      exact hk
    have hf := State.forward_of_bridge (p := p) hb ho hi
    rw [if_neg (by rw [hany]; exact Bool.false_ne_true)] at hf
    rw [hl, hf]
    exact ⟨rfl, fun _ _ => rfl, fun o h _ => ⟨h, rfl⟩, fun h => absurd h hk⟩

theorem State.hooked_met (p : BusPort) (b : Bulletin) (s : State) : Met p b s (s.hooked p b) := by
  have hl := State.learn_frame p b (s.accepted p b)
  generalize hv : (s.accepted p b).learn p b = v at hl
  have hf := State.forward_frame p b v
  generalize hw : v.forward p b = w at hf
  have hh : s.hooked p b = w.captureHook b := by rw [State.hooked, hv, hw]
  have hport : w.biu.port p = (s.biu.port p).ended ∧
      w.biu.port (BusPort.other p) = s.biu.port (BusPort.other p) ∧ w.biu.fwd p = s.biu.fwd p := by
    rw [hf]
    refine ⟨?_, ?_, ?_⟩
    · rw [Biu.setFwd_port, hl]
      exact Biu.port_setPort _ _ _
    · rw [Biu.setFwd_port, hl]
      exact Biu.port_setPort_other _ _ _
    · rw [Biu.fwd_setFwd_other, hl]
      exact Biu.setPort_fwd _ _ _ _
  have hrules : w.mgmt.rules = s.mgmt.rules := by rw [hf, hl]; rfl
  rw [hh]
  refine { arrived := ?_, port := hport.1, other := hport.2.1, rules := ?_, still := fun h => ?_, fwd := hport.2.2,
           bridge := fun i hb ho hi => ?_ }
  · refine Arrived.trans ?_ (State.captureHook_arrived b w)
    rw [← hw, ← hv]
    exact ((State.setPort_arrived p _ s).trans (State.count_arrived _ _ _)).trans
      ((State.learn_arrived p b _).trans (State.forward_arrived p b _))
  · show w.mgmt.rules.map _ = _
    rw [hrules]
  · have hva : v = s.accepted p b := by rw [← hv]; exact State.learn_of_no_bridge h
    have hwa : w = s.accepted p b := by
      rw [← hw, hva]
      exact State.forward_of_no_bridge h
    rw [hwa]
    exact ⟨rfl, rfl⟩
  · have key := State.learn_forward_bridged (p := p) (s := s.accepted p b) hb ho hi
    rw [hv, hw] at key
    obtain ⟨k1, k2, k3, k4⟩ := key
    simp only [State.accepted_biu, Biu.setPort_fwd, Biu.setPort_origins] at k1 k2 k3 k4
    exact ⟨k1, k2, k3, k4⟩

/-! ## The captures -/

/-- The captures of a bulletin have been made: their rules hold its header, and the others stay. -/
structure CapturesOf (b : Bulletin) (d : Disposition) (once : List (Fin 4)) (s t : State) : Prop where
  captured : Captured s t
  hit  : ∀ k : Fin 4, k ∈ once → ∃ h : HeldCapture, h.disposition = d ∧ h.header = b.header ∧
    t.mgmt.rules[k] = { s.mgmt.rules[k] with held := some h }
  rest : ∀ k : Fin 4, k ∉ once → t.mgmt.rules[k] = s.mgmt.rules[k]
  none : once = [] → t = s

/-- Two states' rule is the same but for what it holds. -/
theorem State.makeCapture_rules (b : Bulletin) (d : Disposition) (k : Fin 4) (s : State) :
    (∃ h : HeldCapture, h.disposition = d ∧ h.header = b.header ∧
      (State.makeCapture b d s k).mgmt.rules[k] = { s.mgmt.rules[k] with held := some h }) ∧
    ∀ j : Fin 4, j ≠ k → (State.makeCapture b d s k).mgmt.rules[j] = s.mgmt.rules[j] := by
  unfold State.makeCapture
  dsimp only
  generalize ho : ({ kind := .capture, urgent := false, target := _, body := _, key := none, block := .mgmt,
                     ticket := .capture k } : Offer) = o
  have hr := (State.offer_plain (o := o) (by rw [← ho]) (by rw [← ho]) s).2
  refine ⟨⟨{ disposition := d, header := b.header, age := (s.offer o).2,
             delivery := if (s.offer o).2.isSome then .queued else .refused }, rfl, rfl, ?_⟩, fun j hj => ?_⟩
  · exact Vector.getElem_set_self _
  · show ((s.offer o).1.mgmt.rules.set k _)[j] = _
    rw [hr]
    exact Vector.getElem_set_ne _ _ fun h => hj (Fin.ext h.symm)

theorem State.captures_rest (b : Bulletin) (d : Disposition) (once : List (Fin 4)) (s : State) {k : Fin 4}
    (hk : k ∉ once) : (once.foldl (State.makeCapture b d) s).mgmt.rules[k] = s.mgmt.rules[k] := by
  induction once generalizing s with
  | nil => rfl
  | cons j l ih =>
    simp only [List.mem_cons, not_or] at hk
    exact (ih _ hk.2).trans ((State.makeCapture_rules b d j s).2 k hk.1)

theorem State.captures_hit (b : Bulletin) (d : Disposition) {once : List (Fin 4)} (hn : once.Nodup) (s : State)
    {k : Fin 4} (hk : k ∈ once) : ∃ h : HeldCapture, h.disposition = d ∧ h.header = b.header ∧
      (once.foldl (State.makeCapture b d) s).mgmt.rules[k] = { s.mgmt.rules[k] with held := some h } := by
  induction once generalizing s with
  | nil => exact absurd hk (List.not_mem_nil)
  | cons j l ih =>
    obtain ⟨hj, hl⟩ := List.nodup_cons.1 hn
    obtain ⟨hold, keep⟩ := State.makeCapture_rules b d j s
    rcases List.mem_cons.1 hk with rfl | hkl
    · obtain ⟨h, h1, h2, h3⟩ := hold
      exact ⟨h, h1, h2, (State.captures_rest b d l _ hj).trans h3⟩
    · obtain ⟨h, h1, h2, h3⟩ := ih hl (State.makeCapture b d s j) hkl
      have hne : k ≠ j := fun e => hj (e ▸ hkl)
      exact ⟨h, h1, h2, by rw [List.foldl_cons, h3, keep k hne]⟩

theorem State.captures_of (b : Bulletin) (d : Disposition) {once : List (Fin 4)} (hn : once.Nodup) (s : State) :
    CapturesOf b d once s (once.foldl (State.makeCapture b d) s) :=
  ⟨State.captures_captured b d once s, fun _ hk => State.captures_hit b d hn s hk,
    fun _ hk => State.captures_rest b d once s hk, fun h => by rw [h]; rfl⟩

theorem State.onceHits_nodup (b : Bulletin) (s : State) : (s.onceHits b).Nodup :=
  (List.nodup_finRange 4).filter _

theorem State.mem_onceHits {k : Fin 4} :
    k ∈ s.onceHits b ↔ s.mgmt.rules[k].hitBy b = true ∧ s.mgmt.rules[k].mode = .once := by
  simp [State.onceHits]

theorem CaptureRule.hitBy_of_off {r : CaptureRule} (h : r.mode = .off) (b : Bulletin) : r.hitBy b = false := by
  simp [CaptureRule.hitBy, h]

theorem State.onceHits_of_noneArmed (h : noneArmed s) (b : Bulletin) : s.onceHits b = [] := by
  refine List.eq_nil_iff_forall_not_mem.2 fun k hk => ?_
  rw [State.mem_onceHits, CaptureRule.hitBy_of_off (h k)] at hk
  exact absurd hk.1 Bool.false_ne_true

/-! ## The whole path -/

/-- A bulletin that shows no duplicate station: the steps before dispatch, the dispatch, and the captures. -/
theorem State.heardRun_path {n : Nat} (hp : s.hears p = true) (hd : s.isOwn b = false ∨ b.kind ≠ Kind.presence.code) :
    ∃ v, CapturesOf b ((s.hooked p b).dispatch b).2 (s.onceHits b) ((s.hooked p b).dispatch b).1 v ∧
      s.heardRun p n (some b) = v := by
  have hdd (w : State) (hw : w.isOwn b = s.isOwn b) : w.detectDuplicate b = w := by
    unfold State.detectDuplicate
    rw [if_neg]
    rw [hw]
    rcases hd with h | h
    · simp [h]
    · simp [h]
  have hlf := State.learn_frame p b (s.accepted p b)
  have hown : ((s.accepted p b).learn p b).isOwn b = s.isOwn b := by rw [hlf]; rfl
  have honce : (((s.accepted p b).learn p b).forward p b).onceHits b = s.onceHits b := by
    rw [State.forward_frame, State.learn_frame]
    rfl
  refine ⟨_, State.captures_of b _ (State.onceHits_nodup b s) _, ?_⟩
  unfold State.heardRun
  rw [if_pos hp]
  show ((s.accepted p b).receivePath p b) = _
  unfold State.receivePath
  rw [hdd _ hown]
  show List.foldl _ _ ((((s.accepted p b).learn p b).forward p b).onceHits b) = _
  rw [honce]
  rfl

theorem Rx.accept_of_acceptable {rx : Rx} (h : rx.acceptable = true) (k : Kind) : rx.accept k = some (rx.bulletin k) := by
  simp [Rx.accept, h]

/-- A command that is the arrival of a bulletin is its reception, by whichever row it has. -/
theorem exec_arrives {c : Instr} {k : Kind} {rx : Rx} (h : arrives c k p rx) (s : State) :
    exec c s = done (s.receive p k rx) := by
  rcases h with rfl | ⟨code, x, rfl, rfl, rfl⟩
  · cases k <;> rfl
  · cases code <;> rfl

/-- A bulletin of another station. -/
theorem State.isOwn_of_heard {rx : Rx} (h : heard p rx s) (k : Kind) : s.isOwn (rx.bulletin k) = false := by
  simp [State.isOwn, Rx.bulletin, h.2.2]

/-- The arrival of a bulletin of another station. -/
theorem exec_heard {c : Instr} {k : Kind} {rx : Rx} (ha : arrives c k p rx) (hh : heard p rx s) :
    ∃ u v, Met p (rx.bulletin k) s u ∧
      CapturesOf (rx.bulletin k) (u.dispatch (rx.bulletin k)).2 (s.onceHits (rx.bulletin k))
        (u.dispatch (rx.bulletin k)).1 v ∧ exec c s = .next v.finish := by
  obtain ⟨v, hv, he⟩ := State.heardRun_path (n := 7 + rx.body.length) hh.1 (.inl (State.isOwn_of_heard hh k))
  refine ⟨_, v, State.hooked_met p _ s, hv, ?_⟩
  rw [exec_arrives ha, State.receive, Rx.accept_of_acceptable hh.2.1, he]
  rfl

/-- The arrival of a bulletin of another station that is for this one. -/
theorem exec_received {c : Instr} {k : Kind} {rx : Rx} (ha : arrives c k p rx) (hh : received p rx s) :
    ∃ u v, Met p (rx.bulletin k) s u ∧
      CapturesOf (rx.bulletin k) (u.deliver k (rx.bulletin k)).2 (s.onceHits (rx.bulletin k))
        (u.deliver k (rx.bulletin k)).1 v ∧ exec c s = .next v.finish := by
  obtain ⟨u, v, hm, hc, he⟩ := exec_heard ha hh.1
  rw [State.dispatch_deliver (by rw [hm.station_eq]; exact hh.1.2.2) (by rw [hm.station_eq]; exact hh.2)] at hc
  exact ⟨u, v, hm, hc, he⟩

end Sys2Proof.Machine
end

section
/-! SUPPORT. A bulletin that reaches no block (R7, R22): what the receive path does with it is all that happens. -/

namespace Sys2Proof.Machine

open Says

variable {p : BusPort} {b : Bulletin} {d : Disposition} {s u v w : State}

theorem State.finish_biu (s : State) : s.finish.biu = s.biu := by simp

theorem State.finish_mgmt (s : State) : s.finish.mgmt = s.mgmt := by simp

/-- A bulletin has gone through the receive path and to no block, with a disposition. -/
structure PassedBy (p : BusPort) (b : Bulletin) (d : Disposition) (s t : State) : Prop where
  station : stationKept s t
  now     : t.now = s.now
  records : recordsKept s t
  longTask : t.mgmt.longTask = s.mgmt.longTask
  recent  : t.mgmt.recent = s.mgmt.recent
  port    : t.biu.port p = (s.biu.port p).ended
  still   : s.isBridge = false ∨ s.isOwn b = true →
    t.biu.origins = s.biu.origins ∧ t.biu.fwdA = s.biu.fwdA ∧ t.biu.fwdB = s.biu.fwdB
  bridge  : ∀ i : Fin 127, s.isBridge = true → s.isOwn b = false → b.origin.toNat = i.val → bridged p b i s t
  queue   : noneArmed s → t.biu.queue = s.biu.queue
  counters : noneArmed s → s.isBridge = false → s.isOwn b = false →
    t.mgmt.counters = s.mgmt.counters.map (Counter.bump .rxAccepted (some b.length))
  held    : ∀ k : Fin 4, s.mgmt.rules[k].hitBy b = true → s.mgmt.rules[k].mode = .once →
    ∃ h : HeldCapture, t.mgmt.rules[k].held = some h ∧ h.header = b.header ∧ h.disposition = d

/-- The dispatch leaves the state it met, but for a count of an own-origin bulletin (R7). -/
def State.Undispatched (b : Bulletin) (u w : State) : Prop :=
  w = u ∨ u.isOwn b = true ∧ w = u.count .rxOriginMismatch (some b.length)

theorem Captured.port_eq (h : Captured s u) (q : BusPort) : u.biu.port q = s.biu.port q := by
  cases q
  · exact h.portA
  · exact h.portB

theorem Captured.fwd_eq (h : Captured s u) (q : BusPort) : u.biu.fwd q = s.biu.fwd q := by
  cases q
  · exact h.fwdA
  · exact h.fwdB

theorem Met.isOwn_eq (h : Met p b s u) (c : Bulletin) : u.isOwn c = s.isOwn c := by
  simp [State.isOwn, h.station_eq]

theorem Met.passedBy (hm : Met p b s u) (hw : State.Undispatched b u w)
    (hc : CapturesOf b d (s.onceHits b) w v) : PassedBy p b d s v.finish := by
  have hwa : Arrived u w := by
    rcases hw with rfl | ⟨-, rfl⟩
    · exact Arrived.refl _
    · exact State.count_arrived _ _ _
  have hwb : w.biu = u.biu := by rcases hw with rfl | ⟨-, rfl⟩ <;> rfl
  have hwr : w.mgmt.rules = u.mgmt.rules := by rcases hw with rfl | ⟨-, rfl⟩ <;> rfl
  have ha := hm.arrived.trans hwa
  have hcap := hc.captured
  have hnone (h : noneArmed s) : v = w := hc.none (State.onceHits_of_noneArmed h b)
  refine ⟨?_, ?_, ?_, ?_, ?_, ?_, fun h => ?_, fun i hb ho hi => ?_, fun h => ?_, fun h hb ho => ?_, fun k hk ho => ?_⟩
  · exact (ha.stationKept.trans hcap.stationKept).trans v.finish_stationKept
  · simp [hcap.now, ha.now]
  · exact (ha.recordsKept.trans hcap.recordsKept).trans v.finish_recordsKept
  · simp [hcap.longTask, ha.longTask]
  · simp [hcap.recent, ha.recent]
  · rw [State.finish_biu, hcap.port_eq, hwb, hm.port]
  · have hs := (hm.still h).1
    rw [State.finish_biu, hcap.origins, hcap.fwdA, hcap.fwdB, hwb, hs]
    exact ⟨Biu.setPort_origins _ _ _, Biu.setPort_fwd _ p .a _, Biu.setPort_fwd _ p .b _⟩
  · obtain ⟨b1, b2, b3, b4⟩ := hm.bridge i hb ho hi
    unfold bridged
    rw [State.finish_biu, hcap.origins, hcap.fwd_eq, hcap.fwd_eq, hwb]
    exact ⟨b1, b2, b3, b4⟩
  · rw [hnone h, State.finish_biu, ha.queue]
  · have hwu : w = u := by
      rcases hw with rfl | ⟨h', -⟩
      · rfl
      · exact absurd ((hm.isOwn_eq b).symm.trans h') (by simp [ho])
    rw [hnone h, hwu, State.finish_mgmt, (hm.still (.inl hb)).2]
  · obtain ⟨h, h1, h2, h3⟩ := hc.hit k (State.mem_onceHits.2 ⟨hk, ho⟩)
    exact ⟨h, by rw [State.finish_mgmt, h3], h2, h1⟩

/-! ## The dispatches that reach no block -/

theorem State.dispatch_own (h : s.isOwn b = true) :
    s.dispatch b = (s.count .rxOriginMismatch (some b.length), .ownOrigin) := by
  simp [State.dispatch, h]

theorem State.dispatch_elsewhere (ho : s.isOwn b = false) (h0 : b.target ≠ 0) (ht : b.target.toNat ≠ s.station) :
    s.dispatch b = (s, .notAddressed) := by
  unfold State.dispatch
  rw [if_neg (by simp [ho]), if_pos ⟨h0, ht⟩]

theorem State.dispatch_unknown (ho : s.isOwn b = false) (ht : ¬(b.target ≠ 0 ∧ b.target.toNat ≠ s.station))
    (hk : Kind.ofCode b.kind = none) : s.dispatch b = (s, .unknownKind) := by
  unfold State.dispatch
  rw [if_neg (by simp [ho]), if_neg ht, hk]

/-- A bulletin of an unassigned kind: its disposition (R23). -/
theorem State.dispatch_unassigned (hk : Kind.ofCode b.kind = none) (s : State) :
    State.Undispatched b s (s.dispatch b).1 ∧ (s.dispatch b).2 = if b.origin.toNat = s.station then .ownOrigin
      else if b.target ≠ 0 ∧ b.target.toNat ≠ s.station then .notAddressed else .unknownKind := by
  by_cases ho : b.origin.toNat = s.station
  · have hown : s.isOwn b = true := by simp [State.isOwn, ho]
    rw [State.dispatch_own hown, if_pos ho]
    exact ⟨.inr ⟨hown, rfl⟩, rfl⟩
  · have hown : s.isOwn b = false := by simp [State.isOwn, ho]
    rw [if_neg ho]
    by_cases ht : b.target ≠ 0 ∧ b.target.toNat ≠ s.station
    · rw [State.dispatch_elsewhere hown ht.1 ht.2, if_pos ht]
      exact ⟨.inl rfl, rfl⟩
    · rw [State.dispatch_unknown hown ht hk, if_neg ht]
      exact ⟨.inl rfl, rfl⟩

/-! ## Receptions -/

theorem acceptRun_acceptable {run : List Byte} {k : Kind} {rx : Rx} (h : acceptRun run = some (rx.bulletin k)) :
    rx.acceptable = true := by
  unfold acceptRun at h
  split at h
  · split at h
    · rename_i hc
      have hb := Option.some.inj h
      have ho : rx.origin = _ := (congrArg Bulletin.origin hb).symm
      have hl : rx.body = _ := (congrArg Bulletin.body hb).symm
      simp only [Rx.acceptable, ho, hl, hc.2.2.1, List.length_take, Bool.true_and, decide_eq_true_eq]
      exact Nat.le_trans (Nat.min_le_left _ _) hc.1
    · cases h
  · cases h

theorem arrives_arrival (k : Kind) (p : BusPort) (rx : Rx) : arrives (arrival k p rx) k p rx := .inl rfl

/-- The length of a run that is discarded does not matter to one that passes. -/
theorem State.heardRun_some (p : BusPort) (m n : Nat) (b : Bulletin) (s : State) :
    s.heardRun p m (some b) = s.heardRun p n (some b) := rfl

theorem exec_receptionEnd_arrival {k : Kind} {rx : Rx} {run : List Byte} (h : acceptRun run = some (rx.bulletin k)) :
    exec (.receptionEnd p run) s = exec (arrival k p rx) s := by
  rw [exec_arrives (arrives_arrival k p rx), State.receive, Rx.accept_of_acceptable (acceptRun_acceptable h)]
  show done (s.heardRun p run.length (acceptRun run)) = _
  rw [h]
  rfl

theorem State.hears_begins (hh : s.hears p = true) {st : PortState} (h : s.biu.port p = st) :
    exec (.receptionStart p) s = .next (s.setPort p st.begun).finish := by
  show done (if s.hears p then s.setPort p (s.biu.port p).begun else s) = _
  rw [if_pos hh, h]
  rfl

theorem State.hears_discards {run : List Byte} (hh : s.hears p = true) (hr : acceptRun run = none) {st : PortState}
    (h : s.biu.port p = st) : exec (.receptionEnd p run) s =
      .next ((s.setPort p st.ended).count .rxBadCheck (some run.length)).finish := by
  show done (s.heardRun p run.length (acceptRun run)) = _
  unfold State.heardRun
  rw [hr, if_pos hh, h]
  rfl

theorem State.deaf_receives (hh : s.hears p = false) (run : List Byte) :
    exec (.receptionStart p) s = .next s.finish ∧ exec (.receptionEnd p run) s = .next s.finish := by
  constructor
  · show done (if s.hears p then s.setPort p (s.biu.port p).begun else s) = _
    rw [if_neg (by simp [hh])]
    rfl
  · exact congrArg done (State.heardRun_of_deaf hh run.length (acceptRun run))

theorem Kind.ofCode_code (k : Kind) : Kind.ofCode k.code = some k := by cases k <;> rfl

theorem Kind.code_injective {k l : Kind} (h : k.code = l.code) : k = l := by
  simpa [Kind.ofCode_code] using congrArg Kind.ofCode h

/-- A run with a bulletin of an unassigned kind passes through to no block. -/
theorem exec_receptionEnd_unassigned {run : List Byte} (hh : s.hears p = true) (hr : acceptRun run = some b)
    (hk : Kind.ofCode b.kind = none) : ∃ t, exec (.receptionEnd p run) s = .next t ∧
      PassedBy p b (if b.origin.toNat = s.station then .ownOrigin
        else if b.target ≠ 0 ∧ b.target.toNat ≠ s.station then .notAddressed else .unknownKind) s t := by
  have hne : b.kind ≠ Kind.presence.code := fun h => by
    rw [h, Kind.ofCode_code] at hk
    cases hk
  obtain ⟨v, hv, he⟩ := State.heardRun_path (n := run.length) hh (.inr hne)
  have hm := State.hooked_met p b s
  obtain ⟨hw, hd⟩ := State.dispatch_unassigned hk (s.hooked p b)
  rw [hd, hm.station_eq] at hv
  refine ⟨v.finish, ?_, hm.passedBy hw hv⟩
  show done (s.heardRun p run.length (acceptRun run)) = _
  rw [hr, he]
  rfl

/-- Settles O16: receptions begin and end as R4 and R5 have it, and what passes acceptance goes through the receive path. -/
theorem receptionsBeginAndEnd : Obligations.ReceptionsBeginAndEnd := by
  refine ⟨fun p s hh hp => State.hears_begins hh hp, fun p n d r s hh hp => State.hears_begins hh hp,
    fun p run s hh hr hp => State.hears_discards hh hr hp, fun p run n d r s hh hr hp => State.hears_discards hh hr hp,
    fun p run s hh => State.deaf_receives hh run, fun k p rx run s h => exec_receptionEnd_arrival h,
    fun p run b s hh hr hk => ?_⟩
  obtain ⟨t, he, ht⟩ := exec_receptionEnd_unassigned hh hr hk
  have own_iff : s.isOwn b = true ↔ b.origin.toNat = s.station := by simp [State.isOwn]
  have own_false (h : b.origin.toNat ≠ s.station) : s.isOwn b = false := by simp [State.isOwn, h]
  refine ⟨t, he, ht.station, ht.now, ht.records, ht.longTask, ht.recent, fun h => ?_, fun n d r h => ?_,
    fun h => ht.still (h.imp_right own_iff.2), fun i hb ho hi => ht.bridge i hb (own_false ho) hi,
    fun h => ⟨ht.queue h, fun hb ho => ht.counters h hb (own_false ho)⟩, ht.held⟩
  · rw [ht.port, h]
    rfl
  · rw [ht.port, h]
    rfl

/-! ## Bulletins for no block -/

theorem heard_passes_elsewhere {c : Instr} {k : Kind} {rx : Rx} (ha : arrives c k p rx) (hh : heard p rx s)
    (h0 : rx.target ≠ 0) (ht : rx.target.toNat ≠ s.station) :
    ∃ t, exec c s = .next t ∧ PassedBy p (rx.bulletin k) .notAddressed s t := by
  obtain ⟨u, v, hm, hc, he⟩ := exec_heard ha hh
  rw [State.dispatch_elsewhere ((hm.isOwn_eq _).trans (State.isOwn_of_heard hh k)) h0
    (by rw [hm.station_eq]; exact ht)] at hc
  exact ⟨_, he, hm.passedBy (.inl rfl) hc⟩

/-- A kind whose block leaves a bulletin as it is: its delivery changes nothing. -/
theorem received_passes {c : Instr} {k : Kind} {rx : Rx} (ha : arrives c k p rx) (hh : received p rx s)
    (hd : ∀ u : State, Met p (rx.bulletin k) s u → u.deliver k (rx.bulletin k) = (u, d)) :
    ∃ t, exec c s = .next t ∧ PassedBy p (rx.bulletin k) d s t := by
  obtain ⟨u, v, hm, hc, he⟩ := exec_received ha hh
  rw [hd u hm] at hc
  exact ⟨_, he, hm.passedBy (.inl rfl) hc⟩

/-- An own-origin bulletin that shows no duplicate station: of another kind, or discarded by R192, or of the same serial,
or met in SILENT (R7, R20). -/
theorem own_passes {k : Kind} {rx : Rx} (hp : s.hears p = true) (ha : rx.acceptable = true)
    (ho : rx.origin.toNat = s.station) (hk : k ≠ .presence) :
    ∃ t, exec (arrival k p rx) s = .next t ∧ PassedBy p (rx.bulletin k) .ownOrigin s t := by
  have hne : (rx.bulletin k).kind ≠ Kind.presence.code := fun h => hk (Kind.code_injective h)
  obtain ⟨v, hv, he⟩ := State.heardRun_path (n := 7 + rx.body.length) hp (.inr hne)
  have hm := State.hooked_met p (rx.bulletin k) s
  have hown : (s.hooked p (rx.bulletin k)).isOwn (rx.bulletin k) = true := by
    rw [hm.isOwn_eq]
    simp [State.isOwn, Rx.bulletin, ho]
  rw [State.dispatch_own hown] at hv
  refine ⟨v.finish, ?_, hm.passedBy (.inr ⟨hown, rfl⟩) hv⟩
  rw [exec_arrives (arrives_arrival k p rx), State.receive, Rx.accept_of_acceptable ha, he]
  rfl

/-- Settles O23: a bulletin for another station, of the station's own, or that no block takes leaves every block. -/
theorem bulletinsForNoBlock : Obligations.BulletinsForNoBlock := by
  refine ⟨fun k p rx s hh h0 ht => ?_, fun k p rx s hp ha ho hk => ?_, fun k p rx s hk hr => ?_⟩
  · obtain ⟨t, he, h⟩ := heard_passes_elsewhere (arrives_arrival k p rx) hh h0 ht
    exact ⟨t, he, h.station, h.now, h.records, h.longTask, h.recent⟩
  · obtain ⟨t, he, h⟩ := own_passes hp ha ho hk
    obtain ⟨h1, h2, h3⟩ := h.still (.inr (by simp [State.isOwn, Rx.bulletin, ho]))
    exact ⟨t, he, h.station, h.now, h.records, h.longTask, h.recent, h1, h2, h3⟩
  · obtain ⟨t, he, h⟩ := received_passes (d := .accepted) (arrives_arrival k p rx) hr fun u _ => by
      rcases hk with rfl | rfl <;> rfl
    exact ⟨t, he, h.station, h.now, h.records, h.longTask, h.recent, fun hb hn =>
      ⟨h.counters hn hb (State.isOwn_of_heard hr.1 k), h.queue hn⟩⟩

end Sys2Proof.Machine
end

section
/-! SUPPORT. What an offer can do (R8, R9, R11), in every case: to the rest of the station, and to the queue. -/

namespace Sys2Proof.Machine

open Says

variable {o : Offer} {s t u v : State}

/-! ## Outside the queue -/

/-- Two states agree but for the queue, the links' last announced states, what the capture rules hold, and the counters;
where the queue had room, for the queue alone. -/
structure Offered (s t : State) : Prop where
  eq : t = { s with
    biu := { s.biu with queue := t.biu.queue, nextAge := t.biu.nextAge }
    lsup := { s.lsup with links := t.lsup.links }
    mgmt := { s.mgmt with rules := t.mgmt.rules, counters := t.mgmt.counters } }
  links : ∀ l : Fin 8, t.link l = s.link l ∨
    ∃ x, s.link l = some x ∧ t.link l = some { x with announcedBad := !x.announcedBad }
  rules : ∀ k : Fin 4, ∃ h, t.mgmt.rules[k] = { s.mgmt.rules[k] with held := h }
  room : s.biu.queue.length < 16 → t = { s with biu := { s.biu with queue := t.biu.queue, nextAge := t.biu.nextAge } }

theorem Offered.of_queue {q : List QueueEntry} {n : Nat}
    (h : t = { s with biu := { s.biu with queue := q, nextAge := n } }) : Offered s t := by
  subst h
  exact ⟨rfl, fun _ => .inl rfl, fun k => ⟨s.mgmt.rules[k].held, rfl⟩, fun _ => rfl⟩

theorem Offered.refl (s : State) : Offered s s := Offered.of_queue (q := s.biu.queue) (n := s.biu.nextAge) rfl

/-- From a state that differs in the queue alone, and has no more entries. -/
theorem Offered.of_shorter {q : List QueueEntry} (hq : q.length ≤ s.biu.queue.length)
    (h : Offered (s.setQueue q) t) : Offered s t where
  eq := h.eq
  links := h.links
  rules := h.rules
  room hr := h.room (Nat.lt_of_le_of_lt hq hr)

theorem State.rules_evict (e : QueueEntry) (s : State) (k : Fin 4) :
    ∃ h, (s.evict e).mgmt.rules[k] = { s.mgmt.rules[k] with held := h } := by
  have hr := State.rules_reportEvicted e ((s.removeQueued e.age).count .txQueueRefused (some e.bulletin.length)) k
  change (s.evict e).mgmt.rules[k] = match s.mgmt.rules[k].held with
      | some h => if e.ticket = .capture k ∧ h.age = some e.age then { s.mgmt.rules[k] with held := some { h with
          delivery := if e.sent.isEmpty then .refused else .sent } } else s.mgmt.rules[k]
      | none => s.mgmt.rules[k] at hr
  rw [hr]
  cases s.mgmt.rules[k].held with
  | none => exact ⟨s.mgmt.rules[k].held, rfl⟩
  | some h =>
    dsimp only
    split
    · exact ⟨_, rfl⟩
    · exact ⟨s.mgmt.rules[k].held, rfl⟩

theorem State.link_evict (e : QueueEntry) (s : State) (l : Fin 8) : (s.evict e).link l = s.link l ∨
    ∃ x, s.link l = some x ∧ (s.evict e).link l = some { x with announcedBad := !x.announcedBad } := by
  have hl := State.link_reportEvicted e ((s.removeQueued e.age).count .txQueueRefused (some e.bulletin.length)) l
  change (s.evict e).link l = match s.link l with
      | some x => if (x.current.any fun sp => e.ticket == .sighting l sp x.announcedBad) ∧ e.sent.isEmpty = true
          then some { x with announcedBad := !x.announcedBad } else some x
      | none => none at hl
  rw [hl]
  cases s.link l with
  | none => exact .inl rfl
  | some x =>
    dsimp only
    split
    · exact .inr ⟨x, rfl, rfl⟩
    · exact .inl rfl

theorem State.addEntry_offered (o : Offer) (s : State) : Offered s (s.addEntry o).1 := by
  by_cases hq : s.biu.queue.length < 16
  · rw [State.addEntry_of_room hq]
    exact Offered.of_queue rfl
  · have hq' : 16 ≤ s.biu.queue.length := by omega
    have refused : Offered s (s.refuseOffer o) :=
      ⟨rfl, fun _ => .inl rfl, fun k => ⟨s.mgmt.rules[k].held, rfl⟩, fun h => absurd h hq⟩
    cases hu : o.urgent with
    | false =>
      rw [State.addEntry_refused hq' (.inl hu)]
      exact refused
    | true =>
      cases hv : youngestNormal s with
      | none =>
        rw [State.addEntry_refused hq' (.inr hv)]
        exact refused
      | some v =>
        rw [State.addEntry_evicting hq' hu hv, State.appendEntry_eq]
        have hf := State.evict_frame v s
        refine ⟨?_, State.link_evict v s, State.rules_evict v s, fun h => absurd h hq⟩
        dsimp only
        rw [hf]

theorem State.offer_offered (o : Offer) (s : State) : Offered s (s.offer o).1 := by
  have hlen (p : QueueEntry → Bool) (q : List QueueEntry) (h : q.length ≤ s.biu.queue.length) :
      (q.filter p).length ≤ s.biu.queue.length := Nat.le_trans (List.length_filter_le p q) h
  have hd := hlen (fun e => !o.supersedes e) s.biu.queue (Nat.le_refl _)
  unfold State.offer
  split
  · dsimp only
    split
    · split
      · exact Offered.of_shorter (hlen _ _ hd) (State.addEntry_offered o _)
      · exact Offered.of_queue (n := s.biu.nextAge) rfl
    · exact Offered.of_shorter hd (State.addEntry_offered o _)
  · exact Offered.refl s

/-- An offer changes no link record but its last announced state. -/
theorem Offered.desc (h : Offered s t) (l : Fin 8) : (t.link l).map (·.desc) = (s.link l).map (·.desc) := by
  rcases h.links l with h | ⟨x, hx, ht⟩
  · rw [h]
  · rw [hx, ht]
    rfl

/-! ## In the queue -/

/-- An entry of a queue holds an offer's bulletin, URGENT where it is offered so. -/
def Holds (o : Offer) (s t : State) : Prop :=
  ∃ e ∈ t.biu.queue, (o.urgent = true → e.urgent = true) ∧ e.key = o.key ∧ e.bulletin = s.build o e.urgent

theorem State.addEntry_holds (h : s.biu.queue.length < 16) : Holds o s (s.addEntry o).1 ∧ (s.addEntry o).2.isSome = true := by
  rw [State.addEntry_of_room h]
  exact ⟨⟨newEntry s o, List.mem_append_right _ (List.mem_singleton_self _), fun h => h, rfl, rfl⟩, rfl⟩

/-- Where the queue takes offers and has room, it takes this one. -/
theorem State.offer_holds (ht : s.takesOffers = true) (hq : s.biu.queue.length < 16) :
    Holds o s (s.offer o).1 ∧ (s.offer o).2.isSome = true := by
  have hd : (s.dropSuperseded o).biu.queue.length < 16 := Nat.lt_of_le_of_lt (List.length_filter_le _ _) hq
  unfold State.offer
  rw [if_pos ht]
  dsimp only
  split
  · rename_i e he
    have hm := List.mem_of_find?_eq_some he
    have hk := List.find?_some he
    simp only [Bool.and_eq_true, beq_iff_eq] at hk
    split
    · exact State.addEntry_holds (Nat.lt_trans (State.removeQueued_lt hm) hd)
    · rename_i hu
      refine ⟨⟨e.replace s o, List.mem_map.2 ⟨e, hm, if_pos rfl⟩, fun h => ?_, hk.2, rfl⟩, rfl⟩
      show e.urgent = true
      simpa [h] using hu
  · exact State.addEntry_holds hd

/-- An offer with no subject, of NORMAL or URGENT priority, gets an entry of its own where there is room. -/
theorem State.offer_keyless (ht : s.takesOffers = true) (hq : s.biu.queue.length < 16) (hk : o.key = none) :
    s.offer o = ({ s with biu := { s.biu with
      queue := s.biu.queue ++ [newEntry s o], nextAge := s.biu.nextAge + 1 } }, some s.biu.nextAge) := by
  rw [State.offer_eq_addEntry ht (fun l sp h => by rw [hk] at h; cases h) (.inl hk), State.addEntry_of_room hq]

/-- The bulletin of a station's own that an offer to every station makes. -/
theorem Holds.waits {body : List Byte} (h : Holds o s u) (h0 : o.target = 0) (hb : o.body = body)
    (hs : s.station = t.station) (hu : ∀ e ∈ u.biu.queue, e ∈ v.biu.queue) : waits o.urgent o.kind body t v := by
  obtain ⟨e, he, hur, -, hbl⟩ := h
  refine ⟨e, hu e he, hur, ?_, ?_, ?_, ?_⟩
  · rw [hbl]; rfl
  · rw [hbl, ← hs]; rfl
  · rw [hbl, State.build, h0]; rfl
  · rw [hbl, ← hb]; rfl

theorem State.addEntry_length (o : Offer) (s : State) :
    (s.addEntry o).1.biu.queue.length ≤ s.biu.queue.length + 1 := by
  by_cases hq : s.biu.queue.length < 16
  · rw [State.addEntry_of_room hq]
    simp
  · have hq' : 16 ≤ s.biu.queue.length := by omega
    cases hu : o.urgent with
    | false =>
      rw [State.addEntry_refused hq' (.inl hu)]
      exact Nat.le_succ _
    | true =>
      cases hv : youngestNormal s with
      | none =>
        rw [State.addEntry_refused hq' (.inr hv)]
        exact Nat.le_succ _
      | some v =>
        rw [State.addEntry_evicting hq' hu hv, State.appendEntry_eq, State.evict_frame v s]
        simp only [List.length_append, List.length_singleton]
        exact Nat.succ_le_succ (List.length_filter_le _ _)

/-- An offer adds at most one entry. -/
theorem State.offer_length (o : Offer) (s : State) : (s.offer o).1.biu.queue.length ≤ s.biu.queue.length + 1 := by
  have hd : (s.dropSuperseded o).biu.queue.length ≤ s.biu.queue.length := List.length_filter_le _ _
  unfold State.offer
  split
  · dsimp only
    split
    · split
      · refine Nat.le_trans (State.addEntry_length o _) (Nat.succ_le_succ (Nat.le_trans ?_ hd))
        exact List.length_filter_le _ _
      · refine Nat.le_trans (Nat.le_of_eq ?_) (Nat.le_succ_of_le hd)
        exact List.length_map _
    · exact Nat.le_trans (State.addEntry_length o _) (Nat.succ_le_succ hd)
  · exact Nat.le_succ _

end Sys2Proof.Machine
end

section
/-! SUPPORT. What no operation inside an event touches: the ports, the bridge's tables, the roster and the timers of the
bus interface, the recent tasks, the keys of the capture rules, and which links there are. -/

namespace Sys2Proof.Machine

open Says

variable {s t u : State}

/-- A capture rule is the same but for what it holds. -/
def CaptureRule.Alike (r x : CaptureRule) : Prop := ∃ h, x = { r with held := h }

theorem CaptureRule.Alike.refl (r : CaptureRule) : r.Alike r := ⟨r.held, rfl⟩

theorem CaptureRule.Alike.trans {r x y : CaptureRule} (a : r.Alike x) (b : x.Alike y) : r.Alike y := by
  obtain ⟨h, rfl⟩ := a
  obtain ⟨g, rfl⟩ := b
  exact ⟨g, rfl⟩

/-- The ports and the bridge's tables are as they were. -/
structure BusKept (s t : State) : Prop where
  portA   : t.biu.portA = s.biu.portA
  portB   : t.biu.portB = s.biu.portB
  fwdA    : t.biu.fwdA = s.biu.fwdA
  fwdB    : t.biu.fwdB = s.biu.fwdB
  origins : t.biu.origins = s.biu.origins

theorem BusKept.refl (s : State) : BusKept s s := ⟨rfl, rfl, rfl, rfl, rfl⟩

theorem BusKept.trans (a : BusKept s t) (b : BusKept t u) : BusKept s u where
  portA := b.portA.trans a.portA
  portB := b.portB.trans a.portB
  fwdA := b.fwdA.trans a.fwdA
  fwdB := b.fwdB.trans a.fwdB
  origins := b.origins.trans a.origins

theorem BusKept.fwd (h : BusKept s t) (p : BusPort) : t.biu.fwd p = s.biu.fwd p := by
  cases p
  · exact h.fwdA
  · exact h.fwdB

/-- No operation inside an event touches these. -/
structure Beside (s t : State) : Prop where
  cfg     : t.cfg = s.cfg
  bus     : BusKept s t
  roster  : t.biu.roster = s.biu.roster
  presenceTimer : t.biu.presenceTimer = s.biu.presenceTimer
  joinTimer : t.biu.joinTimer = s.biu.joinTimer
  leaveTimer : t.biu.leaveTimer = s.biu.leaveTimer
  recent  : t.mgmt.recent = s.mgmt.recent
  rules   : ∀ k : Fin 4, (s.mgmt.rules[k]).Alike t.mgmt.rules[k]
  desc    : ∀ l : Fin 8, (t.link l).map (·.desc) = (s.link l).map (·.desc)

theorem Beside.refl (s : State) : Beside s s :=
  ⟨rfl, .refl s, rfl, rfl, rfl, rfl, rfl, fun _ => .refl _, fun _ => rfl⟩

theorem Beside.of_eq (hc : t.cfg = s.cfg) (hb : t.biu = s.biu) (hr : t.mgmt.recent = s.mgmt.recent)
    (hk : t.mgmt.rules = s.mgmt.rules) (hd : ∀ l : Fin 8, (t.link l).map (·.desc) = (s.link l).map (·.desc)) :
    Beside s t := by
  refine ⟨hc, ⟨?_, ?_, ?_, ?_, ?_⟩, ?_, ?_, ?_, ?_, hr, fun k => ?_, hd⟩
  case refine_10 => rw [hk]; exact .refl _
  all_goals rw [hb]

theorem Beside.trans (a : Beside s t) (b : Beside t u) : Beside s u where
  cfg := b.cfg.trans a.cfg
  bus := a.bus.trans b.bus
  roster := b.roster.trans a.roster
  presenceTimer := b.presenceTimer.trans a.presenceTimer
  joinTimer := b.joinTimer.trans a.joinTimer
  leaveTimer := b.leaveTimer.trans a.leaveTimer
  recent := b.recent.trans a.recent
  rules k := (a.rules k).trans (b.rules k)
  desc l := (b.desc l).trans (a.desc l)

theorem Beside.isSome (h : Beside s t) (l : Fin 8) : (t.link l).isSome = (s.link l).isSome := by
  have := congrArg Option.isSome (h.desc l)
  simpa using this

theorem Offered.beside (h : Offered s t) : Beside s t := by
  have e := h.eq
  refine ⟨?_, ⟨?_, ?_, ?_, ?_, ?_⟩, ?_, ?_, ?_, ?_, ?_, h.rules, h.desc⟩
  all_goals rw [e]

theorem State.modLink_desc {l : Fin 8} {f : LinkRec → LinkRec} (hf : ∀ x, (f x).desc = x.desc) (s : State) (k : Fin 8) :
    ((s.modLink l f).link k).map (·.desc) = (s.link k).map (·.desc) := by
  rw [State.link_modLink]
  split
  · rename_i h
    subst h
    cases s.link l <;> simp [hf]
  · rfl

theorem State.modLink_beside {l : Fin 8} {f : LinkRec → LinkRec} (hf : ∀ x, (f x).desc = x.desc) (s : State) :
    Beside s (s.modLink l f) := by
  have e := State.modLink_frame l f s
  refine ⟨?_, ⟨?_, ?_, ?_, ?_, ?_⟩, ?_, ?_, ?_, ?_, ?_, fun k => ⟨s.mgmt.rules[k].held, ?_⟩, State.modLink_desc hf s⟩
  all_goals rw [e]

theorem Moves.beside (h : Moves s t) : Beside s t := by
  induction h with
  | refl => exact .refl s
  | offer o _ ih => exact ih.trans (State.offer_offered o _).beside
  | count ev n _ ih => exact ih.trans (.of_eq rfl rfl rfl rfl fun _ => rfl)
  | plan x _ ih => exact ih.trans (.of_eq rfl rfl rfl rfl fun _ => rfl)
  | rport x _ ih => exact ih.trans (.of_eq rfl rfl rfl rfl fun _ => rfl)
  | link l f hf _ ih => exact ih.trans (State.modLink_beside hf _)
  | tables x hx _ ih => exact ih.trans (.of_eq rfl rfl rfl rfl hx)
  | tally x _ ih => exact ih.trans (.of_eq rfl rfl rfl rfl fun _ => rfl)
  | tbk x _ ih => exact ih.trans (.of_eq rfl rfl rfl rfl fun _ => rfl)
  | longTask x _ ih => exact ih.trans (.of_eq rfl rfl rfl rfl fun _ => rfl)
  | refused l sp bad _ ih => exact ih.trans (State.modLink_beside (fun _ => by split <;> rfl) _)

end Sys2Proof.Machine
end

section
/-! SUPPORT. Every block's handling of a bulletin against the bus interface: it leaves the ports and the bridge's tables,
and the capture rules but for what they hold; a task for the rules apart. -/

namespace Sys2Proof.Machine

open Says

variable {s t u : State}

/-! ## The phases -/

@[simp] theorem State.muteTuned_moves (h : Moves s t) : Moves s t.muteTuned :=
  Moves.foldl _ (fun u a => by split <;> simp [Moves.refl]) _ h

@[simp] theorem State.disableLinks_moves (h : Moves s t) : Moves s t.disableLinks := by
  refine h.tables { t.lsup with links := t.lsup.links.map fun x => x.map LinkRec.disabled } fun l => ?_
  simp only [Fin.getElem_fin, Vector.getElem_map]
  cases t.lsup.links[l.val] <;> rfl

@[simp] theorem State.yieldAll_moves (h : Moves s t) : Moves s t.yieldAll :=
  Moves.foldl _ (fun _ _ => State.removeOwn_moves .refl) _ h

@[simp] theorem State.quietTbk_moves (h : Moves s t) : Moves s t.quietTbk := h.tbk _

@[simp] theorem State.stopSources_moves (h : Moves s t) : Moves s t.stopSources := h.tally _

@[simp] theorem State.leaveTbk_moves (h : Moves s t) : Moves s t.leaveTbk := by
  unfold State.leaveTbk
  dsimp only
  refine State.quietTbk_moves (State.overPorts_moves (fun q r u => Moves.foldl _ (fun _ _ => State.offered_moves .refl) _
    .refl) (State.overPorts_moves (fun q r u => ?_) (State.overPorts_moves (fun q r u => ?_)
      (Moves.foldl _ (fun u k => ?_) _ h))))
  all_goals split <;> simp [Moves.refl]

/-- The entry into LEAVING, before its blocks act (R33). -/
def State.leavingStart (s : State) : State :=
  { s with phase := .leaving,
           biu := { s.biu with presenceTimer := none, leaveTimer := some (s.after (ms 500)), leaveOffers := true }
           mgmt := { s.mgmt with longTask := none } }

theorem State.enterLeaving_eq (s : State) : s.enterLeaving =
    (((((s.leavingStart.muteTuned).disableLinks).yieldAll).leaveTbk).stopSources).setLeaveOffers false := rfl

theorem State.leaving_moves (s : State) :
    Moves s.leavingStart ((((s.leavingStart.muteTuned).disableLinks).yieldAll).leaveTbk).stopSources :=
  State.stopSources_moves (State.leaveTbk_moves (State.yieldAll_moves (State.disableLinks_moves
    (State.muteTuned_moves .refl))))

/-! ## Bulletins -/

/-- The ports and the bridge's tables are as they were, and so are the capture rules but for what they hold. -/
structure Handled (s t : State) : Prop where
  bus   : BusKept s t
  rules : ∀ k : Fin 4, (s.mgmt.rules[k]).Alike t.mgmt.rules[k]

theorem Handled.refl (s : State) : Handled s s := ⟨.refl s, fun _ => .refl _⟩

theorem Handled.trans (a : Handled s t) (b : Handled t u) : Handled s u :=
  ⟨a.bus.trans b.bus, fun k => (a.rules k).trans (b.rules k)⟩

theorem Moves.handled (h : Moves s t) : Handled s t := ⟨h.beside.bus, h.beside.rules⟩

theorem State.setRoster_handled (i : Fin 127) (e : Option RosterEntry) (s : State) : Handled s (s.setRoster i e) :=
  ⟨⟨rfl, rfl, rfl, rfl, rfl⟩, fun _ => .refl _⟩

theorem State.setLeaveOffers_handled (x : Bool) (s : State) : Handled s (s.setLeaveOffers x) :=
  ⟨⟨rfl, rfl, rfl, rfl, rfl⟩, fun _ => .refl _⟩

theorem State.enterLeaving_handled (s : State) : Handled s s.enterLeaving := by
  have hm := s.leaving_moves.handled
  have h1 : Handled s s.leavingStart := ⟨⟨rfl, rfl, rfl, rfl, rfl⟩, fun _ => .refl _⟩
  exact (h1.trans hm).trans (State.setLeaveOffers_handled false _)

theorem State.takePresence_handled (o n : Nat) (rs : List PresenceRecord) (s : State) :
    Handled s (s.takePresence o n rs) := by
  have gone (i : Fin 127) : Handled s ((s.setRoster i none).stationGone o) :=
    (State.setRoster_handled _ _ s).trans (State.stationGone_moves .refl).handled
  have agreed (u : State) (i : Fin 127) (e : Option RosterEntry) : Handled u ((u.setRoster i e).agreeMembers o rs) :=
    (State.setRoster_handled _ _ u).trans (State.agreeMembers_moves .refl).handled
  unfold State.takePresence
  split
  · exact .refl s
  · rename_i i hi
    refine Handled.trans ?_ (agreed _ i _)
    split
    · split
      · exact .refl s
      · exact gone i
    · exact .refl s

theorem State.readCall_moves {e : Bool} {o n : Nat} {b : List Byte} {r : State × Disposition}
    (h : s.readCall e o b n = .inl r) : Moves s r.1 := by
  unfold State.readCall at h
  split at h
  · obtain rfl := Sum.inl.inj h
    exact .refl
  · split at h
    · cases h
    · obtain rfl := Sum.inl.inj h
      exact Moves.count _ _ .refl

/-- What every block but those of PRESENCE and TASK does with a bulletin is made of an event's operations. -/
theorem State.deliver_moves {k : Kind} {b : Bulletin} (hp : k ≠ .presence) (hk : k ≠ .task) :
    Moves s (s.deliver k b).1 := by
  have r := Moves.refl (s := s)
  cases k <;> simp only [State.deliver]
  case task => exact absurd rfl hk
  case presence => exact absurd rfl hp
  case taskReply | capture => exact r
  case callRing | callAnswer | callEnd | callKeep =>
    split
    · rename_i hx; exact State.readCall_moves hx
    · dsimp only; simp [r]
  case planClaim | planHold | planYield =>
    split
    · dsimp only; exact State.withNews_moves (by simp [r])
    · exact r
  case tallyState | talk =>
    split
    · simp [r]
    · exact r
  case sighting | lineJoin | lineLeave | followTalk =>
    split
    · dsimp only; simp [r]
    · exact r

/-! ## Tasks -/

/-- The tasks that change a counter, a rule or the phase. -/
def plainTask : TaskCode → Bool
  | .restart | .setCounter | .armCapture | .readCapture => false
  | _ => true

theorem State.runTask_moves {c : TaskCode} {k : TaskIn} (hc : plainTask c = true) (h : Moves s t) :
    Moves s (t.runTask c k) := by
  cases c
  case restart | setCounter | armCapture | readCapture => cases hc
  case readStation => exact State.answerTask_moves h
  case readLink => simp only [State.runTask, State.readLink]; split <;> simp [h]
  case readPlan => simp only [State.runTask, State.readPlan]; split <;> simp [h]
  case readLine => simp only [State.runTask, State.readLine]; split <;> simp [h]
  case readCounters =>
    simp only [State.runTask, State.readCounters]
    repeat' split
    all_goals simp [h]
  all_goals simp [State.runTask, h]

/-- A change of the counters or the rules, and a reply. -/
theorem State.mgmt_bus {m : Mgmt} : BusKept s { s with mgmt := m } := ⟨rfl, rfl, rfl, rfl, rfl⟩

theorem State.answerTask_bus (k : TaskIn) (r : ReturnCode) (d : List Byte) (s : State) : BusKept s (s.answerTask k r d) :=
  (State.answerTask_moves .refl).beside.bus

theorem State.setCounter_handled (k : TaskIn) (s : State) : Handled s (s.setCounter k) := by
  unfold State.setCounter
  split
  · refine Handled.trans ?_ (State.answerTask_moves .refl).handled
    exact ⟨State.mgmt_bus, fun _ => .refl _⟩
  · exact (State.rejectTask_moves .refl).handled

theorem State.rejectTask_bus (k : TaskIn) (r : ReturnCode) (s : State) : BusKept s (s.rejectTask k r) :=
  State.answerTask_bus k r [] s

theorem State.setRule_bus (i : Fin 4) (r : CaptureRule) (s : State) : BusKept s (s.setRule i r) := State.mgmt_bus

theorem State.armCapture_bus (k : TaskIn) (s : State) : BusKept s (s.armCapture k) := by
  unfold State.armCapture
  split
  · split
    · exact (State.setRule_bus _ _ s).trans (State.answerTask_bus _ _ _ _)
    · exact State.rejectTask_bus _ _ s
  · exact State.rejectTask_bus _ _ s

theorem State.readCapture_bus (k : TaskIn) (s : State) : BusKept s (s.readCapture k) := by
  unfold State.readCapture
  split
  · dsimp only
    split
    · exact (State.setRule_bus _ _ s).trans (State.answerTask_bus _ _ _ _)
    · exact State.answerTask_bus _ _ _ s
  · exact State.rejectTask_bus _ _ s

theorem State.runTask_bus (c : TaskCode) (k : TaskIn) (s : State) : BusKept s (s.runTask c k) := by
  cases c
  case restart =>
    exact (State.reply_moves .refl).beside.bus.trans (State.enterLeaving_handled _).bus
  case setCounter => exact (State.setCounter_handled k s).bus
  case armCapture => exact State.armCapture_bus k s
  case readCapture => exact State.readCapture_bus k s
  all_goals exact (State.runTask_moves rfl .refl).beside.bus

theorem State.runTask_handled {c : TaskCode} (ha : c ≠ .armCapture) (hr : c ≠ .readCapture) (k : TaskIn) (s : State) :
    Handled s (s.runTask c k) := by
  cases c
  case restart => exact (State.reply_moves .refl).handled.trans (State.enterLeaving_handled _)
  case setCounter => exact State.setCounter_handled k s
  case armCapture => exact absurd rfl ha
  case readCapture => exact absurd rfl hr
  all_goals exact (State.runTask_moves rfl .refl).handled

theorem State.noteTask_handled (k : TaskIn) (s : State) : Handled s (s.noteTask k) :=
  ⟨State.mgmt_bus, fun _ => .refl _⟩

theorem State.takeTask_bus (k : TaskIn) (s : State) : BusKept s (s.takeTask k) := by
  unfold State.takeTask
  split
  · exact .refl s
  · refine (State.noteTask_handled k s).bus.trans ?_
    split
    · exact State.runTask_bus _ k _
    · exact (State.rejectTask_moves .refl).beside.bus

theorem State.takeTask_handled {k : TaskIn} (ha : k.code ≠ TaskCode.code .armCapture)
    (hr : k.code ≠ TaskCode.code .readCapture) (s : State) : Handled s (s.takeTask k) := by
  unfold State.takeTask
  split
  · exact .refl s
  · refine (State.noteTask_handled k s).trans ?_
    split
    · rename_i c hc
      have hcode : k.code = c.code := by
        have := List.find?_some hc
        simpa using (beq_iff_eq.1 this).symm
      refine State.runTask_handled (fun h => ha ?_) (fun h => hr ?_) k _
      all_goals rw [hcode, h]
    · exact (State.rejectTask_moves .refl).handled

theorem State.deliver_bus (k : Kind) (b : Bulletin) (s : State) : BusKept s (s.deliver k b).1 := by
  by_cases hk : k = .task
  · subst hk
    simp only [State.deliver]
    repeat' split
    all_goals first
      | exact .refl s
      | exact State.takeTask_bus _ s
  · by_cases hp : k = .presence
    · subst hp
      simp only [State.deliver]
      split
      · exact (State.takePresence_handled _ _ _ s).bus
      · exact .refl s
    · exact (State.deliver_moves hp hk).beside.bus

theorem State.deliver_handled {k : Kind} {b : Bulletin} (s : State)
    (h : k = .task → b.body[1]? ≠ some (TaskCode.code .armCapture) ∧ b.body[1]? ≠ some (TaskCode.code .readCapture)) :
    Handled s (s.deliver k b).1 := by
  by_cases hk : k = .task
  · subst hk
    obtain ⟨ha, hr⟩ := h rfl
    simp only [State.deliver]
    split
    · exact .refl s
    · split
      · exact .refl s
      · split
        · rename_i tag code params hb
          rw [hb] at ha hr
          exact State.takeTask_handled (fun e => ha (by simp [← e])) (fun e => hr (by simp [← e])) s
        · exact .refl s
  · by_cases hp : k = .presence
    · subst hp
      simp only [State.deliver]
      split
      · exact State.takePresence_handled _ _ _ s
      · exact .refl s
    · exact (State.deliver_moves hp hk).handled

/-! ## The dispatch -/

theorem State.dispatch_bus (b : Bulletin) (s : State) : BusKept s (s.dispatch b).1 := by
  unfold State.dispatch
  repeat' split
  all_goals first
    | exact .refl s
    | exact State.deliver_bus _ b s
    | exact (Moves.count _ _ .refl).beside.bus

theorem State.dispatch_handled {k : Kind} {rx : Rx} (s : State) (h : k = .task →
    rx.body[1]? ≠ some (TaskCode.code .armCapture) ∧ rx.body[1]? ≠ some (TaskCode.code .readCapture)) :
    Handled s (s.dispatch (rx.bulletin k)).1 := by
  have hk : Kind.ofCode (rx.bulletin k).kind = some k := Kind.ofCode_code k
  unfold State.dispatch
  rw [hk]
  repeat' split
  · exact (Moves.count _ _ .refl).handled
  · exact .refl s
  · rename_i h'
    obtain rfl := Option.some.inj h'
    exact State.deliver_handled s h
  · exact .refl s

/-- Settles O22: a bridge learns and forwards before the dispatch, and nothing after it touches its tables. -/
theorem bridgeLearnsAndForwards : Obligations.BridgeLearnsAndForwards := by
  intro c k p rx i s ha hh hi
  obtain ⟨u, v, hm, hc, he⟩ := exec_heard ha hh
  have hown := State.isOwn_of_heard hh k
  have hb := State.dispatch_bus (rx.bulletin k) u
  have hfwd (q : BusPort) : v.finish.biu.fwd q = u.biu.fwd q := by
    rw [State.finish_biu, hc.captured.fwd_eq, hb.fwd]
  have hor : v.finish.biu.origins = u.biu.origins := by rw [State.finish_biu, hc.captured.origins, hb.origins]
  refine ⟨_, he, (hfwd p).trans hm.fwd, fun hn => ?_, fun hbr => ?_⟩
  · have hs := (hm.still (.inl hn)).1
    rw [hor, hfwd, hs]
    exact ⟨Biu.setPort_origins _ _ _, Biu.setPort_fwd _ _ _ _⟩
  · obtain ⟨-, h2, h3, h4⟩ := hm.bridge i hbr hown hi
    rw [hor, hfwd]
    exact ⟨h2, h3, h4⟩

/-- Settles O25: the hook marks each rule on its own, and after it a rule changes in what it holds alone. -/
theorem captureRulesMarkTheirMatches : Obligations.CaptureRulesMarkTheirMatches := by
  intro c k p rx i r s ha hh ht hr
  obtain ⟨u, v, hm, hc, he⟩ := exec_heard ha hh
  have hu : u.mgmt.rules[i] = if r.hitBy (rx.bulletin k) then r.hit else r := by
    rw [hm.rules, ← hr]
    exact Vector.getElem_map _ _
  obtain ⟨h, hd⟩ := (State.dispatch_handled u ht).rules i
  have hv : ∃ h, v.mgmt.rules[i] = { u.mgmt.rules[i] with held := h } ∧
      (r.hitBy (rx.bulletin k) = true → r.mode = .once →
        ∃ x : HeldCapture, h = some x ∧ x.header = (rx.bulletin k).header) := by
    by_cases hi : i ∈ s.onceHits (rx.bulletin k)
    · obtain ⟨x, -, hx, hxr⟩ := hc.hit i hi
      exact ⟨some x, by rw [hxr, hd], fun _ _ => ⟨x, rfl, hx⟩⟩
    · refine ⟨h, by rw [hc.rest i hi, hd], fun h1 h2 => absurd (State.mem_onceHits.2 ?_) hi⟩
      rw [hr]
      exact ⟨h1, h2⟩
  obtain ⟨g, hg, honce⟩ := hv
  have hfin : v.finish.mgmt.rules[i] = { u.mgmt.rules[i] with held := g } := by rw [State.finish_mgmt, hg]
  refine ⟨_, he, ?_⟩
  rw [hfin, hu]
  cases hit : r.hitBy (rx.bulletin k) with
  | true => exact ⟨rfl, rfl, rfl, rfl, rfl, rfl, rfl, fun _ => ⟨rfl, rfl, rfl, honce hit⟩,
      fun h => absurd h.symm Bool.false_ne_true⟩
  | false => exact ⟨rfl, rfl, rfl, rfl, rfl, rfl, rfl, fun h => absurd h Bool.false_ne_true, fun _ => ⟨rfl, rfl, rfl⟩⟩

end Sys2Proof.Machine
end

section
/-! SUPPORT. What stands after an event: the state its operations left, but for the captures and the event's end. -/

namespace Sys2Proof.Machine

open Says

variable {p : BusPort} {b : Bulletin} {s t u v w : State}

/-- The records of one state are those of another, its queue having only grown. -/
structure After (w t : State) : Prop where
  station : stationKept w t
  now     : t.now = w.now
  plan    : t.plan = w.plan
  lsup    : t.lsup = w.lsup
  tally   : t.tally = w.tally
  talk    : talkKept w t
  radio   : radioKept w t
  roster  : t.biu.roster = w.biu.roster
  bus     : BusKept w t
  presenceTimer : t.biu.presenceTimer = w.biu.presenceTimer
  joinTimer : t.biu.joinTimer = w.biu.joinTimer
  leaveTimer : t.biu.leaveTimer = w.biu.leaveTimer
  queue   : w.biu.queue <+: t.biu.queue
  longTask : t.mgmt.longTask = w.mgmt.longTask
  recent  : t.mgmt.recent = w.mgmt.recent

theorem After.records (h : After w t) : recordsKept w t :=
  ⟨h.roster, h.plan, h.lsup, h.tally, h.talk, h.radio⟩

theorem Captured.after (h : Captured w v) : After w v.finish where
  station := h.stationKept.trans v.finish_stationKept
  now := by simp [h.now]
  plan := by simp [h.plan]
  lsup := by simp [h.lsup]
  tally := by simp [h.tally]
  talk := (talkKept.of_eq h.tbk).trans v.finish_talkKept
  radio := (radioKept.of_eq h.rport).trans v.finish_radioKept
  roster := by simp [h.roster]
  bus := by
    constructor <;> rw [State.finish_biu]
    · exact h.portA
    · exact h.portB
    · exact h.fwdA
    · exact h.fwdB
    · exact h.origins
  presenceTimer := by simp [h.presenceTimer]
  joinTimer := by simp [h.joinTimer]
  leaveTimer := by simp [h.leaveTimer]
  queue := by rw [State.finish_biu]; exact h.queue
  longTask := by simp [h.longTask]
  recent := by simp [h.recent]

/-- The end of an event alone. -/
theorem State.finish_after (w : State) : After w w.finish := (Captured.refl w).after

theorem After.mem (h : After w t) {e : QueueEntry} (he : e ∈ w.biu.queue) : e ∈ t.biu.queue := h.queue.subset he

/-- A bulletin that waits goes on waiting. -/
theorem After.waits {x : Bool} {k : Kind} {body : List Byte} (h : After w t) (hw : waits x k body s w) :
    waits x k body s t := by
  obtain ⟨e, he, hr⟩ := hw
  exact ⟨e, h.mem he, hr⟩

theorem After.answered {x : Bool} {c : TaskCode} {y : TaskRx} {r : ReturnCode} {d : List Byte} (h : After w t)
    (hw : answered x c y r d s w) : answered x c y r d s t := by
  obtain ⟨e, he, hr⟩ := hw
  exact ⟨e, h.mem he, hr⟩

/-! ## Slots of a block -/

theorem getFin_set_self {α : Type} {n : Nat} (v : Vector α n) (i : Fin n) (x : α) : (v.set i x)[i] = x :=
  Vector.getElem_set_self _

theorem getFin_set_ne {α : Type} {n : Nat} (v : Vector α n) {i j : Fin n} (h : j ≠ i) (x : α) : (v.set i x)[j] = v[j] :=
  Vector.getElem_set_ne _ _ fun e => h (Fin.ext e.symm)

/-! ## From the arrival of a bulletin -/

/-- The steps before dispatch change BIU and MGMT alone. -/
theorem Arrived.eq (h : Arrived s u) : u = { s with biu := u.biu, mgmt := u.mgmt } := by
  cases u
  cases s
  obtain ⟨rfl, rfl, rfl, rfl, rfl, rfl, rfl, rfl, rfl, rfl, rfl, rfl, -⟩ := h
  rfl

/-- A bulletin of another station that is for this one: its block takes it as the station stands, with BIU's and MGMT's
part of the receive path done. -/
theorem exec_block {c : Instr} {k : Kind} {rx : Rx} (ha : arrives c k p rx) (hh : received p rx s) :
    ∃ (x : Biu) (m : Mgmt) (t : State), Met p (rx.bulletin k) s { s with biu := x, mgmt := m } ∧
      exec c s = .next t ∧ After (State.deliver k (rx.bulletin k) { s with biu := x, mgmt := m }).1 t := by
  obtain ⟨u, v, hm, hc, he⟩ := exec_received ha hh
  have hu := hm.arrived.eq
  refine ⟨u.biu, u.mgmt, v.finish, ?_, he, ?_⟩
  · rw [← hu]
    exact hm
  · rw [← hu]
    exact hc.captured.after

/-! ## From the expiry of a timer -/

theorem exec_expiry {c : Instr} {d : Nat} {timer : Timer} {f : State → State} (hc : exec c s = done (s.onExpiry timer f))
    (ht : timer = some d) : exec c s = .next (f (s.reach d)).finish := by
  rw [hc, ht]
  rfl

end Sys2Proof.Machine
end
section
/-! SUPPORT. The replica of the plan under a received yield and a received sighting (R42, R52 to R54, R109, R110). -/

namespace Sys2Proof.Machine

open Says

variable {p : BusPort} {s t u : State}

/-- Operations that answer the news of PLAN write the own entries, the links and the radio port, and leave the replica, the
tally and the talkback. -/
def Writes.news : Writes := { plan := true, replica := false, rport := true, tally := false, tbk := false }

/-- Operations that write PLAN's replica or its quarantine list, and the links. -/
def Writes.listed : Writes := { plan := true, replica := true, rport := false, tally := false, tbk := false }

/-- Those, and the replica. -/
def Writes.replicaNews : Writes := { Writes.news with replica := true }

theorem State.removePeer_of_some {o l : Nat} {sp : Span} {j : Fin 96} (h : s.peerSlot o l sp = some j) :
    s.removePeer o l sp = s.setPeer j none := by simp [State.removePeer, h]

theorem State.removePeer_of_none {o l : Nat} {sp : Span} (h : s.peerSlot o l sp = none) : s.removePeer o l sp = s := by
  simp [State.removePeer, h]

theorem State.removePeer_plan (o l : Nat) (sp : Span) (s : State) :
    (s.removePeer o l sp).plan.quarantine = s.plan.quarantine ∧ (s.removePeer o l sp).plan.overfull = s.plan.overfull := by
  cases h : s.peerSlot o l sp with
  | none => rw [State.removePeer_of_none h]; exact ⟨rfl, rfl⟩
  | some j => rw [State.removePeer_of_some h]; exact ⟨rfl, rfl⟩

/-- PLAN's handling of a yield: the replica is what the removal leaves, and the rest of the station stays. -/
theorem State.planYielded_replica (o l : Nat) (sp : Span) (s : State) :
    let t := State.withNews (s.planYielded o l sp)
    t.plan.peers = (s.removePeer o l sp).plan.peers ∧ t.plan.quarantine = s.plan.quarantine ∧
      t.plan.overfull = s.plan.overfull ∧ Evolves Writes.replicaNews s t ∧ Beside s t := by
  have hev : Evolves Writes.news (s.removePeer o l sp) (State.withNews (s.planYielded o l sp)) :=
    State.withNews_evolves rfl rfl (State.pairYielded_evolves rfl (Evolves.refl _ _))
  obtain ⟨h1, h2, h3, -⟩ := hev.replica rfl
  obtain ⟨k2, k3⟩ := State.removePeer_plan o l sp s
  exact ⟨h1, h2.trans k2, h3.trans k3,
    State.withNews_evolves rfl rfl (State.planYielded_evolves rfl rfl (Evolves.refl _ _)),
    (State.withNews_moves (State.planYielded_moves .refl)).beside⟩

/-- Settles O29: the yield empties its slot, and PLAN's and LSUP's answers leave the replica. -/
theorem yieldEmptiesItsSlot : Obligations.YieldEmptiesItsSlot := by
  intro p rx sp link s hr hb
  obtain ⟨x, m, t, hm, he, ht⟩ := exec_block (arrives_arrival .planYield p rx) hr
  have hdel : (State.deliver .planYield (rx.bulletin .planYield) { s with biu := x, mgmt := m }).1 =
      State.withNews (State.planYielded rx.origin.toNat link sp { s with biu := x, mgmt := m }) := by
    simp [State.deliver, Rx.bulletin, hb]
  rw [hdel] at ht
  obtain ⟨hp, hq, ho, hev, hbes⟩ := State.planYielded_replica rx.origin.toNat link sp { s with biu := x, mgmt := m }
  refine ⟨t, he, (hm.arrived.stationKept.trans hev.stationKept).trans ht.station, ?_, fun j hj => ?_, fun hn => ?_, ?_, ?_,
    ?_, ?_, ?_⟩
  · exact ht.now.trans hev.now
  · rw [ht.plan, hp, State.removePeer_of_some (by exact hj)]
    rfl
  · rw [ht.plan, hp, State.removePeer_of_none (by exact hn)]
  · rw [ht.plan]; exact hq
  · rw [ht.plan]; exact ho
  · exact ht.tally.trans (hev.tally rfl)
  · exact (talkKept.of_eq (s := s) (hev.tbk rfl)).trans ht.talk
  · exact ht.roster.trans (hbes.roster.trans hm.arrived.roster)

/-! ## Sightings -/

theorem State.quarantine_room {sp : Span} (h : (s.plan.quarantine.filter fun q => q.span != sp).length < 16) :
    (s.quarantine sp).plan.quarantine = s.plan.quarantine.filter (fun q => q.span != sp) ++
      [{ span := sp, expiry := s.now + s.image.quarTimeS * 1000000 }] := by
  simp only [State.quarantine, if_pos h]
  rfl

theorem State.quarantine_full {sp : Span} (h : 16 ≤ (s.plan.quarantine.filter fun q => q.span != sp).length) :
    (s.quarantine sp).plan.quarantine = (s.plan.quarantine.filter (fun q => q.span != sp)).drop 1 ++
      [{ span := sp, expiry := s.now + s.image.quarTimeS * 1000000 }] := by
  simp only [State.quarantine, if_neg (Nat.not_lt.2 h)]
  rfl

theorem State.takeSighting_below {sp : Span} {n : Nat} (h : n < s.image.quarThreshold) : s.takeSighting sp n = s :=
  if_neg (Nat.not_le.2 h)

theorem State.takeSighting_reaching {sp : Span} {n : Nat} (h : s.image.quarThreshold ≤ n) :
    s.takeSighting sp n = s.quarantine sp := if_pos h

/-- A sighting writes the quarantine list alone. -/
theorem State.takeSighting_frame (sp : Span) (n : Nat) (s : State) : s.takeSighting sp n =
    { s with plan := { s.plan with quarantine := (s.takeSighting sp n).plan.quarantine } } := by
  unfold State.takeSighting
  split <;> rfl

theorem State.copyEntry_isSome (o n : Nat) (sp : Span) (s : State) :
    (s.copyEntry o sp n).isSome = s.lsup.filters[sp.band.index].any (CopyEntry.isCopy o sp n) := by
  rw [Bool.eq_iff_iff]
  simp [State.copyEntry, List.find?_isSome]

theorem State.foldReceived_copy {o n : Nat} {sp : Span} (h : (s.copyEntry o sp n).isSome = true) :
    s.foldReceived o sp n = s := by
  rw [State.copyEntry_isSome] at h
  exact if_pos h

/-- What a sighting that is no copy leaves in LSUP: its band's history and copy filter. -/
def State.folded (o n : Nat) (sp : Span) (s : State) : Lsup :=
  { s.lsup with
    histories := s.lsup.histories.set sp.band.index (shiftIn (decide (1 ≤ n)) s.lsup.histories[sp.band.index])
    filters := s.lsup.filters.set sp.band.index
      ((if s.lsup.filters[sp.band.index].length < 4 then s.lsup.filters[sp.band.index]
        else s.lsup.filters[sp.band.index].drop 1) ++
        [{ origin := o, span := sp, severity := n, expiry := s.now + 250000 }]) }

theorem State.foldReceived_new {o n : Nat} {sp : Span} (h : s.copyEntry o sp n = none) :
    s.foldReceived o sp n = { s with lsup := s.folded o n sp } := by
  have hn : s.lsup.filters[sp.band.index].any (CopyEntry.isCopy o sp n) = false := by
    rw [← State.copyEntry_isSome, h]
    rfl
  unfold State.foldReceived
  rw [if_neg (by rw [hn]; exact Bool.false_ne_true)]
  rfl

theorem Band.index_injective {d e : Band} (h : d.index = e.index) : d = e := by
  cases d <;> cases e <;> first | rfl | exact absurd h (by decide)

/-- The outcome a sighting shifts in (R109). -/
theorem shiftIn_severity (n : Nat) (h : BitVec 8) :
    shiftIn (decide (1 ≤ n)) h = (h >>> 1) ||| if n = 0 then 0#8 else 0x80#8 := by
  unfold shiftIn
  cases n <;> simp

/-- Settles O30: the sighting goes to the quarantine list by its severity, and to its band's history unless it is a copy. -/
theorem sightingQuarantinesAndFolds : Obligations.SightingQuarantinesAndFolds := by
  intro p rx sp n s hr hb
  obtain ⟨x, m, t, hm, he, ht⟩ := exec_block (arrives_arrival .sighting p rx) hr
  have hdel : (State.deliver .sighting (rx.bulletin .sighting) { s with biu := x, mgmt := m }).1 =
      State.foldReceived rx.origin.toNat sp n (State.takeSighting sp n { s with biu := x, mgmt := m }) := by
    simp [State.deliver, Rx.bulletin, hb]
  rw [hdel, State.takeSighting_frame] at ht
  obtain ⟨q, hq⟩ : ∃ q, (State.takeSighting sp n { s with biu := x, mgmt := m }).plan.quarantine = q := ⟨_, rfl⟩
  rw [hq] at ht
  have hplan : t.plan = { s.plan with quarantine := q } := by
    rw [ht.plan]
    cases hc : s.copyEntry rx.origin.toNat sp n with
    | none => rw [State.foldReceived_new (by exact hc)]
    | some c => rw [State.foldReceived_copy (by exact Option.isSome_of_eq_some hc)]
  have hlsup : t.lsup = if (s.copyEntry rx.origin.toNat sp n).isSome then s.lsup else s.folded rx.origin.toNat n sp := by
    rw [ht.lsup]
    cases hc : s.copyEntry rx.origin.toNat sp n with
    | none => rw [State.foldReceived_new (by exact hc)]; rfl
    | some c => rw [State.foldReceived_copy (by exact Option.isSome_of_eq_some hc)]; rfl
  have hlinks : t.lsup.links = s.lsup.links ∧ t.lsup.localTable = s.lsup.localTable ∧
      t.lsup.globalTable = s.lsup.globalTable ∧ t.lsup.choiceTable = s.lsup.choiceTable := by
    rw [hlsup]
    split <;> exact ⟨rfl, rfl, rfl, rfl⟩
  have hev : Evolves Writes.listed { s with biu := x, mgmt := m } (State.foldReceived rx.origin.toNat sp n
      { s with biu := x, plan := { s.plan with quarantine := q }, mgmt := m }) := by
    have h := State.foldReceived_evolves (n := rx.origin.toNat) (sp := sp) (m := n) (State.takeSighting_evolves
      (sp := sp) (n := n) rfl rfl (Evolves.refl Writes.listed { s with biu := x, mgmt := m }))
    rw [State.takeSighting_frame, hq] at h
    exact h
  have hros := (State.foldReceived_moves (o := rx.origin.toNat) (sp := sp) (n := n) (Moves.refl (s := { s with
    biu := x, plan := { s.plan with quarantine := q }, mgmt := m }))).beside.roster
  refine ⟨t, he, (hm.arrived.stationKept.trans hev.stationKept).trans ht.station, ht.now.trans hev.now, ?_, ?_, ?_,
    fun hl => ?_, fun hl hr => ?_, fun hl hr => ?_, hlinks.1, hlinks.2.1, hlinks.2.2.1, hlinks.2.2.2,
    fun hc => ?_, fun hc => ?_, ht.tally.trans (hev.tally rfl), (talkKept.of_eq (s := s) (hev.tbk rfl)).trans ht.talk,
    (radioKept.of_eq (s := s) (hev.rport rfl)).trans ht.radio, ht.roster.trans (hros.trans hm.arrived.roster)⟩
  · rw [hplan]
  · rw [hplan]
  · rw [hplan]
  · rw [hplan, ← hq, State.takeSighting_below (by exact hl)]
  · rw [hplan, ← hq, State.takeSighting_reaching (by exact hl), State.quarantine_room (by exact hr)]
    rfl
  · rw [hplan, ← hq, State.takeSighting_reaching (by exact hl), State.quarantine_full (by exact hr)]
    rfl
  · rw [hlsup, if_pos hc]
  · rw [hlsup, hc, if_neg (by simp)]
    refine ⟨?_, ?_, fun d hd => ⟨?_, ?_⟩⟩
    · exact (getFin_set_self _ _ _).trans (shiftIn_severity n _)
    · exact (getFin_set_self s.lsup.filters _ _).symm ▸ List.mem_append_right _ (List.mem_singleton_self _)
    · exact getFin_set_ne _ (fun h => hd (Band.index_injective h)) _
    · exact getFin_set_ne _ (fun h => hd (Band.index_injective h)) _

end Sys2Proof.Machine
end

section
/-! SUPPORT. Statements that hold of no queue whatever: an URGENT offer that outranks a NORMAL entry of its own subject
removes that entry by its age (R9), and these statements do not ask, as the invariant does, that no queued entry has the
age a new one will get. Where one has, the removal takes the event's own earlier entry with it. -/

namespace Sys2Proof.Machine

open Says

/-- The kinds and bodies in the queue once a command has been carried out. -/
def queuedAfter (c : Instr) (s : State) : List (Byte × List Byte) :=
  match exec c s with
  | .next t => t.biu.queue.map fun e => (e.bulletin.kind, e.bulletin.body)
  | _ => []

/-- What waits after a command is in its queue. -/
theorem mem_queuedAfter {c : Instr} {s t : State} {x : Bool} {k : Kind} {body : List Byte} (he : exec c s = .next t)
    (h : waits x k body s t) : (k.code, body) ∈ queuedAfter c s := by
  obtain ⟨e, hm, -, hk, -, -, hb⟩ := h
  simp only [queuedAfter, he, List.mem_map]
  exact ⟨e, hm, by rw [hk, hb]⟩

namespace Stray

/-- A NORMAL entry of a subject, with the age that the next new entry will get. -/
def entry (k : SubjectKey) : QueueEntry :=
  { bulletin := { kind := 0, origin := 17, target := 0, hopPrio := 1, body := [] }, version := 0, urgent := false,
    key := some k, age := 0, block := .tbk, ticket := .none, pending := { a := true, b := false }, sent := PortSet.empty,
    attemptsA := 0, attemptsB := 0 }

/-- A camera on front-end 0. -/
def camera : LinkDesc :=
  { kind := .camera, band := .b, width := 32, step := 8, winLow := 400, winHigh := 700, prefLow := 400, cls := 1,
    frontEnd := 0, badThreshold := 6, sampleMs := 100, lossSamples := 3, fadeRun := 2, holdOffS := 10,
    keys := Vector.replicate 4 .unmapped, returnLines := 1 }

/-- Station 17 on port A. -/
def image : Image := { Image.blank with station := 17, portA := true }

/-- Station 17, ACTIVE, with one stray entry in its queue. -/
def station (img : Image) (k : SubjectKey) : State :=
  { State.reset with phase := .active, resetHeld := false, cfg := some img, biu := { State.reset.biu with queue := [entry k] } }

/-! ## A ring that meets a circuit clash (R169, R173) -/

/-- Port 0 is in a call on circuit 17 as the caller, and the stray entry is of its call slot. -/
def calling : State :=
  (station image (.call .callKeep 0)).setCall 0 (some
    { state := .connected, caller := true, port := 0, peer := (9, 1), circuit := 0, ringTimer := none, keepTimer := none,
      callExpiry := none })

/-- Station 9 rings port 5, which does not exist, on circuit 17. -/
def ring : Rx := { origin := 9, target := 0, hopPrio := 1, body := [9, 3, 17, 5, 17, 0] }

def ringBody : CallBody := { caller := (9, 3), callee := (17, 5), circuit := 0, reason := .cleared }

/-! ## A relocation that gives up two own entries (R127 step 3, R128) -/

def span0 : Span := { band := .b, low := 400, high := 431 }
def span1 : Span := { band := .b, low := 456, high := 487 }

def held : OwnEntry :=
  { span := span0, link := 0, cls := 1, standing := .held, hold := 20, sent := true, failures := 0, window := none,
    pendingYield := [], allowance := none, refresh := none, defend := none, owed := false }

/-- The relocation of the camera's link, from its first span to its second. -/
def reloc (c : Cause) (ph : RelocPhase) (old : Option Span) : Reloc :=
  { cause := c, phase := ph, old := old, cand := some span1, excluded := [], attempts := 0, reason := none, task := false,
    override := false }

def link (r : Reloc) : LinkRec := { newLink camera with state := .up, current := some span0, reloc := some r }

/-- The camera's front-end is being tuned back, both spans' own entries stand, and the stray entry is of the second's
yield. -/
def returning : State :=
  let s := station image (.plan .planYield 0 span1)
  { ((s.setOwn 0 (some held)).setOwn 1 (some { held with span := span1 })).setLink 0
      (link (reloc .taskMove .returning (some span0))) with
    rport := { s.rport with
      fe := s.rport.fe.set 0 { FrontEnd.reset with state := .tuning span0, sent := true, tuneTimer := some 5 } } }

/-! ## A publication that turns a link's on-air mark (R129, R144) -/

/-- Contact 0 is input 1 of source layer 1, and puts the camera on air. -/
def mapped : Image :=
  { image with
    sourceCounts := Image.blank.sourceCounts.set 0 (some 1)
    contacts := Image.blank.contacts.set 0 (some { layer := 0, input := 1, program := true })
    rules := Image.blank.rules.set 0
      { MapRule.unused with layerMask := 0, onProgram := true, link := some 0, onAir := true } }

/-- The source layer is standby and live, the camera's predicted relocation has its claim out, and the stray entry is of
that claim's yield. -/
def publishing : State :=
  let s := station mapped (.plan .planYield 0 span1)
  { (s.setOwn 0 (some { held with span := span1, standing := .tentative })).setLink 0
      (link (reloc .predicted .claiming none)) with
    tally := { s.tally with
      layers := s.tally.layers.set 0 { s.tally.layers[0] with state := .live, source := some 9, staleTimer := some 5 }
      sources := s.tally.sources.set 0 (some { standby := true, refreshTimer := none, published := none })
      contacts := s.tally.contacts.set 0 { accepted := true, timer := none } } }

/-! ## A talk on a line whose list has lost another port (R162, R163) -/

/-- Key 0 talks on line 3 for port 0; two may talk there. -/
def keyed : Image :=
  { image with caps := Vector.replicate 16 2, keys := Image.blank.keys.set 0 { port := 0, fn := .talk 3 } }

def panel (st : TalkState) : TbPort :=
  { talkClass := 1, answer := .manual, callLamp := none, members := [{ line := 3, listen := true, talk := true }],
    talk := st, follow := none, talkRefresh := none, followRefresh := none, indication := none }

/-- Port 1 talks on line 3 and is not in its list, key 0 is about to be pressed, and the stray entry is of port 1's talk. -/
def talking : State :=
  let s := station keyed (.linePort .talk 3 1)
  { ((s.setTbPort 0 (panel .idle)).setTbPort 1 (panel (.talking 3 (.line 1)))) with
    pins := { s.pins with keys := 1 }
    tbk := { ((s.setTbPort 0 (panel .idle)).setTbPort 1 (panel (.talking 3 (.line 1)))).tbk with
      keys := s.tbk.keys.set 0 { accepted := false, timer := some 5 } } }

end Stray

/-- Refutes O34, in its second part: the CALL_END of the refused ring is in the queue when the clash offers for slot 0. -/
theorem not_newRingTakesASlot : ¬ Obligations.NewRingTakesASlot := by
  intro h
  obtain ⟨t, he, -, -, hw, -⟩ := h.2 .a Stray.ring Stray.ringBody 5 Stray.calling (by decide +kernel) rfl
    (by decide +kernel) (by decide +kernel) (by decide +kernel) (by decide +kernel) (by decide +kernel)
    (.inl (by decide +kernel))
  exact absurd (mem_queuedAfter he (hw (by decide +kernel))) (by decide +kernel)

/-- Refutes O53, where a relocation's failure gives up several own entries: the first PLAN_YIELD is in the queue when the
second is offered. -/
theorem not_radioLineAndTunes : ¬ Obligations.RadioLineAndTunes := by
  intro h
  obtain ⟨-, -, -, -, -, -, -, h, -⟩ := h
  have hret := (h 0 0 (Stray.link (Stray.reloc .taskMove .returning (some Stray.span0)))
    (Stray.reloc .taskMove .returning (some Stray.span0)) 0 5 (.tuneTimerExpiry 0) Stray.returning rfl (by decide +kernel)
    (by decide +kernel) rfl ⟨Stray.span0, by decide +kernel⟩ (.inr ⟨rfl, by decide +kernel⟩)).2 (.inl rfl)
  obtain ⟨t, he, -, -, -, -, -, -, hw, -⟩ := hret
  exact absurd (mem_queuedAfter he (hw (by decide +kernel) 0 Stray.held (by decide +kernel) rfl)) (by decide +kernel)

/-- Refutes O57, where a standby source layer resumes: the TALLY_STATE is in the queue when the evaluation ends the
camera's relocation and its claim is yielded. -/
theorem not_tallyTimersAndContacts : ¬ Obligations.TallyTimersAndContacts := by
  intro h
  obtain ⟨t, he, -, -, -, -, hw, -⟩ := (h.1 0 5 Stray.publishing (by decide +kernel)).2
    { standby := true, refreshTimer := none, published := none } (by decide +kernel) rfl rfl
  exact absurd (mem_queuedAfter he (hw (by decide +kernel))) (by decide +kernel)

/-- Refutes O58, in the TALK press: the TALK on is in the queue when the cap evaluation ends the other port's talk. -/
theorem not_keysActForTheirPorts : ¬ Obligations.KeysActForTheirPorts := by
  intro h
  obtain ⟨-, -, h, -⟩ := h
  obtain ⟨t, he, -, -, -, -, -, hw, -⟩ := (h 0 5 0 (Stray.panel .idle) Stray.talking (by decide +kernel) rfl
    (by decide +kernel) (by decide +kernel) (by decide +kernel) (by decide +kernel)).1 3
    { line := 3, listen := true, talk := true } (by decide +kernel) rfl rfl (by decide +kernel) rfl (by decide +kernel)
    (by decide +kernel)
  exact absurd (mem_queuedAfter he (hw (by decide +kernel))) (by decide +kernel)

end Sys2Proof.Machine
end

section
/-! SUPPORT. The talkback's lines (R158 to R163): what the cap evaluation of a line can do, said once, and what a change of
a line leaves. -/

namespace Sys2Proof.Machine

open Says

variable {n : Fin 16} {q : Fin 12} {s t u : State}

/-- Operations of the talkback write it, and the queue that takes their offers. -/
def Writes.talk : Writes := { plan := false, replica := false, rport := false, tally := false, tbk := true }

theorem Offered.tbk (h : Offered s t) : t.tbk = s.tbk := by rw [h.eq]
theorem Offered.cfg (h : Offered s t) : t.cfg = s.cfg := by rw [h.eq]
theorem Offered.now (h : Offered s t) : t.now = s.now := by rw [h.eq]

theorem State.offered_tbk (o : Offer) (s : State) : (s.offered o).tbk = s.tbk := (State.offer_offered o s).tbk
theorem State.offerTalk_tbk (x y : Bool) (n : Fin 16) (q : Fin 12) (c : Nat) (s : State) :
    (s.offerTalk x y n q c).tbk = s.tbk := State.offered_tbk _ s

theorem State.station_congr (h : t.cfg = s.cfg) : t.station = s.station := by simp [State.station, State.image, h]
theorem State.image_congr (h : t.cfg = s.cfg) : t.image = s.image := by simp [State.image, h]

/-! ## The end of a talk -/

/-- A port's record once its talk on a line is over. -/
def TbPort.over (next : TalkState) (r : TbPort) : TbPort := { r with talk := next, talkRefresh := none }

theorem State.endTalk_tbk {r : TbPort} {x : TalkState} (h : s.tbPort q = some r) : (s.endTalk n q x).tbk =
    { s.tbk with
      lines := s.tbk.lines.set n ((s.line n).dropTalker s.station q)
      ports := s.tbk.ports.set q (some (r.over x)) } := by
  simp only [State.endTalk, h]
  simp only [State.setTbPort, State.offerTalk_tbk]
  rfl

/-! ## The cap evaluation -/

/-- The cap evaluation of a line has led from one state to another: ports of the station's own have stopped talking on the
line, and lost their entries in its list. -/
structure Capped (n : Fin 16) (s t : State) : Prop where
  evolves  : Evolves Writes.talk s t
  moves    : Moves s t
  lines    : ∀ k : Fin 16, k ≠ n → t.tbk.lines[k] = s.tbk.lines[k]
  roster   : t.tbk.lines[n].roster = s.tbk.lines[n].roster
  overfull : t.tbk.lines[n].overfull = s.tbk.lines[n].overfull
  sub      : t.tbk.lines[n].talkers.Sublist s.tbk.lines[n].talkers
  peers    : ∀ x ∈ s.tbk.lines[n].talkers, x.station ≠ s.station → x ∈ t.tbk.lines[n].talkers
  keys     : t.tbk.keys = s.tbk.keys
  follows  : t.tbk.follows = s.tbk.follows
  calls    : t.tbk.calls = s.tbk.calls
  circuits : t.tbk.circuits = s.tbk.circuits
  ports    : ∀ q : Fin 12, t.tbPort q = s.tbPort q ∨
    ∃ r key, s.tbPort q = some r ∧ r.talk = .talking n key ∧ t.tbPort q = some (r.over (.bumped n key))

theorem Capped.refl (n : Fin 16) (s : State) : Capped n s s :=
  ⟨.refl _ s, .refl, fun _ _ => rfl, rfl, rfl, .refl _, fun _ h _ => h, rfl, rfl, rfl, rfl, fun _ => .inl rfl⟩

theorem Capped.trans (a : Capped n s t) (b : Capped n t u) : Capped n s u where
  evolves := a.evolves.trans b.evolves
  moves := a.moves.trans b.moves
  lines k hk := (b.lines k hk).trans (a.lines k hk)
  roster := b.roster.trans a.roster
  overfull := b.overfull.trans a.overfull
  sub := b.sub.trans a.sub
  peers x hx hs := b.peers x (a.peers x hx hs) (by rw [State.station_congr a.evolves.cfg]; exact hs)
  keys := b.keys.trans a.keys
  follows := b.follows.trans a.follows
  calls := b.calls.trans a.calls
  circuits := b.circuits.trans a.circuits
  ports q := by
    rcases a.ports q with ha | ⟨r, key, hr, hk, ha⟩
    · rcases b.ports q with hb | ⟨r, key, hr, hk, hb⟩
      · exact .inl (hb.trans ha)
      · exact .inr ⟨r, key, ha ▸ hr, hk, hb⟩
    · rcases b.ports q with hb | ⟨r', key', hr', hk', hb⟩
      · exact .inr ⟨r, key, hr, hk, hb.trans ha⟩
      · rw [ha] at hr'
        obtain rfl := Option.some.inj hr'
        cases hk'

theorem State.endTalk_capped {r : TbPort} {key : KeyId} (h : s.tbPort q = some r) (hk : r.talk = .talking n key) :
    Capped n s (s.endTalk n q (.bumped n key)) := by
  have e := State.endTalk_tbk (n := n) (x := .bumped n key) h
  have hl : (s.endTalk n q (.bumped n key)).tbk.lines[n] = (s.line n).dropTalker s.station q := by
    rw [e]
    exact getFin_set_self _ _ _
  refine ⟨State.endTalk_evolves rfl (.refl _ s), State.endTalk_moves .refl, fun k hn => ?_, by rw [hl]; rfl,
    by rw [hl]; rfl, ?_, fun x hx hs => ?_, by rw [e], by rw [e], by rw [e], by rw [e], fun p => ?_⟩
  · rw [e]
    exact getFin_set_ne _ hn _
  · rw [hl]
    exact List.filter_sublist
  · rw [hl]
    refine List.mem_filter.2 ⟨hx, ?_⟩
    simp [hs]
  · unfold State.tbPort
    rw [e]
    by_cases hp : p = q
    · subst hp
      exact .inr ⟨r, key, h, hk, getFin_set_self _ _ _⟩
    · exact .inl (getFin_set_ne _ hp _)

theorem State.bumpPort_capped (n : Fin 16) (q : Fin 12) (s : State) : Capped n s (State.bumpPort n s q) := by
  unfold State.bumpPort
  split
  · rename_i r hr
    split
    · rename_i m key hk
      split
      · rename_i hb
        obtain ⟨rfl, -⟩ := hb
        exact State.endTalk_capped hr hk
      · exact .refl n s
    all_goals exact .refl n s
  · exact .refl n s

theorem State.capEval_capped (n : Fin 16) (s : State) : Capped n s (s.capEval n) := by
  unfold State.capEval
  induction List.finRange 12 generalizing s with
  | nil => exact .refl n s
  | cons q l ih => exact (State.bumpPort_capped n q s).trans (ih _)

/-! ## A change of a line -/

/-- A line has been changed and its cap evaluated. -/
structure Changed (n : Fin 16) (x : Line) (s t : State) : Prop where
  evolves  : Evolves Writes.talk s t
  moves    : Moves s t
  lines    : ∀ k : Fin 16, k ≠ n → t.tbk.lines[k] = s.tbk.lines[k]
  roster   : t.tbk.lines[n].roster = x.roster
  overfull : t.tbk.lines[n].overfull = x.overfull
  sub      : t.tbk.lines[n].talkers.Sublist x.talkers
  peers    : ∀ y ∈ x.talkers, y.station ≠ s.station → y ∈ t.tbk.lines[n].talkers
  keys     : t.tbk.keys = s.tbk.keys
  follows  : t.tbk.follows = s.tbk.follows
  calls    : t.tbk.calls = s.tbk.calls
  circuits : t.tbk.circuits = s.tbk.circuits
  ports    : ∀ q : Fin 12, t.tbPort q = s.tbPort q ∨
    ∃ r key, s.tbPort q = some r ∧ r.talk = .talking n key ∧ t.tbPort q = some (r.over (.bumped n key))

theorem State.changeLine_changed (n : Fin 16) (f : Line → Line) (s : State) :
    Changed n (f (s.line n)) s (s.changeLine n f) := by
  have c := State.capEval_capped n (s.setLine n (f (s.line n)))
  have hl : (s.setLine n (f (s.line n))).tbk.lines[n] = f (s.line n) := getFin_set_self _ _ _
  generalize hu : s.setLine n (f (s.line n)) = u at c hl
  have hlines (k : Fin 16) (hk : k ≠ n) : u.tbk.lines[k] = s.tbk.lines[k] := by
    rw [← hu]
    exact getFin_set_ne _ hk _
  have hst : u.station = s.station := State.station_congr (by rw [← hu]; rfl)
  have hports (q : Fin 12) : u.tbPort q = s.tbPort q := by rw [← hu]; rfl
  have he : s.changeLine n f = u.capEval n := by rw [← hu]; rfl
  have hev := State.changeLine_evolves (n := n) (f := f) rfl (Evolves.refl Writes.talk s)
  have hmv := State.changeLine_moves (n := n) (f := f) (Moves.refl (s := s))
  rw [he] at hev hmv ⊢
  exact {
    evolves := hev
    moves := hmv
    lines := fun k hk => (c.lines k hk).trans (hlines k hk)
    roster := c.roster.trans (by rw [hl])
    overfull := c.overfull.trans (by rw [hl])
    sub := by rw [← hl]; exact c.sub
    peers := fun y hy hs => c.peers y (by rw [hl]; exact hy) (by rw [hst]; exact hs)
    keys := c.keys.trans (by rw [← hu]; rfl)
    follows := c.follows.trans (by rw [← hu]; rfl)
    calls := c.calls.trans (by rw [← hu]; rfl)
    circuits := c.circuits.trans (by rw [← hu]; rfl)
    ports := fun q => by
      have := c.ports q
      rw [hports q] at this
      exact this }

end Sys2Proof.Machine
end

section
/-! SUPPORT. Rosters and talker lists as data (R158, R159, R161): what each change of a line leaves in them. -/

namespace Sys2Proof.Machine

open Says

variable {x : Line} {m y : Member} {o p : Nat}

theorem Member.is_iff : m.is o p = true ↔ m.station = o ∧ m.port = p := by simp [Member.is]

/-- A test by station and port fails. -/
theorem not_is_iff {a b c d : Nat} : (!(a == b && c == d)) = true ↔ ¬(a = b ∧ c = d) := by
  rw [Bool.not_eq_eq_eq_not, Bool.not_true, ← Bool.not_eq_true, Bool.and_eq_true, beq_iff_eq, beq_iff_eq]

theorem is_false_iff {a b c d : Nat} : (a == b && c == d) = false ↔ ¬(a = b ∧ c = d) := by
  rw [← Bool.not_eq_true, Bool.and_eq_true, beq_iff_eq, beq_iff_eq]

theorem mem_insertRoster {l : List Member} : y ∈ insertRoster m l ↔ y = m ∨ y ∈ l := by
  induction l with
  | nil => simp [insertRoster]
  | cons z l ih =>
    simp only [insertRoster]
    split
    · simp
    · simp only [List.mem_cons, ih]
      exact ⟨fun h => by rcases h with h | h | h <;> simp [h], fun h => by rcases h with h | h | h <;> simp [h]⟩

theorem length_insertRoster (m : Member) (l : List Member) : (insertRoster m l).length = l.length + 1 := by
  induction l with
  | nil => rfl
  | cons z l ih => simp only [insertRoster]; split <;> simp [ih]

theorem mem_insertTalker {t z : Talker} {l : List Talker} : z ∈ insertTalker t l ↔ z = t ∨ z ∈ l := by
  induction l with
  | nil => simp [insertTalker]
  | cons w l ih =>
    simp only [insertTalker]
    split
    · simp
    · simp only [List.mem_cons, ih]
      exact ⟨fun h => by rcases h with h | h | h <;> simp [h], fun h => by rcases h with h | h | h <;> simp [h]⟩

theorem length_insertTalker (t : Talker) (l : List Talker) : (insertTalker t l).length = l.length + 1 := by
  induction l with
  | nil => rfl
  | cons z l ih => simp only [insertTalker]; split <;> simp [ih]

/-! ## Members -/

theorem Line.put_roster (m : Member) (x : Line) :
    (x.put m).roster = insertRoster m (x.roster.filter fun y => !Member.is m.station m.port y) := by
  unfold Line.put
  dsimp only
  split <;> rfl

theorem Line.mem_put : y ∈ (x.put m).roster ↔ y = m ∨ y ∈ x.roster ∧ ¬(y.station = m.station ∧ y.port = m.port) := by
  simp only [Line.put_roster, mem_insertRoster, List.mem_filter, Bool.not_eq_eq_eq_not, Bool.not_true,
    ← Bool.not_eq_true, Member.is_iff]

theorem Line.put_overfull (m : Member) (x : Line) : (x.put m).overfull = x.overfull := by
  unfold Line.put
  dsimp only
  split <;> rfl

theorem Line.put_talkers (m : Member) (x : Line) : (x.put m).talkers =
    if m.talk then x.talkers else x.talkers.filter fun t => !(t.station == m.station && t.port == m.port) := by
  unfold Line.put
  dsimp only
  split <;> rfl

theorem Line.hasMember_iff : x.hasMember o p = true ↔ ∃ y ∈ x.roster, y.station = o ∧ y.port = p := by
  simp [Line.hasMember, Member.is]

theorem Line.putPeer_of_room (h : x.hasMember m.station m.port = true ∨ x.roster.length < 32) :
    x.putPeer m = x.put m := if_pos (by simpa using h)

theorem Line.putPeer_of_full (hm : x.hasMember m.station m.port = false) (h : 32 ≤ x.roster.length) :
    x.putPeer m = { x with overfull := true } := if_neg (by simp [hm, h])

theorem Line.removeMembers_roster (f : Nat → Nat → Bool) (x : Line) :
    (x.removeMembers f).roster = x.roster.filter fun m => !f m.station m.port := by
  unfold Line.removeMembers
  split
  · rfl
  · rename_i h
    refine (List.filter_eq_self.2 fun m hm => ?_).symm
    simp only [Bool.not_eq_eq_eq_not, Bool.not_true, Bool.eq_false_iff]
    exact fun hf => h (List.any_eq_true.2 ⟨m, hm, hf⟩)

theorem Line.removeMembers_of_any {f : Nat → Nat → Bool} (h : (x.roster.any fun m => f m.station m.port) = true) :
    x.removeMembers f = { roster := x.roster.filter fun m => !f m.station m.port
                          overfull := x.overfull && decide (32 ≤ (x.roster.filter fun m => !f m.station m.port).length)
                          talkers := x.talkers.filter fun t => !f t.station t.port } := if_pos h

theorem Line.removeMembers_talkers (f : Nat → Nat → Bool) (x : Line) :
    (∀ t ∈ (x.removeMembers f).talkers, t ∈ x.talkers) ∧
      ∀ t ∈ x.talkers, f t.station t.port = false → t ∈ (x.removeMembers f).talkers := by
  unfold Line.removeMembers
  split
  · exact ⟨fun t ht => (List.mem_filter.1 ht).1, fun t ht hf => List.mem_filter.2 ⟨ht, by simp [hf]⟩⟩
  · exact ⟨fun _ h => h, fun _ h _ => h⟩

theorem Line.put_talkers_sub (m : Member) (x : Line) : ∀ t ∈ (x.put m).talkers, t ∈ x.talkers := by
  intro t ht
  rw [Line.put_talkers] at ht
  split at ht
  · exact ht
  · exact (List.mem_filter.1 ht).1

theorem Line.put_talkers_keep {t : Talker} (ht : t ∈ x.talkers)
    (h : m.talk = true ∨ ¬(t.station = m.station ∧ t.port = m.port)) : t ∈ (x.put m).talkers := by
  rw [Line.put_talkers]
  split
  · exact ht
  · rename_i hm
    exact List.mem_filter.2 ⟨ht, not_is_iff.2 (h.resolve_left hm)⟩

theorem Line.putPeer_talkers_sub (m : Member) (x : Line) : ∀ t ∈ (x.putPeer m).talkers, t ∈ x.talkers := by
  unfold Line.putPeer
  split
  · exact Line.put_talkers_sub m x
  · exact fun _ h => h

theorem Line.putPeer_talkers_keep {t : Talker} (ht : t ∈ x.talkers)
    (h : m.talk = true ∨ ¬(t.station = m.station ∧ t.port = m.port)) : t ∈ (x.putPeer m).talkers := by
  unfold Line.putPeer
  split
  · exact Line.put_talkers_keep ht h
  · exact ht

/-! ## Talkers -/

theorem Line.mem_dropTalker {t : Talker} :
    t ∈ (x.dropTalker o p).talkers ↔ t ∈ x.talkers ∧ ¬(t.station = o ∧ t.port = p) := by
  simp only [Line.dropTalker, List.mem_filter, not_is_iff]

theorem Line.rank_roster (t : Talker) (x : Line) : (x.rank t).trim.roster = x.roster := rfl

/-- A list of fewer than eight takes a talker and loses none. -/
theorem Line.mem_rank_trim {t z : Talker} (h : x.talkers.length < 8) : z ∈ (x.rank t).trim.talkers ↔
    z = t ∨ z ∈ x.talkers ∧ ¬(z.station = t.station ∧ z.port = t.port) := by
  have hl : (insertTalker t (x.dropTalker t.station t.port).talkers).length ≤ 8 := by
    rw [length_insertTalker]
    exact Nat.succ_le_of_lt (Nat.lt_of_le_of_lt (List.length_filter_le _ _) h)
  show z ∈ (insertTalker t (x.dropTalker t.station t.port).talkers).take 8 ↔ _
  rw [List.take_of_length_le hl, mem_insertTalker, Line.mem_dropTalker]

end Sys2Proof.Machine
end
section
/-! SUPPORT. The bulletins of the lines (R159, R161, R165). -/

namespace Sys2Proof.Machine

open Says

variable {n : Fin 16} {s t u w : State} {p : BusPort}

/-- What an operation of the talkback leaves: the plan, the tally and the radio port. -/
theorem Evolves.talk_kept (h : Evolves Writes.talk s t) : t.plan = s.plan ∧ t.tally = s.tally ∧ radioKept s t :=
  ⟨h.plan rfl, h.tally rfl, .of_eq (h.rport rfl)⟩

/-- After the arrival of a bulletin that the talkback takes. -/
theorem After.talk_kept {x : Biu} {m : Mgmt} (hm : Arrived s { s with biu := x, mgmt := m })
    (he : Evolves Writes.talk { s with biu := x, mgmt := m } w) (ht : After w t) :
    stationKept s t ∧ t.now = s.now ∧ t.plan = s.plan ∧ t.tally = s.tally ∧ radioKept s t := by
  obtain ⟨h1, h2, h3⟩ := he.talk_kept
  exact ⟨(hm.stationKept.trans he.stationKept).trans ht.station, ht.now.trans he.now, ht.plan.trans h1, ht.tally.trans h2,
    h3.trans ht.radio⟩

theorem After.ports (h : After w t) : t.tbk.ports = w.tbk.ports := h.talk.1
theorem After.keys (h : After w t) : t.tbk.keys = w.tbk.keys := h.talk.2.1
theorem After.lines (h : After w t) : t.tbk.lines = w.tbk.lines := h.talk.2.2.1
theorem After.follows (h : After w t) : t.tbk.follows = w.tbk.follows := h.talk.2.2.2.1
theorem After.calls (h : After w t) : t.tbk.calls = w.tbk.calls := h.talk.2.2.2.2.1
theorem After.circuits (h : After w t) : t.tbk.circuits = w.tbk.circuits := h.talk.2.2.2.2.2

/-- What a line's change with talkers of its own list leaves, as the statements about lines put it. -/
theorem Changed.othersTalk {x : Line} {rx : Rx} {port : Nat} (h : Changed n x u w) (hu : u.station = s.station)
    (ht : t.tbk.lines = w.tbk.lines)
    (hsub : ∀ y ∈ x.talkers, y ∈ (s.line n).talkers)
    (hkeep : ∀ y ∈ (s.line n).talkers, ¬(y.station = rx.origin.toNat ∧ y.port = port) → y ∈ x.talkers) :
    othersTalk rx port n s t := by
  unfold Says.othersTalk
  rw [ht]
  exact ⟨fun y hy => hsub y (h.sub.subset hy), fun y hy hs hn => h.peers y (hkeep y hy hn) (by rw [hu]; exact hs)⟩

/-- A member leaves its line (R158). -/
theorem Changed.memberOut {rx : Rx} {port : Nat} (h : Changed n ((s.line n).removeMember rx.origin.toNat port) u w)
    (ht : t.tbk.lines = w.tbk.lines) : memberOut rx port n s t := by
  have hr : t.tbk.lines[n].roster =
      (s.line n).roster.filter (fun m => !(m.station == rx.origin.toNat && m.port == port)) := by
    rw [ht, h.roster, Line.removeMember, Line.removeMembers_roster]
  refine ⟨hr, fun hm => ?_⟩
  have hany : ((s.line n).roster.any fun m => m.station == rx.origin.toNat && m.port == port) = true := hm
  have hx := Line.removeMembers_of_any (f := fun st q => st == rx.origin.toNat && q == port) hany
  refine ⟨fun y hy => ?_, ?_⟩
  · rw [ht] at hy
    have hy' := h.sub.subset hy
    rw [Line.removeMember, hx] at hy'
    exact not_is_iff.1 (List.mem_filter.1 hy').2
  · rw [hr, ht, h.overfull, Line.removeMember, hx]

theorem State.takeJoin_changed (o port : Nat) (n : Fin 16) (listen talk : Bool) (s : State) :
    Changed n (if listen || talk then (s.line n).putPeer { station := o, port, listen, talk }
      else (s.line n).removeMember o port) s (s.takeJoin o n port listen talk) :=
  State.changeLine_changed n (fun x => if listen || talk then x.putPeer { station := o, port, listen, talk }
    else x.removeMember o port) s

/-- Settles O32: a join puts its member in the line's roster, or finds it full; a leave takes it out. -/
theorem joinsAndLeavesMoveMembers : Obligations.JoinsAndLeavesMoveMembers := by
  constructor
  · intro p rx n port listen talk s hr hb
    obtain ⟨x, m, t, hm, he, ht⟩ := exec_block (arrives_arrival .lineJoin p rx) hr
    have hdel : (State.deliver .lineJoin (rx.bulletin .lineJoin) { s with biu := x, mgmt := m }).1 =
        State.takeJoin rx.origin.toNat n port listen talk { s with biu := x, mgmt := m } := by
      simp [State.deliver, Rx.bulletin, hb]
    rw [hdel] at ht
    have hc : Changed n (if listen || talk then
        (s.line n).putPeer { station := rx.origin.toNat, port, listen, talk }
        else (s.line n).removeMember rx.origin.toNat port) { s with biu := x, mgmt := m }
        (State.takeJoin rx.origin.toNat n port listen talk { s with biu := x, mgmt := m }) :=
      State.takeJoin_changed rx.origin.toNat port n listen talk { s with biu := x, mgmt := m }
    obtain ⟨h1, h2, h3, h4, h5⟩ := After.talk_kept hm.arrived hc.evolves ht
    have hl := ht.lines
    refine ⟨t, he, h1, h2, fun hon hroom => ?_, fun hon hno hfull => ?_, fun h h' => ?_, ?_, fun k hk => ?_, h3, h4, h5,
      ht.follows.trans hc.follows, ht.calls.trans hc.calls⟩
    · rw [if_pos (by simpa using hon), Line.putPeer_of_room hroom] at hc
      rw [hl, hc.roster, hc.overfull]
      refine ⟨Line.mem_put.2 (.inl rfl), fun y hy hs hp => ?_, fun y hy => ?_, Line.put_overfull _ _, fun h => ?_,
        fun h y hy hs => hc.peers y (Line.put_talkers_keep hy (.inl h)) hs⟩
      · rcases Line.mem_put.1 hy with rfl | ⟨-, h⟩
        · exact ⟨rfl, rfl⟩
        · exact absurd ⟨hs, hp⟩ h
      · rw [Line.mem_put]
        exact ⟨fun h => (h.resolve_left fun e => hy (e ▸ ⟨rfl, rfl⟩)).1, fun h => .inr ⟨h, hy⟩⟩
      · intro y hy
        rw [hl] at hy
        have hy' := hc.sub.subset hy
        rw [Line.put_talkers, if_neg (by simp [h])] at hy'
        exact not_is_iff.1 (List.mem_filter.1 hy').2
    · rw [if_pos (by simpa using hon), Line.putPeer_of_full hno hfull] at hc
      rw [hl]
      exact ⟨hc.roster, hc.overfull, fun y hy hs => hc.peers y hy hs⟩
    · rw [if_neg (by simp [h, h'])] at hc
      exact hc.memberOut hl
    · refine hc.othersTalk rfl hl ?_ ?_
      · split
        · exact Line.putPeer_talkers_sub _ _
        · exact (Line.removeMembers_talkers _ _).1
      · intro y hy hn
        split
        · exact Line.putPeer_talkers_keep hy (.inr hn)
        · exact (Line.removeMembers_talkers _ _).2 y hy (is_false_iff.2 hn)
    · rw [hl]
      exact hc.lines k hk
  · intro p rx n port s hr hb
    obtain ⟨x, m, t, hm, he, ht⟩ := exec_block (arrives_arrival .lineLeave p rx) hr
    have hdel : (State.deliver .lineLeave (rx.bulletin .lineLeave) { s with biu := x, mgmt := m }).1 =
        State.takeLeave rx.origin.toNat n port { s with biu := x, mgmt := m } := by
      simp [State.deliver, Rx.bulletin, hb]
    rw [hdel] at ht
    have hc : Changed n ((s.line n).removeMember rx.origin.toNat port) { s with biu := x, mgmt := m }
        (State.takeLeave rx.origin.toNat n port { s with biu := x, mgmt := m }) :=
      State.changeLine_changed n _ { s with biu := x, mgmt := m }
    obtain ⟨h1, h2, h3, h4, h5⟩ := After.talk_kept hm.arrived hc.evolves ht
    have hl := ht.lines
    refine ⟨t, he, h1, h2, hc.memberOut hl, hc.othersTalk rfl hl (Line.removeMembers_talkers _ _).1
      (fun y hy hn => (Line.removeMembers_talkers _ _).2 y hy (is_false_iff.2 hn)), fun k hk => ?_, h3, h4, h5,
      ht.follows.trans hc.follows, ht.calls.trans hc.calls⟩
    rw [hl]
    exact hc.lines k hk

end Sys2Proof.Machine
end

section
/-! SUPPORT. NORMAL offers, which evict nothing; talk and follow talk on the bus and under their timers. -/

namespace Sys2Proof.Machine

open Says

variable {n : Fin 16} {q : Fin 12} {o : Offer} {s t u w : State} {p : BusPort}

/-- A NORMAL offer changes the queue and the counters alone (R11). -/
theorem State.offer_normal (hu : o.urgent = false) (s : State) : (s.offer o).1 = { s with
    biu := { s.biu with queue := (s.offer o).1.biu.queue, nextAge := (s.offer o).1.biu.nextAge }
    mgmt := { s.mgmt with counters := (s.offer o).1.mgmt.counters } } := by
  unfold State.offer
  split
  · dsimp only
    split
    · rw [if_neg (by simp [hu])]
      rfl
    · unfold State.addEntry
      split
      · rfl
      · rw [if_neg (by simp [hu])]
        rfl
  · rfl

theorem State.offer_normal_lsup (hu : o.urgent = false) (s : State) : (s.offer o).1.lsup = s.lsup := by
  rw [State.offer_normal hu]

/-! ## Talkers and followers (R161, R165) -/

theorem State.takeTalk_on {o c m port : Nat} (h : ((s.line n).roster.any fun m => m.is o port && m.talk) = true) :
    (s.takeTalk o n port c true m).1 = s.changeLine n fun x =>
      (x.rank { station := o, port, cls := c, expiry := some (s.after (ms 1500)) }).trim := by
  simp only [State.takeTalk, if_true, h]

theorem State.takeTalk_stranger {o c m port : Nat}
    (h : ((s.line n).roster.any fun m => m.is o port && m.talk) = false) :
    (s.takeTalk o n port c true m).1 = s.count .rxSourceCheckFail (some m) := by
  simp [State.takeTalk, h]

theorem State.takeTalk_off {o c m port : Nat} :
    (s.takeTalk o n port c false m).1 = s.changeLine n fun x => x.dropTalker o port := by
  simp [State.takeTalk]

/-- What becomes of the talkback by a TALK (R161). -/
theorem State.takeTalk_effect {o : Nat} (ho : o ≠ s.station) (c m port : Nat) (on : Bool) (n : Fin 16) :
    let t := (s.takeTalk o n port c on m).1
    (∀ k : Fin 16, k ≠ n → t.tbk.lines[k] = s.tbk.lines[k]) ∧ t.tbk.lines[n].roster = (s.line n).roster ∧
      (on = true → ((s.line n).roster.any fun m => m.is o port && m.talk) = true → (s.line n).talkers.length < 8 →
        { station := o, port := port, cls := c, expiry := some (s.now + 1500000) } ∈ t.tbk.lines[n].talkers) ∧
      (on = true → ((s.line n).roster.any fun m => m.is o port && m.talk) = false →
        t.tbk.lines = s.tbk.lines ∧ t.tbk.ports = s.tbk.ports) ∧
      (on = false → ∀ x ∈ t.tbk.lines[n].talkers, ¬(x.station = o ∧ x.port = port)) ∧
      t.tbk.follows = s.tbk.follows ∧ t.tbk.calls = s.tbk.calls := by
  cases on with
  | false =>
    dsimp only
    rw [State.takeTalk_off]
    have hc := State.changeLine_changed n (fun x => x.dropTalker o port) s
    exact ⟨hc.lines, hc.roster, nofun, nofun, fun _ y hy => (Line.mem_dropTalker.1 (hc.sub.subset hy)).2, hc.follows,
      hc.calls⟩
  | true =>
    dsimp only
    cases h : (s.line n).roster.any fun m => m.is o port && m.talk with
    | false =>
      rw [State.takeTalk_stranger h]
      exact ⟨fun _ _ => rfl, rfl, fun _ h => absurd h Bool.false_ne_true, fun _ _ => ⟨rfl, rfl⟩, nofun, rfl, rfl⟩
    | true =>
      rw [State.takeTalk_on h]
      have hc := State.changeLine_changed n (fun x =>
        (x.rank { station := o, port, cls := c, expiry := some (s.after (ms 1500)) }).trim) s
      exact ⟨hc.lines, hc.roster, fun _ _ hl => hc.peers _ ((Line.mem_rank_trim hl).2 (.inl rfl)) ho,
        fun _ h => absurd h.symm Bool.false_ne_true, nofun, hc.follows, hc.calls⟩

theorem FollowEntry.is_iff {f : FollowEntry} {o port : Nat} : f.is o port = true ↔ f.origin = o ∧ f.port = port := by
  simp [FollowEntry.is]

theorem FollowEntry.any_eq_false {l : List FollowEntry} {o port : Nat}
    (h : ∀ f ∈ l, ¬(f.origin = o ∧ f.port = port)) : l.any (FollowEntry.is o port) = false := by
  rw [← Bool.not_eq_true, List.any_eq_true]
  rintro ⟨f, hf, hi⟩
  exact h f hf (FollowEntry.is_iff.1 hi)

/-- A FOLLOW_TALK writes the follow list alone (R165). -/
theorem State.takeFollow_frame (o i port : Nat) (l : Fin 8) (on : Bool) (s : State) : s.takeFollow o l i port on =
    s.setFollows (s.takeFollow o l i port on).tbk.follows := by
  unfold State.takeFollow
  dsimp only
  repeat' split
  all_goals rfl

/-- What becomes of the follow list by a FOLLOW_TALK (R165). -/
theorem State.takeFollow_follows (o i port : Nat) (l : Fin 8) (on : Bool) (s : State) :
    let t := s.takeFollow o l i port on
    (on = true → (∀ f ∈ s.tbk.follows, ¬(f.origin = o ∧ f.port = port)) → s.tbk.follows.length < 4 →
      t.tbk.follows = s.tbk.follows ++ [{ origin := o, port := port, layer := l, input := i, expiry := s.now + 1500000 }]) ∧
    (on = true → (∀ f ∈ s.tbk.follows, ¬(f.origin = o ∧ f.port = port)) → 4 ≤ s.tbk.follows.length →
      t.tbk.follows = s.tbk.follows) ∧
    (on = true → (∃ f ∈ s.tbk.follows, f.origin = o ∧ f.port = port) →
      t.tbk.follows = s.tbk.follows.map fun f => if f.origin = o ∧ f.port = port then
        { origin := o, port := port, layer := l, input := i, expiry := s.now + 1500000 } else f) ∧
    (on = false → t.tbk.follows = s.tbk.follows.filter fun f => !(f.origin == o && f.port == port)) := by
  dsimp only
  refine ⟨fun h hno hlen => ?_, fun h hno hlen => ?_, fun h hin => ?_, fun h => ?_⟩
  · subst h
    rw [State.takeFollow, if_pos rfl, if_neg (by simp [FollowEntry.any_eq_false hno]), if_pos hlen]
    rfl
  · subst h
    rw [State.takeFollow, if_pos rfl, if_neg (by simp [FollowEntry.any_eq_false hno]), if_neg (by simpa using hlen)]
  · subst h
    obtain ⟨f, hfm, hfi⟩ := hin
    rw [State.takeFollow, if_pos rfl, if_pos (List.any_eq_true.2 ⟨f, hfm, FollowEntry.is_iff.2 hfi⟩)]
    exact List.map_congr_left fun g _ => by simp only [FollowEntry.is_iff]; rfl
  · subst h
    rw [State.takeFollow, if_neg Bool.false_ne_true]
    rfl

/-- Settles O33: a TALK moves its talker in the line's list, a FOLLOW_TALK its entry in the follow list. -/
theorem talkersAndFollowersMove : Obligations.TalkersAndFollowersMove := by
  constructor
  · intro p rx n port c on s hr hb
    obtain ⟨x, m, t, hm, he, ht⟩ := exec_block (arrives_arrival .talk p rx) hr
    have hdel : (State.deliver .talk (rx.bulletin .talk) { s with biu := x, mgmt := m }).1 =
        (State.takeTalk rx.origin.toNat n port c on (rx.bulletin .talk).length { s with biu := x, mgmt := m }).1 := by
      simp [State.deliver, Rx.bulletin, hb]
    rw [hdel] at ht
    obtain ⟨h1, h2, h3, h4, h5⟩ := After.talk_kept hm.arrived (State.takeTalk_evolves rfl (.refl _ _)) ht
    obtain ⟨l1, l2, l3, l4, l5, l6, l7⟩ := State.takeTalk_effect (s := { s with biu := x, mgmt := m }) hr.1.2.2 c
      (rx.bulletin .talk).length port on n
    rw [← ht.lines, ← ht.ports] at l4
    rw [← ht.lines] at l1 l2 l3 l5
    exact ⟨t, he, h1, h2, l1, l2, l3, l4, l5, h3, h4, h5, ht.follows.trans l6, ht.calls.trans l7⟩
  · intro p rx k i port on s hr hb
    obtain ⟨x, m, t, hm, he, ht⟩ := exec_block (arrives_arrival .followTalk p rx) hr
    have hdel : (State.deliver .followTalk (rx.bulletin .followTalk) { s with biu := x, mgmt := m }).1 =
        State.takeFollow rx.origin.toNat k i port on { s with biu := x, mgmt := m } := by
      simp [State.deliver, Rx.bulletin, hb]
    rw [hdel] at ht
    obtain ⟨h1, h2, h3, h4, h5⟩ := After.talk_kept hm.arrived (State.takeFollow_evolves rfl (.refl _ _)) ht
    have hfr := State.takeFollow_frame rx.origin.toNat i port k on { s with biu := x, mgmt := m }
    obtain ⟨f1, f2, f3, f4⟩ := State.takeFollow_follows rx.origin.toNat i port k on { s with biu := x, mgmt := m }
    rw [← ht.follows] at f1 f2 f3 f4
    exact ⟨t, he, h1, h2, f1, f2, f3, f4, ht.ports.trans (by rw [hfr]; rfl), ht.lines.trans (by rw [hfr]; rfl),
      ht.calls.trans (by rw [hfr]; rfl), ht.circuits.trans (by rw [hfr]; rfl), h3, ht.lsup.trans (by rw [hfr]; rfl), h4, h5⟩

/-! ## The timers of talk and follow talk (R161, R162, R164) -/

theorem State.refreshTalk_of_talking {r : TbPort} {key : KeyId} (h : s.tbPort q = some r) (hk : r.talk = .talking n key) :
    s.refreshTalk q = (s.offerTalk false true n q r.talkClass).setTbPort q
      { r with talkRefresh := some (s.after (ms 500)) } := by
  simp only [State.refreshTalk, h, hk]

theorem State.refreshFollow_of_following {r : TbPort} {f : FollowState} (h : s.tbPort q = some r)
    (hf : r.follow = some f) : s.refreshFollow q = (s.offerFollow false true q f).setTbPort q
      { r with followRefresh := some (s.after (ms 500)) } := by
  simp only [State.refreshFollow, h, hf]

/-- A port's refresh has been offered, and its record changed. -/
structure Refreshed (o : Offer) (q : Fin 12) (r : TbPort) (s t : State) : Prop where
  station : stationKept s t
  now   : t.now = s.now
  ports : t.tbk.ports = s.tbk.ports.set q (some r)
  lines : t.tbk.lines = s.tbk.lines
  calls : t.tbk.calls = s.tbk.calls
  plan  : t.plan = s.plan
  lsup  : t.lsup = s.lsup
  tally : t.tally = s.tally
  radio : radioKept s t
  holds : s.phase = .active → s.biu.queue.length < 16 → Holds o s t

theorem State.offered_setTbPort_refreshed (hu : o.urgent = false) (q : Fin 12) (r : TbPort) (s : State) :
    Refreshed o q r s ((s.offered o).setTbPort q r) := by
  have h := State.offer_normal hu s
  have hq (ha : s.phase = .active) (hl : s.biu.queue.length < 16) : Holds o s ((s.offered o).setTbPort q r) :=
    (State.offer_holds (State.takesOffers_of_active ha) hl).1
  unfold State.offered at hq ⊢
  rw [h] at hq ⊢
  exact ⟨.refl s, rfl, rfl, rfl, rfl, rfl, rfl, rfl, .of_eq rfl, hq⟩

theorem State.offerTalk_refreshed (n : Fin 16) (q : Fin 12) (r r' : TbPort) (s : State) :
    Refreshed { kind := .talk, urgent := false, target := 0, body := [byte n, byte q, byte r.talkClass, flagByte true],
                key := some (.linePort .talk n q), block := .tbk, ticket := .none } q r' s
      ((s.offerTalk false true n q r.talkClass).setTbPort q r') :=
  State.offered_setTbPort_refreshed rfl q r' s

theorem State.offerFollow_refreshed (q : Fin 12) (f : FollowState) (r' : TbPort) (s : State) :
    Refreshed { kind := .followTalk, urgent := false, target := 0,
                body := [byte (layerNumber f.layer), byte f.input, byte q, flagByte true],
                key := some (.follow q), block := .tbk, ticket := .none } q r' s
      ((s.offerFollow false true q f).setTbPort q r') :=
  State.offered_setTbPort_refreshed rfl q r' s

theorem Refreshed.after {r : TbPort} (h : Refreshed o q r s w) (ht : After w t) : Refreshed o q r s t where
  station := h.station.trans ht.station
  now := ht.now.trans h.now
  ports := ht.ports.trans h.ports
  lines := ht.lines.trans h.lines
  calls := ht.calls.trans h.calls
  plan := ht.plan.trans h.plan
  lsup := ht.lsup.trans h.lsup
  tally := ht.tally.trans h.tally
  radio := h.radio.trans ht.radio
  holds ha hl := by
    obtain ⟨e, he, hr⟩ := h.holds ha hl
    exact ⟨e, ht.mem he, hr⟩

/-- What a timer's expiry sets the clock to. -/
theorem State.reach_stationKept (d : Nat) (s : State) : stationKept s (s.reach d) := ⟨rfl, rfl, rfl, rfl, rfl, rfl⟩

/-- Settles O59: a talker's expiry takes it out of its list; the refreshes offer and restart. -/
theorem talkTimers : Obligations.TalkTimers := by
  refine ⟨fun n st port x d s hx hd => ?_, fun q r n key d s ha hr ht hk => ?_, fun q r f d s ha hr ht hf => ?_⟩
  · have hc := State.changeLine_changed n (fun x => x.dropTalker st port) (s.reach d)
    have he : exec (.talkerEntryExpiry n st port) s = .next (State.talkerGone n st port (s.reach d)).finish :=
      exec_expiry (timer := (s.talker n st port).bind (·.expiry)) rfl (by rw [hx]; exact hd)
    obtain ⟨w, hw⟩ : ∃ w, State.talkerGone n st port (s.reach d) = w := ⟨_, rfl⟩
    rw [show State.changeLine n (fun x => x.dropTalker st port) (s.reach d) = w from hw] at hc
    rw [hw] at he
    have ha := w.finish_after
    obtain ⟨h1, h2, h3⟩ := hc.evolves.talk_kept
    have hl := ha.lines
    refine ⟨_, he, ?_, ha.now.trans hc.evolves.now, fun y hy => ?_, fun y hy hs hn => ?_, ?_, ?_, fun k hk => ?_,
      ha.calls.trans hc.calls, ha.follows.trans hc.follows, ha.plan.trans h1, ha.tally.trans h2,
      radioKept.trans (t := w) h3 ha.radio⟩
    · exact ((s.reach_stationKept d).trans hc.evolves.stationKept).trans ha.station
    · rw [hl] at hy
      exact Line.mem_dropTalker.1 (hc.sub.subset hy)
    · rw [hl]
      exact hc.peers y (Line.mem_dropTalker.2 ⟨hy, hn⟩) hs
    · rw [hl]; exact hc.roster
    · rw [hl]; exact hc.overfull
    · rw [hl]; exact hc.lines k hk
  · have he := exec_expiry (c := .talkRefreshExpiry q) (s := s) (d := d) rfl (by rw [hr]; exact ht)
    rw [State.refreshTalk_of_talking (s := s.reach d) hr hk] at he
    have h := (State.offerTalk_refreshed n q r { r with talkRefresh := some ((s.reach d).after (ms 500)) }
      (s.reach d)).after (State.finish_after _)
    exact ⟨_, he, (s.reach_stationKept d).trans h.station, h.now, h.ports, h.lines, h.calls, h.plan, h.lsup, h.tally,
      h.radio, fun hl => (h.holds ha hl).waits rfl rfl rfl fun _ h => h⟩
  · have he := exec_expiry (c := .followRefreshExpiry q) (s := s) (d := d) rfl (by rw [hr]; exact ht)
    rw [State.refreshFollow_of_following (s := s.reach d) hr hf] at he
    have h := (State.offerFollow_refreshed q f { r with followRefresh := some ((s.reach d).after (ms 500)) }
      (s.reach d)).after (State.finish_after _)
    exact ⟨_, he, (s.reach_stationKept d).trans h.station, h.now, h.ports, h.lines, h.calls, h.plan, h.lsup, h.tally,
      h.radio, fun hl => (h.holds ha hl).waits rfl rfl rfl fun _ h => h⟩

end Sys2Proof.Machine
end

section
/-! SUPPORT. Calls and circuits (R166 to R174): what ends and keeps a call does to its slot, its circuit and its port; and
MGMT's replies (R180). -/

namespace Sys2Proof.Machine

open Says

variable {k : Fin 4} {q : Fin 12} {x : Nat × Nat} {o : Offer} {s t u w : State} {p : BusPort}

/-! ## Replies (R180) -/

/-- A reply is queued where the queue has room for it. -/
theorem State.reply_queued {v : Bool} {origin tag : Nat} {code : Byte} {ret : ReturnCode} {data : List Byte}
    (ht : s.takesOffers = true) (hq : s.biu.queue.length < 16) : s.reply v origin tag code ret data = { s with
      biu := { s.biu with
        queue := s.biu.queue ++ [newEntry s {
          kind := .taskReply, urgent := v, target := origin, body := byte tag :: code :: ret.code :: data, key := none,
          block := .mgmt, ticket := .none }]
        nextAge := s.biu.nextAge + 1 } } :=
  congrArg Prod.fst (State.offer_keyless ht hq rfl)

theorem State.reply_tbk (v : Bool) (origin tag : Nat) (code : Byte) (ret : ReturnCode) (data : List Byte) (s : State) :
    (s.reply v origin tag code ret data).tbk = s.tbk := State.offered_tbk _ s

/-- A NORMAL reply changes the queue and the counters alone. -/
theorem State.reply_normal (origin tag : Nat) (code : Byte) (ret : ReturnCode) (data : List Byte) (s : State) :
    ∃ queue age counters, s.reply false origin tag code ret data = { s with
      biu := { s.biu with queue := queue, nextAge := age }, mgmt := { s.mgmt with counters := counters } } :=
  ⟨_, _, _, State.offer_normal rfl s⟩

/-! ## Circuits and indications -/

theorem State.indicate_of_lamp {r : TbPort} (h : s.tbPort q = some r) (hl : r.callLamp.isSome = true) :
    s.indicate q = s.setTbPort q { r with indication := some (s.after (sec 2)) } := by
  simp only [State.indicate, State.modTbPort, h, hl, if_true]

theorem State.indicate_frame (q : Fin 12) (s : State) :
    s.indicate q = { s with tbk := { s.tbk with ports := (s.indicate q).tbk.ports } } := by
  unfold State.indicate State.modTbPort
  split <;> rfl

theorem State.freeCircuit_frame (c : Fin 15) (x : Nat × Nat) (s : State) :
    s.freeCircuit c x = { s with tbk := { s.tbk with circuits := (s.freeCircuit c x).tbk.circuits } } := by
  unfold State.freeCircuit
  split <;> rfl

theorem State.freeCircuit_used {c : Fin 15} {y : CircuitUse} (h : s.tbk.circuits[c] = some y) (hy : y.caller = x) :
    s.freeCircuit c x = s.setCircuit c none := by
  rw [State.freeCircuit, h, if_pos (by simp [hy])]

theorem State.freeCircuit_congr {c : Fin 15} (h : t.tbk = s.tbk) : (t.freeCircuit c x).tbk = (s.freeCircuit c x).tbk := by
  unfold State.freeCircuit State.setCircuit
  rw [h]
  split
  · rfl
  · exact h

/-! ## The end of a call (R172) -/

/-- A call's end frees its slot and may show an indication at its port. -/
theorem State.closeCall_frame (k : Fin 4) (c : CallRec) (r : EndReason) (s : State) : s.closeCall k c r =
    { s with tbk := { s.tbk with calls := s.tbk.calls.set k none, ports := (s.closeCall k c r).tbk.ports } } := by
  unfold State.closeCall
  dsimp only
  split
  · rfl
  · rw [State.indicate_frame]
    rfl

theorem State.closeCall_cleared (c : CallRec) : (s.closeCall k c .cleared).tbk.ports = s.tbk.ports := rfl

theorem State.closeCall_indicates {c : CallRec} {r : EndReason} {y : TbPort} (hr : r ≠ .cleared)
    (h : s.tbPort c.port = some y) (hl : y.callLamp.isSome = true) :
    (s.closeCall k c r).tbk.ports = s.tbk.ports.set c.port (some { y with indication := some (s.now + 2000000) }) := by
  have h' : (s.setCall k none).tbPort c.port = some y := h
  rw [State.closeCall, if_neg hr, State.indicate_of_lamp h' hl]
  rfl

/-- A CALL_END of another station frees the circuit and the slot it concerns. -/
theorem State.takeEnd_concerned {origin : Nat} {b : CallBody} {c : CallRec} (h : s.concerned origin b = some k)
    (hk : s.call k = some c) :
    s.takeEnd origin b = (s.freeCircuit b.circuit b.caller).closeCall k c b.reason := by
  have hf := s.freeCircuit_frame b.circuit b.caller
  have h' : (s.freeCircuit b.circuit b.caller).concerned origin b = some k := by rw [hf]; exact h
  have hk' : (s.freeCircuit b.circuit b.caller).call k = some c := by rw [hf]; exact hk
  simp only [State.takeEnd, h', hk']

/-- The checks of a call bulletin pass. -/
theorem State.readCall_of_checked {isEnd : Bool} {origin n : Nat} {body : List Byte} {b : CallBody}
    (h : readCallBody isEnd body = some b) (ho : origin = b.caller.1 ∨ origin = b.callee.1) (hd : b.caller.1 ≠ b.callee.1)
    (s : State) : s.readCall isEnd origin body n = .inr b := by
  simp only [State.readCall, h]
  exact if_pos ⟨ho, hd⟩

/-- Settles O36: a CALL_END frees the slot and the circuit, and may show an indication. -/
theorem callEndFreesSlotAndCircuit : Obligations.CallEndFreesSlotAndCircuit := by
  intro p rx b k c s hr hb ho hd hc hk
  obtain ⟨x, m, t, hm, he, ht⟩ := exec_block (arrives_arrival .callEnd p rx) hr
  obtain ⟨u, hu⟩ : ∃ u : State, u = { s with biu := x, mgmt := m } := ⟨_, rfl⟩
  rw [← hu] at ht hm
  have hdel : (State.deliver .callEnd (rx.bulletin .callEnd) u).1 =
      (u.freeCircuit b.circuit b.caller).closeCall k c b.reason := by
    have hread := State.readCall_of_checked (n := (rx.bulletin .callEnd).length) hb ho hd u
    rw [← State.takeEnd_concerned (s := u) (by rw [hu]; exact hc) (by rw [hu]; exact hk)]
    simp only [State.deliver, Rx.bulletin] at hread ⊢
    rw [hread]
  rw [hdel] at ht
  have hcl := State.closeCall_frame k c b.reason (u.freeCircuit b.circuit b.caller)
  have hfr := u.freeCircuit_frame b.circuit b.caller
  have hev := State.closeCall_evolves (k := k) (c := c) (r := b.reason) (w := Writes.talk) rfl
    (State.freeCircuit_evolves (c := b.circuit) (x := b.caller) rfl (Evolves.refl _ u))
  rw [hu] at hm hev
  obtain ⟨h1, h2, h3, h4, h5⟩ := After.talk_kept hm.arrived hev (by rw [← hu]; exact ht)
  have hpl {r : TbPort} (h : s.tbPort c.port = some r) : (u.freeCircuit b.circuit b.caller).tbPort c.port = some r := by
    rw [hfr, hu]
    exact h
  refine ⟨t, he, h1, h2, ?_, fun y hy hyc => ?_, fun hcl' => ?_, fun hne r hrp hrl => ?_, ?_, ?_, h3, ?_, h4, h5⟩
  · rw [ht.calls, hcl, hfr, hu]
  · rw [ht.circuits, hcl, State.freeCircuit_used (by rw [hu]; exact hy) hyc]
    exact getFin_set_self _ _ _
  · rw [ht.ports, hcl', State.closeCall_cleared, hfr, hu]
  · rw [ht.ports, State.closeCall_indicates hne (hpl hrp) hrl, hfr, hu]
    exact getFin_set_self _ _ _
  · rw [ht.lines, hcl, hfr, hu]
  · rw [ht.follows, hcl, hfr, hu]
  · rw [ht.lsup, hcl, hfr, hu]


/-! ## The timers of a call (R168, R171, R172) -/

/-- The offer of a call bulletin for a slot. -/
def callOffer (k : Kind) (urgent : Bool) (slot : Nat) (caller callee : Nat × Nat) (c : Fin 15) (reason : Nat) : Offer :=
  { kind := k, urgent, target := 0, body := callBytes caller callee c reason, key := some (.call k slot), block := .tbk,
    ticket := .none }

theorem State.offerCall_end (v : Bool) (n : Nat) (x y : Nat × Nat) (c : Fin 15) (r : Nat) (s : State) :
    s.offerCall .callEnd v n x y c r = (s.offered (callOffer .callEnd v n x y c r)).freeCircuit c x := rfl

/-- A call bulletin's offer, with what it does to the circuit table, leaves the offer's entry in the queue. -/
theorem State.offerCall_holds {kind : Kind} {v : Bool} {n : Nat} {y : Nat × Nat} {c : Fin 15} {r : Nat}
    (ht : s.takesOffers = true) (hq : s.biu.queue.length < 16) :
    Holds (callOffer kind v n x y c r) s (s.offerCall kind v n x y c r) := by
  have h : Holds (callOffer kind v n x y c r) s (s.offered (callOffer kind v n x y c r)) := (State.offer_holds ht hq).1
  have hb : (s.offerCall kind v n x y c r).biu = (s.offered (callOffer kind v n x y c r)).biu := by
    unfold State.offerCall
    split
    · rfl
    · rfl
    · rw [State.freeCircuit_frame]
      rfl
    · rfl
  obtain ⟨e, he, hr⟩ := h
  exact ⟨e, hb ▸ he, hr⟩

/-- The call's own end (R172): the slot is free, the circuit is, the indication may be shown, and a CALL_END offered. -/
theorem State.endCall_tbk (c : CallRec) (r : EndReason) (s : State) :
    (s.endCall k c r).tbk = ((s.closeCall k c r).freeCircuit c.circuit (c.callerOf s.station)).tbk := by
  have hs : (s.closeCall k c r).station = s.station := by rw [State.closeCall_frame]; rfl
  rw [State.endCall, State.offerFor, hs, State.offerCall_end, State.freeCircuit_congr (State.offered_tbk _ _)]

theorem State.endCall_holds {c : CallRec} {r : EndReason} (ht : s.takesOffers = true) (hq : s.biu.queue.length < 16) :
    Holds (callOffer .callEnd true k (c.callerOf s.station) (c.calleeOf s.station) c.circuit r.code) s
      (s.endCall k c r) := by
  have hf := State.closeCall_frame k c r s
  have h := State.offerCall_holds (kind := .callEnd) (v := true) (n := k) (x := c.callerOf s.station)
    (y := c.calleeOf s.station) (c := c.circuit) (r := r.code) (s := s.closeCall k c r)
    (by rw [hf]; exact ht) (by rw [hf]; exact hq)
  have hs : (s.closeCall k c r).station = s.station := by rw [hf]; rfl
  have he : s.endCall k c r = (s.closeCall k c r).offerCall .callEnd true k (c.callerOf s.station)
      (c.calleeOf s.station) c.circuit r.code := by
    rw [State.endCall, State.offerFor, hs]
  rw [he]
  obtain ⟨e, hm, h1, h2, h3⟩ := h
  exact ⟨e, hm, h1, h2, h3.trans (by rw [State.build, State.build, hs, hf]; rfl)⟩

/-- A call that is kept: its keep timer restarts, its circuit's expiry too, and its bulletin is offered. -/
theorem State.keepCall_of_mine {c : CallRec} (h : s.call k = some c) (hc : c.state ≠ .ringingIn) :
    s.keepCall k = (s.setCall k (some { c with keepTimer := some (s.after (sec 2)) })).offerFor
      (if c.state = .ringingOut then .callRing else .callKeep) (decide (c.state = .ringingOut)) k c 0 := by
  simp only [State.keepCall, h]
  cases hs : c.state with
  | ringingOut => rfl
  | connected => rfl
  | ringingIn => exact absurd hs hc

theorem State.offerFor_using {kind : Kind} (hk : kind = .callRing ∨ kind = .callKeep) (v : Bool) (c : CallRec) (r : Nat)
    (s : State) : (s.offerFor kind v k c r).tbk = { s.tbk with
      circuits := s.tbk.circuits.set c.circuit
        (some { caller := c.callerOf s.station, expiry := s.now + 6000000 }) } := by
  have ho (o : Offer) := (State.offer_offered o s).now
  have hb (o : Offer) := State.offered_tbk o s
  rcases hk with rfl | rfl
  all_goals
    simp only [State.offerFor, State.offerCall, State.useCircuit, State.setCircuit, hb]
    simp only [State.after, State.offered, ho]
    rfl

theorem State.expireCall_of_call {c : CallRec} {r : EndReason} (h : s.call k = some c) :
    s.expireCall k r = s.endCall k c r := by
  simp only [State.expireCall, h]

/-- A call of a slot runs out: after the ring timer or the call expiry, as their statements put it. -/
theorem expireCall_effect {c : CallRec} {d : Nat} {r : EndReason} {e : Instr} {timer : Timer}
    (ha : s.phase = .active) (hk : s.call k = some c)
    (he : exec e s = done (s.onExpiry timer (State.expireCall k r))) (ht : timer = some d) (hr : r ≠ .cleared) :
    ∃ t : State, exec e s = .next t ∧ stationKept s t ∧
      t.now = max s.now d ∧ t.tbk.calls = s.tbk.calls.set k none ∧
      (∀ u : CircuitUse, s.tbk.circuits[c.circuit] = some u → u.caller = c.callerOf s.station →
        t.tbk.circuits = s.tbk.circuits.set c.circuit none) ∧
      (∀ r : TbPort, s.tbPort c.port = some r → r.callLamp.isSome = true →
        t.tbk.ports = s.tbk.ports.set c.port (some { r with indication := some (max s.now d + 2000000) })) ∧
      (s.biu.queue.length < 16 → waits true .callEnd
        [byte (c.callerOf s.station).1, byte (c.callerOf s.station).2, byte (c.calleeOf s.station).1,
         byte (c.calleeOf s.station).2, byte (c.circuit.val + 17), byte r.code] s t) ∧
      t.tbk.lines = s.tbk.lines ∧ t.tbk.follows = s.tbk.follows ∧ t.plan = s.plan ∧ t.tally = s.tally ∧
      radioKept s t := by
  have hx := exec_expiry he ht
  have hk' : (s.reach d).call k = some c := hk
  have hev := State.expireCall_evolves (k := k) (r := r) rfl (Evolves.refl Writes.talk (s.reach d))
  rw [State.expireCall_of_call hk'] at hx hev
  have htbk := State.endCall_tbk (k := k) c r (s.reach d)
  have hcl := State.closeCall_frame k c r (s.reach d)
  have hfr := ((s.reach d).closeCall k c r).freeCircuit_frame c.circuit (c.callerOf s.station)
  have hf := ((s.reach d).endCall k c r).finish_after
  have hst : (s.reach d).station = s.station := rfl
  rw [hst] at htbk
  obtain ⟨h1, h2, h3⟩ := hev.talk_kept
  refine ⟨_, hx, ((s.reach_stationKept d).trans hev.stationKept).trans hf.station, hf.now.trans hev.now, ?_,
    fun y hy hyc => ?_, fun y hy hl => ?_, fun hq => ?_, ?_, ?_, hf.plan.trans h1, hf.tally.trans h2,
    radioKept.trans (t := (s.reach d).endCall k c r) h3 hf.radio⟩
  · rw [hf.calls, htbk, hfr, hcl]
    rfl
  · rw [hf.circuits, htbk, State.freeCircuit_used (by rw [hcl]; exact hy) hyc, hcl]
    rfl
  · rw [hf.ports, htbk, hfr]
    exact State.closeCall_indicates (s := s.reach d) hr hy hl
  · exact hf.waits ((State.endCall_holds (s := s.reach d) (State.takesOffers_of_active ha) hq).waits rfl rfl rfl
      fun _ h => h)
  · rw [hf.lines, htbk, hfr, hcl]
    rfl
  · rw [hf.follows, htbk, hfr, hcl]
    rfl

/-- Settles O60: the timers of a call, the crosspoint line and the timer of a long task. -/
theorem callTimersAndLines : Obligations.CallTimersAndLines := by
  refine ⟨fun k c d lost s ha hk hd => ?_, fun k c d s ha hk hd hc => ?_, fun s h => ?_, fun n x s h => ?_,
    fun x s ha hx => ?_⟩
  · cases lost with
    | true =>
      exact expireCall_effect (e := .callExpiry k) (r := .lost) ha hk rfl (by rw [hk]; exact hd) (by decide)
    | false =>
      exact expireCall_effect (e := .ringTimerExpiry k) (r := .noAnswer) ha hk rfl (by rw [hk]; exact hd) (by decide)
  · have he := exec_expiry (c := .keepTimerExpiry k) (s := s) (d := d) rfl (by rw [hk]; exact hd)
    have hk' : (s.reach d).call k = some c := hk
    have hev := State.keepCall_evolves (k := k) rfl (Evolves.refl Writes.talk (s.reach d))
    rw [State.keepCall_of_mine hk' hc] at he hev
    have hkind : (if c.state = .ringingOut then Kind.callRing else .callKeep) = .callRing ∨
        (if c.state = .ringingOut then Kind.callRing else .callKeep) = .callKeep := by
      split
      · exact .inl rfl
      · exact .inr rfl
    obtain ⟨v, hv⟩ : ∃ v, v = (s.reach d).setCall k (some { c with keepTimer := some ((s.reach d).after (sec 2)) }) :=
      ⟨_, rfl⟩
    rw [← hv] at he hev
    have htbk := State.offerFor_using (k := k) hkind (decide (c.state = .ringingOut)) c 0 v
    have hh := State.offerCall_holds (kind := if c.state = .ringingOut then .callRing else .callKeep)
      (v := decide (c.state = .ringingOut)) (n := k) (x := c.callerOf v.station) (y := c.calleeOf v.station)
      (c := c.circuit) (r := 0) (s := v) (State.takesOffers_of_active (by rw [hv]; exact ha))
    have hf := (v.offerFor (if c.state = .ringingOut then .callRing else .callKeep) (decide (c.state = .ringingOut)) k c
      0).finish_after
    obtain ⟨h1, h2, h3⟩ := hev.talk_kept
    refine ⟨_, he, ((s.reach_stationKept d).trans hev.stationKept).trans hf.station, hf.now.trans hev.now, ?_, ?_,
      fun hq => ?_, ?_, ?_, hf.plan.trans h1, hf.tally.trans h2,
      radioKept.trans (s := s.reach d) h3 hf.radio⟩
    · rw [hf.calls, htbk, hv]
      rfl
    · rw [hf.circuits, htbk, hv]
      rfl
    · have hq' : v.biu.queue.length < 16 := by rw [hv]; exact hq
      exact hf.waits ((hh hq').waits rfl (by rw [hv]; rfl) (by rw [hv]; rfl) fun _ h => h)
    · rw [hf.ports, htbk, hv]
      rfl
    · rw [hf.lines, htbk, hv]
      rfl
  · show done s.updateSent = _
    rw [State.updateSent, h]
    rfl
  · show done s.updateSent = _
    rw [State.updateSent, h]
    rfl
  · have he := exec_expiry (c := .taskTimerExpiry) (s := s) (d := x.timer) rfl (by rw [hx]; rfl)
    obtain ⟨v, hv⟩ : ∃ v : State, v = ({ s.reach x.timer with
      mgmt := { s.mgmt with longTask := none } } : State).modReloc x.link fun r => { r with task := false } := ⟨_, rfl⟩
    have htt : (s.reach x.timer).taskTimeout = v.reply false x.origin x.tag x.code.code .timedOut [] := by
      have hx' : (s.reach x.timer).mgmt.longTask = some x := hx
      rw [State.taskTimeout, hx', hv]
      rfl
    rw [htt] at he
    have hfr : v = { s.reach x.timer with
        mgmt := { s.mgmt with longTask := none }, lsup := { s.lsup with links := v.lsup.links } } := by
      rw [hv, State.modReloc, State.modLink_frame]
      rfl
    obtain ⟨queue, age, counters, hrep⟩ := State.reply_normal x.origin x.tag x.code.code .timedOut [] v
    have hf := (v.reply false x.origin x.tag x.code.code .timedOut []).finish_after
    have hfr' : v.reply false x.origin x.tag x.code.code .timedOut [] = { s.reach x.timer with
        biu := { s.biu with queue := queue, nextAge := age }
        mgmt := { s.mgmt with longTask := none, counters := counters }
        lsup := { s.lsup with links := v.lsup.links } } := by
      rw [hrep, hfr]
      rfl
    refine ⟨_, he, ?_, hf.now.trans (by rw [hfr']; rfl), hf.longTask.trans (by rw [hfr']),
      hf.recent.trans (by rw [hfr']), fun y r hy hr => ?_, hf.plan.trans (by rw [hfr']; rfl), hf.tally.trans (by rw [hfr']; rfl),
      ?_, ?_, fun hq => ?_⟩
    · refine stationKept.trans (t := v.reply false x.origin x.tag x.code.code .timedOut []) ?_ hf.station
      rw [hfr']
      exact ⟨rfl, rfl, rfl, rfl, rfl, rfl⟩
    · have hy' : ({ s.reach x.timer with mgmt := { s.mgmt with longTask := none } } : State).link x.link = some y := hy
      rw [hf.lsup, hfr', hv, State.modReloc, State.modLink_of_some hy', hr]
      rfl
    · exact (talkKept.of_eq (by rw [hfr']; rfl)).trans hf.talk
    · exact radioKept.trans (t := v.reply false x.origin x.tag x.code.code .timedOut []) (.of_eq (by rw [hfr']; rfl))
        hf.radio
    · have hq' : v.biu.queue.length < 16 := by rw [hfr]; exact hq
      have hrq := State.reply_queued (v := false) (origin := x.origin) (tag := x.tag) (code := x.code.code)
        (ret := .timedOut) (data := []) (State.takesOffers_of_active (by rw [hfr]; exact ha)) hq'
      refine ⟨_, hf.mem (by rw [hrq]; exact List.mem_append_right _ (List.mem_singleton_self _)), rfl, ?_⟩
      rw [hfr]
      rfl

end Sys2Proof.Machine
end

section
/-! SUPPORT. Answers and keeps of another station (R167, R171, R173): the slot they concern, and the clash that follows. -/

namespace Sys2Proof.Machine

open Says

variable {j k : Fin 4} {c : CallRec} {n : Fin 15} {x : Nat × Nat} {s t u w : State} {p : BusPort}

theorem State.concerned_some {origin : Nat} {b : CallBody} (h : s.concerned origin b = some k) (hk : s.call k = some c) :
    c.callerOf s.station = b.caller ∧ c.calleeOf s.station = b.callee ∧ c.peer.1 = origin := by
  have hf := List.find?_some h
  simpa [hk, and_assoc] using hf

theorem State.takeCircuit_frame (n : Fin 15) (x : Nat × Nat) (s : State) :
    s.takeCircuit n x = { s with tbk := { s.tbk with circuits := (s.takeCircuit n x).tbk.circuits } } := by
  unfold State.takeCircuit
  split
  · rfl
  · split <;> rfl

/-- A circuit that no other caller uses is taken. -/
theorem State.takeCircuit_open (h : s.tbk.circuits[n].all (fun y => y.caller == x) = true) :
    s.takeCircuit n x = s.useCircuit n x := by
  unfold State.takeCircuit
  split
  · rfl
  · rename_i y hy
    rw [hy] at h
    exact if_pos (.inl (by simpa using h))

/-! ## The clash (R173) -/

/-- An offer for a slot changes the circuits of the talkback alone. -/
theorem State.offerFor_tbk (kind : Kind) (v : Bool) (c : CallRec) (r : Nat) (s : State) :
    (s.offerFor kind v k c r).tbk = { s.tbk with circuits := (s.offerFor kind v k c r).tbk.circuits } := by
  have hb (o : Offer) := State.offered_tbk o s
  unfold State.offerFor State.offerCall
  dsimp only
  split
  · simp only [State.useCircuit, State.setCircuit, hb]
  · simp only [State.useCircuit, State.setCircuit, hb]
  · rw [State.freeCircuit_frame]
    simp only [hb]
  · simp only [hb]

/-- Slots of calls other than one, and the lines, are as they were. -/
structure OtherSlots (j : Fin 4) (s t : State) : Prop where
  calls : ∀ i : Fin 4, i ≠ j → t.call i = s.call i
  lines : t.tbk.lines = s.tbk.lines
  cfg   : t.cfg = s.cfg

theorem OtherSlots.offerFor (kind : Kind) (v : Bool) (c : CallRec) (r : Nat) (s : State) :
    OtherSlots j s (s.offerFor kind v k c r) := by
  have h := State.offerFor_tbk (k := k) kind v c r s
  refine ⟨fun i _ => ?_, by rw [h], (State.offerFor_evolves (w := Writes.talk) rfl (.refl _ s)).cfg⟩
  unfold State.call
  rw [h]

theorem OtherSlots.trans (a : OtherSlots j s t) (b : OtherSlots j t u) : OtherSlots j s u :=
  ⟨fun i hi => (b.calls i hi).trans (a.calls i hi), b.lines.trans a.lines, b.cfg.trans a.cfg⟩

theorem OtherSlots.setCall (c : Option CallRec) (s : State) : OtherSlots j s (s.setCall j c) :=
  ⟨fun _ hi => getFin_set_ne _ hi _, rfl, rfl⟩

theorem OtherSlots.endCall (c : CallRec) (r : EndReason) (s : State) : OtherSlots j s (s.endCall j c r) := by
  refine OtherSlots.trans ?_ (OtherSlots.offerFor (k := j) .callEnd true c r.code (s.closeCall j c r))
  rw [State.closeCall_frame]
  exact ⟨fun _ hi => getFin_set_ne _ hi _, rfl, rfl⟩

/-- A slot has no part in a clash over a circuit: its call is on another, or is the caller's own. -/
def State.apartFrom (n : Fin 15) (x : Nat × Nat) (s : State) (j : Fin 4) : Prop :=
  ∀ c : CallRec, s.call j = some c → c.circuit = n → c.callerOf s.station = x

theorem State.clashSlot_apart (h : s.apartFrom n x j) : State.clashSlot n x s j = s := by
  unfold State.clashSlot
  split
  · rfl
  · rename_i c hc
    exact if_neg fun hn => hn.2.1 (h c hc hn.1)

theorem State.clashSlot_others (n : Fin 15) (x : Nat × Nat) (j : Fin 4) (s : State) :
    OtherSlots j s (State.clashSlot n x s j) := by
  unfold State.clashSlot
  split
  · exact ⟨fun _ _ => rfl, rfl, rfl⟩
  · dsimp only
    split
    · split
      · split
        all_goals exact OtherSlots.offerFor _ _ _ _ s
      · split
        · split
          all_goals exact (OtherSlots.setCall _ s).trans (OtherSlots.offerFor _ _ _ _ _)
        · exact OtherSlots.endCall _ _ s
    · exact ⟨fun _ _ => rfl, rfl, rfl⟩

theorem State.apartFrom_congr (hc : t.call j = s.call j) (hs : t.cfg = s.cfg) : t.apartFrom n x j ↔ s.apartFrom n x j := by
  unfold State.apartFrom
  rw [hc, State.station_congr hs]

theorem State.clash_lines (n : Fin 15) (x : Nat × Nat) (s : State) : (s.clash n x).tbk.lines = s.tbk.lines := by
  unfold State.clash
  induction List.finRange 4 generalizing s with
  | nil => rfl
  | cons j l ih => exact (ih _).trans (State.clashSlot_others n x j s).lines

/-- A slot apart from the clash keeps its call. -/
theorem State.clash_apart (h : s.apartFrom n x k) : (s.clash n x).call k = s.call k := by
  unfold State.clash
  induction List.finRange 4 generalizing s with
  | nil => rfl
  | cons j l ih =>
    have hj : (State.clashSlot n x s j).call k = s.call k ∧ (State.clashSlot n x s j).cfg = s.cfg := by
      by_cases hjk : k = j
      · subst hjk
        rw [State.clashSlot_apart h]
        exact ⟨rfl, rfl⟩
      · have ho := State.clashSlot_others n x j s
        exact ⟨ho.calls k hjk, ho.cfg⟩
    exact (ih ((State.apartFrom_congr hj.1 hj.2).2 h)).trans hj.1

theorem State.clash_none (h : ∀ k, s.apartFrom n x k) : s.clash n x = s := by
  unfold State.clash
  induction List.finRange 4 with
  | nil => rfl
  | cons j l ih => rw [List.foldl_cons, State.clashSlot_apart (h j), ih]

/-! ## Answers and keeps -/

/-- What becomes of a call that a keep concerns. -/
theorem CallRec.kept_eq (now : Nat) (m : Fin 15) (c : CallRec) : CallRec.kept now (some m) c =
    (let circuit := if c.caller then c.circuit else m
     match c.state with
     | .ringingOut => { c with state := .connected, circuit := circuit, ringTimer := none,
                               keepTimer := some (now + 2000000), callExpiry := some (now + 6000000) }
     | .connected => { c with circuit := circuit, callExpiry := some (now + 6000000) }
     | .ringingIn => { c with circuit := circuit }) := by
  obtain ⟨state, caller, port, peer, circuit, ringTimer, keepTimer, callExpiry⟩ := c
  cases caller <;> cases state <;> rfl

theorem CallRec.kept_callerOf (now : Nat) (m : Option (Fin 15)) (station : Nat) (c : CallRec) :
    (CallRec.kept now m c).callerOf station = c.callerOf station := by
  obtain ⟨state, caller, port, peer, circuit, ringTimer, keepTimer, callExpiry⟩ := c
  cases m <;> cases caller <;> cases state <;> rfl

theorem State.takeKeep_concerned {origin : Nat} {b : CallBody} (h : s.concerned origin b = some k)
    (hk : s.call k = some c) : s.takeKeep origin b = State.clash b.circuit b.caller
      ((s.takeCircuit b.circuit b.caller).setCall k (some (CallRec.kept s.now (some b.circuit) c))) := by
  have hf := s.takeCircuit_frame b.circuit b.caller
  have h' : (s.takeCircuit b.circuit b.caller).concerned origin b = some k := by rw [hf]; exact h
  have hk' : (s.takeCircuit b.circuit b.caller).call k = some c := by rw [hf]; exact hk
  have hn : (s.takeCircuit b.circuit b.caller).now = s.now := by rw [hf]
  simp only [State.takeKeep, h', hk', hn, Option.map_some]

/-- What a keep leaves of the talkback. -/
theorem State.takeKeep_effect {origin : Nat} {b : CallBody} (h : s.concerned origin b = some k) (hk : s.call k = some c) :
    let t := s.takeKeep origin b
    t.tbk.calls[k] = some (CallRec.kept s.now (some b.circuit) c) ∧
    (∀ (j : Fin 4) (x : CallRec), j ≠ k → s.call j = some x → x.circuit ≠ b.circuit → t.tbk.calls[j] = some x) ∧
    (∀ j : Fin 4, s.call j = none → t.tbk.calls[j] = none) ∧
    (s.tbk.circuits[b.circuit].all (fun u => u.caller == b.caller) = true →
      (∀ (j : Fin 4) (x : CallRec), s.call j = some x → j ≠ k → x.circuit ≠ b.circuit) →
      t.tbk.circuits[b.circuit] = some { caller := b.caller, expiry := s.now + 6000000 }) ∧
    t.tbk.lines = s.tbk.lines := by
  dsimp only
  rw [State.takeKeep_concerned h hk]
  have hf := s.takeCircuit_frame b.circuit b.caller
  obtain ⟨v, hv⟩ : ∃ v, v = (s.takeCircuit b.circuit b.caller).setCall k (some (CallRec.kept s.now (some b.circuit) c)) :=
    ⟨_, rfl⟩
  have hvk : v.call k = some (CallRec.kept s.now (some b.circuit) c) := by rw [hv]; exact getFin_set_self _ _ _
  have hvj (i : Fin 4) (hi : i ≠ k) : v.call i = s.call i := by
    rw [hv, hf]
    exact getFin_set_ne _ hi _
  have hvs : v.station = s.station := by rw [hv, hf]; rfl
  have hown : v.apartFrom b.circuit b.caller k := fun y hy _ => by
    rw [hvk] at hy
    rw [← Option.some.inj hy, hvs, CallRec.kept_callerOf]
    exact (State.concerned_some h hk).1
  have hother {i : Fin 4} (hi : i ≠ k) (hx : ∀ y, s.call i = some y → y.circuit ≠ b.circuit) :
      v.apartFrom b.circuit b.caller i := fun y hy hyc => absurd hyc (hx y (hvj i hi ▸ hy))
  rw [← hv]
  refine ⟨(State.clash_apart hown).trans hvk, fun i y hi hy hyc => ?_, fun i hi => ?_, fun ho hx => ?_, ?_⟩
  · refine (State.clash_apart (hother hi fun z hz => ?_)).trans ((hvj i hi).trans hy)
    rw [hy] at hz
    exact Option.some.inj hz ▸ hyc
  · have hik : i ≠ k := fun e => by rw [e, hk] at hi; cases hi
    exact (State.clash_apart (hother hik fun z hz => by rw [hi] at hz; cases hz)).trans ((hvj i hik).trans hi)
  · rw [State.clash_none fun i => if hi : i = k then hi ▸ hown else hother hi fun y hy => hx i y hy hi, hv,
      State.takeCircuit_open ho]
    exact getFin_set_self _ _ _
  · rw [State.clash_lines, hv, hf]
    rfl

/-- Settles O35: an answer and a keep connect the call they concern, a keep refreshes its circuit. -/
theorem answersAndKeepsConnect : Obligations.AnswersAndKeepsConnect := by
  constructor
  · intro p rx b k c s hr hb ho hd hc hk
    obtain ⟨x, m, t, hm, he, ht⟩ := exec_block (arrives_arrival .callAnswer p rx) hr
    obtain ⟨u, hu⟩ : ∃ u : State, u = { s with biu := x, mgmt := m } := ⟨_, rfl⟩
    rw [← hu] at ht hm
    have hdel : (State.deliver .callAnswer (rx.bulletin .callAnswer) u).1 =
        u.setCall k (some (CallRec.kept u.now none c)) := by
      have hread := State.readCall_of_checked (n := (rx.bulletin .callAnswer).length) hb ho hd u
      have hc' : u.concerned rx.origin.toNat b = some k := by rw [hu]; exact hc
      have hk' : u.call k = some c := by rw [hu]; exact hk
      simp only [State.deliver, Rx.bulletin] at hread ⊢
      rw [hread]
      simp only [State.takeAnswer, hc', hk', Option.map_some]
    rw [hdel] at ht
    have hev := State.setCall_evolves (w := Writes.talk) (k := k) (c := some (CallRec.kept u.now none c)) rfl
      (Evolves.refl _ u)
    have hcalls : t.tbk.calls = s.tbk.calls.set k (some (CallRec.kept s.now none c)) := by
      rw [ht.calls, hu]
      rfl
    rw [hu] at hm hev ht
    obtain ⟨h1, h2, h3, h4, h5⟩ := After.talk_kept hm.arrived hev ht
    refine ⟨t, he, h1, h2, fun hs => ?_, fun hs => ?_, fun hs => ?_, ht.circuits, ht.lines, ht.ports, h3, ht.lsup, h4, h5⟩
    · rw [hcalls]
      simp only [CallRec.kept, hs]
      rfl
    · rw [hcalls]
      simp only [CallRec.kept, hs]
      rfl
    · rw [hcalls]
      simp only [CallRec.kept, hs]
      rw [← hk]
      exact Vector.set_getElem_self _
  · intro p rx b k c s hr hb ho hd hc hk
    obtain ⟨x, m, t, hm, he, ht⟩ := exec_block (arrives_arrival .callKeep p rx) hr
    obtain ⟨u, hu⟩ : ∃ u : State, u = { s with biu := x, mgmt := m } := ⟨_, rfl⟩
    rw [← hu] at ht hm
    have hdel : (State.deliver .callKeep (rx.bulletin .callKeep) u).1 = u.takeKeep rx.origin.toNat b := by
      have hread := State.readCall_of_checked (n := (rx.bulletin .callKeep).length) hb ho hd u
      simp only [State.deliver, Rx.bulletin] at hread ⊢
      rw [hread]
    rw [hdel] at ht
    have hev := State.takeKeep_evolves (w := Writes.talk) (o := rx.origin.toNat) (b := b) rfl (Evolves.refl _ u)
    obtain ⟨e1, e2, e3, e4, e5⟩ := State.takeKeep_effect (s := u) (by rw [hu]; exact hc) (by rw [hu]; exact hk)
    rw [← ht.calls] at e1 e2 e3
    rw [← ht.circuits] at e4
    rw [← ht.lines] at e5
    rw [hu] at hm hev ht e1 e2 e3 e4 e5
    obtain ⟨h1, h2, h3, h4, h5⟩ := After.talk_kept hm.arrived hev ht
    rw [CallRec.kept_eq] at e1
    exact ⟨t, he, h1, h2, e1, e2, e3, fun ha hx => ⟨_, e4 ha hx, rfl, rfl⟩, e5, h3, h4, h5⟩

end Sys2Proof.Machine
end

section
/-! SUPPORT. Changes of every line at once (R158, R159): a station's membership list, and a station that is gone. -/

namespace Sys2Proof.Machine

open Says

variable {n : Fin 16} {k : Fin 4} {s t u w : State} {p : BusPort} {m y : Member} {x : Line}

/-! ## Every line -/

/-- Every line changes, in line order. -/
def State.overLines (f : Fin 16 → Line → Line) (l : List (Fin 16)) (s : State) : State :=
  l.foldl (fun s n => s.changeLine n (f n)) s

theorem State.overLines_cons (f : Fin 16 → Line → Line) (k : Fin 16) (l : List (Fin 16)) (s : State) :
    s.overLines f (k :: l) = (s.changeLine k (f k)).overLines f l := by
  unfold State.overLines
  rw [List.foldl_cons]

theorem State.agreeMembers_eq (o : Nat) (rs : List PresenceRecord) (s : State) :
    s.agreeMembers o rs = s.overLines (Line.agree o rs) (List.finRange 16) := rfl

theorem State.dropStation_eq (o : Nat) (s : State) :
    s.dropStation o = s.overLines (fun _ x => x.removeMembers fun st _ => st == o) (List.finRange 16) := rfl

/-- Each of some lines has been changed. -/
structure LinesChanged (f : Fin 16 → Line → Line) (l : List (Fin 16)) (s t : State) : Prop where
  rosters : ∀ n ∈ l, t.tbk.lines[n].roster = (f n (s.line n)).roster
  lines   : ∀ n, n ∉ l → t.tbk.lines[n] = s.tbk.lines[n]
  keys    : t.tbk.keys = s.tbk.keys
  follows : t.tbk.follows = s.tbk.follows
  calls   : t.tbk.calls = s.tbk.calls
  circuits : t.tbk.circuits = s.tbk.circuits

theorem State.overLines_changed (f : Fin 16 → Line → Line) {l : List (Fin 16)} (hl : l.Nodup) (s : State) :
    LinesChanged f l s (s.overLines f l) := by
  induction l generalizing s with
  | nil => exact ⟨fun _ h => absurd h List.not_mem_nil, fun _ _ => rfl, rfl, rfl, rfl, rfl⟩
  | cons k l ih =>
    obtain ⟨hk, hl⟩ := List.nodup_cons.1 hl
    have a := State.changeLine_changed k (f k) s
    have b := ih hl (s.changeLine k (f k))
    rw [State.overLines_cons]
    generalize s.changeLine k (f k) = u at a b ⊢
    refine ⟨fun n hn => ?_, fun n hn => ?_, b.keys.trans a.keys, b.follows.trans a.follows, b.calls.trans a.calls,
      b.circuits.trans a.circuits⟩
    · rcases List.mem_cons.1 hn with rfl | hn
      · exact (congrArg Line.roster (b.lines n hk)).trans a.roster
      · have hne : n ≠ k := fun e => hk (e ▸ hn)
        refine (b.rosters n hn).trans ?_
        have hline : u.line n = s.line n := a.lines n hne
        rw [hline]
    · obtain ⟨hne, hn⟩ := not_or.1 (mt List.mem_cons.2 hn)
      exact (b.lines n hn).trans (a.lines n hne)

theorem State.overLines_all (f : Fin 16 → Line → Line) (s : State) :
    LinesChanged f (List.finRange 16) s (s.overLines f (List.finRange 16)) :=
  State.overLines_changed f (List.nodup_finRange 16) s

/-! ## A station that is gone (R19) -/

/-- What becomes of a slot whose peer's station may be gone. -/
def CallRec.unlost (station : Nat) (c : CallRec) : Option CallRec := if c.peer.1 = station then none else some c

/-- The part of one slot in the loss of a station's calls. -/
def State.loseSlot (station : Nat) (s : State) (k : Fin 4) : State :=
  match s.call k with
  | some c => if c.peer.1 = station then s.closeCall k c .lost else s
  | none => s

theorem State.loseCalls_eq (o : Nat) (s : State) :
    s.loseCalls o = (List.finRange 4).foldl (State.loseSlot o) s := rfl

theorem State.loseSlot_frame (o : Nat) (k : Fin 4) (s : State) : s.loseSlot o k =
    { s with tbk := { s.tbk with calls := (s.loseSlot o k).tbk.calls, ports := (s.loseSlot o k).tbk.ports } } := by
  unfold State.loseSlot
  split
  · split
    · rw [State.closeCall_frame]
    · rfl
  · rfl

theorem State.loseSlot_self (o : Nat) (k : Fin 4) (s : State) :
    (s.loseSlot o k).tbk.calls[k] = (s.tbk.calls[k]).bind (CallRec.unlost o) := by
  unfold State.loseSlot
  split
  · rename_i c hc
    have hc' : s.tbk.calls[k] = some c := hc
    rw [hc', Option.bind_some, CallRec.unlost]
    split
    · rw [State.closeCall_frame]
      exact getFin_set_self _ _ _
    · exact hc'
  · rename_i hc
    have hc' : s.tbk.calls[k] = none := hc
    rw [hc']
    rfl

theorem State.loseSlot_ne {j : Fin 4} (o : Nat) (h : j ≠ k) (s : State) :
    (s.loseSlot o k).tbk.calls[j] = s.tbk.calls[j] := by
  unfold State.loseSlot
  split
  · split
    · rw [State.closeCall_frame]
      exact getFin_set_ne _ h _
    · rfl
  · rfl

/-- The loss of a station's calls changes calls and indications. -/
theorem State.loseCalls_frame (o : Nat) (s : State) : s.loseCalls o =
    { s with tbk := { s.tbk with calls := (s.loseCalls o).tbk.calls, ports := (s.loseCalls o).tbk.ports } } := by
  rw [State.loseCalls_eq]
  induction List.finRange 4 generalizing s with
  | nil => rfl
  | cons j l ih => rw [List.foldl_cons, ih, State.loseSlot_frame]

/-- Each slot's call with the station is over, each other call is as it was. -/
theorem State.loseCalls_calls (o : Nat) (s : State) (k : Fin 4) :
    (s.loseCalls o).tbk.calls[k] = (s.tbk.calls[k]).bind (CallRec.unlost o) := by
  have idem (c : Option CallRec) : (c.bind (CallRec.unlost o)).bind (CallRec.unlost o) = c.bind (CallRec.unlost o) := by
    cases c with
    | none => rfl
    | some c => by_cases h : c.peer.1 = o <;> simp [CallRec.unlost, h]
  have step (l : List (Fin 4)) (s : State) : (l.foldl (State.loseSlot o) s).tbk.calls[k] =
        if k ∈ l then (s.tbk.calls[k]).bind (CallRec.unlost o) else s.tbk.calls[k] := by
    induction l generalizing s with
    | nil => rfl
    | cons j l ih =>
      rw [List.foldl_cons, ih]
      by_cases hj : k = j
      · subst hj
        rw [State.loseSlot_self, idem, ite_self, if_pos List.mem_cons_self]
      · rw [State.loseSlot_ne o hj]
        simp [hj]
  exact (step (List.finRange 4) s).trans (if_pos (List.mem_finRange k))

end Sys2Proof.Machine
end
section
/-! SUPPORT. The membership list of a PRESENCE (R18, R159). -/

namespace Sys2Proof.Machine

open Says

variable {n : Fin 16} {s t u w : State} {p : BusPort} {y : Member} {x : Line} {r : PresenceRecord} {o : Nat}
  {rs : List PresenceRecord}

/-! ## The body -/

theorem ranged_le {lo hi i : Nat} {l : List Byte} {v : Nat} (h : ranged lo hi l i = some v) : lo ≤ v ∧ v ≤ hi := by
  simp only [ranged, Option.bind_eq_some_iff] at h
  obtain ⟨a, -, ha⟩ := h
  split at ha
  · rename_i hl
    exact Option.some.inj ha ▸ hl
  · cases ha

theorem length_readRecords {l : List Byte} {c i : Nat} (h : readRecords l c i = some rs) : rs.length = c := by
  induction c generalizing i rs with
  | zero =>
    cases h
    rfl
  | succ c ih =>
    simp only [readRecords, Option.bind_eq_bind, Option.bind_eq_some_iff, Option.pure_def, Option.some.injEq] at h
    obtain ⟨_, -, _, -, _, -, rest, hrest, rfl⟩ := h
    exact congrArg (· + 1) (ih hrest)

/-- A list that reads has at most eight records, each of a port of its own (R192). -/
theorem readPresenceBody_bounds {l : List Byte} {serial : Nat} (h : readPresenceBody l = some (serial, rs)) :
    rs.length ≤ 8 ∧ (rs.map (·.port)).Nodup := by
  simp only [readPresenceBody, Option.bind_eq_bind, Option.bind_eq_some_iff] at h
  obtain ⟨_, -, c, hc, records, hr, h⟩ := h
  split at h
  · rename_i hn
    cases h
    exact ⟨length_readRecords hr ▸ (ranged_le hc).2, hn⟩
  · cases h

/-! ## A line that agrees -/

/-- The member of a record on a line. -/
def PresenceRecord.member (o : Nat) (n : Fin 16) (r : PresenceRecord) : Member :=
  { station := o, port := r.port, listen := r.listen.getLsbD n, talk := r.talk.getLsbD n }

/-- The members of a list of records join a line. -/
def Line.joinRecords (o : Nat) (n : Fin 16) (l : List PresenceRecord) (x : Line) : Line :=
  l.foldl (fun x r => x.putPeer (r.member o n)) x

/-- The records of a list that name a line. -/
def namedOn (n : Fin 16) (rs : List PresenceRecord) : List PresenceRecord :=
  rs.filter fun r => r.listen.getLsbD n || r.talk.getLsbD n

theorem Line.joinRecords_cons (o : Nat) (n : Fin 16) (r : PresenceRecord) (l : List PresenceRecord) (x : Line) :
    x.joinRecords o n (r :: l) = (x.putPeer (r.member o n)).joinRecords o n l := rfl

theorem Line.agree_eq (o : Nat) (rs : List PresenceRecord) (n : Fin 16) (x : Line) : x.agree o rs n =
    (x.removeMembers fun st q => st == o && !((namedOn n rs).any fun r => r.port == q)).joinRecords o n
      (namedOn n rs) := rfl

theorem Line.length_put_le (m : Member) (x : Line) : (x.put m).roster.length ≤ x.roster.length + 1 := by
  rw [Line.put_roster, length_insertRoster]
  exact Nat.succ_le_succ (List.length_filter_le _ _)

/-- A record of the origin's stands in the line once its member has joined, those of the records yet to join aside. -/
theorem Line.joinRecords_only {named l : List PresenceRecord} (hl : ∀ r ∈ l, r ∈ named)
    (hx : ∀ m ∈ x.roster, m.station = o → (∃ r ∈ named, m = r.member o n) ∨ ∃ r ∈ l, r.port = m.port) :
    ∀ m ∈ (x.joinRecords o n l).roster, m.station = o → ∃ r ∈ named, m = r.member o n := by
  induction l generalizing x with
  | nil => exact fun m hm hs => (hx m hm hs).resolve_right fun ⟨r, hr, _⟩ => absurd hr List.not_mem_nil
  | cons r l ih =>
    rw [Line.joinRecords_cons]
    refine ih (fun r' h => hl r' (List.mem_cons_of_mem _ h)) fun m hm hs => ?_
    have pending {m : Member} (hm : m ∈ x.roster) (hs : m.station = o) (hp : m.port ≠ r.port) :
        (∃ r ∈ named, m = r.member o n) ∨ ∃ r ∈ l, r.port = m.port := by
      refine (hx m hm hs).imp_right fun ⟨r', hr', hp'⟩ => ⟨r', (List.mem_cons.1 hr').resolve_left ?_, hp'⟩
      rintro rfl
      exact hp hp'.symm
    by_cases hroom : x.hasMember o r.port = true ∨ x.roster.length < 32
    · rw [Line.putPeer_of_room (m := r.member o n) hroom, Line.mem_put] at hm
      rcases hm with rfl | ⟨hm, hne⟩
      · exact .inl ⟨r, hl r List.mem_cons_self, rfl⟩
      · exact pending hm hs fun hp => hne ⟨hs, hp⟩
    · obtain ⟨hno, hfull⟩ := not_or.1 hroom
      rw [Line.putPeer_of_full (m := r.member o n) (Bool.eq_false_iff.2 hno) (by omega)] at hm
      refine pending hm hs fun hp => hno (Line.hasMember_iff.2 ⟨m, hm, hs, hp⟩)

/-- A member of the origin's stays in the line while records of other ports join. -/
theorem Line.joinRecords_keeps {l : List PresenceRecord} (hm : y ∈ x.roster) (hp : ∀ r ∈ l, r.port ≠ y.port) :
    y ∈ (x.joinRecords o n l).roster := by
  induction l generalizing x with
  | nil => exact hm
  | cons r l ih =>
    rw [Line.joinRecords_cons]
    refine ih ?_ fun r' h => hp r' (List.mem_cons_of_mem _ h)
    unfold Line.putPeer
    split
    · exact Line.mem_put.2 (.inr ⟨hm, fun h => hp r List.mem_cons_self h.2.symm⟩)
    · exact hm

/-- Every record joins a line that has room for them all. -/
theorem Line.joinRecords_all {l : List PresenceRecord} (hn : (l.map (·.port)).Nodup)
    (hlen : x.roster.length + l.length ≤ 32) : ∀ r ∈ l, r.member o n ∈ (x.joinRecords o n l).roster := by
  induction l generalizing x with
  | nil => exact fun r h => absurd h List.not_mem_nil
  | cons r l ih =>
    rw [List.map_cons, List.nodup_cons] at hn
    obtain ⟨hr, hn⟩ := hn
    rw [List.length_cons] at hlen
    have hput : x.putPeer (r.member o n) = x.put (r.member o n) := Line.putPeer_of_room (.inr (by omega))
    have hle := Line.length_put_le (r.member o n) x
    intro r' hr'
    rw [Line.joinRecords_cons, hput]
    rcases List.mem_cons.1 hr' with rfl | hr'
    · exact Line.joinRecords_keeps (Line.mem_put.2 (.inl rfl)) fun r'' h hp =>
        hr (List.mem_map.2 ⟨r'', h, hp⟩)
    · exact ih hn (by omega) r' hr'

/-- A line that agrees with a list holds of the origin's members those the list names. -/
theorem Line.agree_only : ∀ m ∈ (x.agree o rs n).roster, m.station = o → ∃ r ∈ namedOn n rs, m = r.member o n := by
  rw [Line.agree_eq]
  refine Line.joinRecords_only (fun _ h => h) fun m hm hs => .inr ?_
  rw [Line.removeMembers_roster, List.mem_filter] at hm
  simpa [hs] using hm.2

/-- It holds every one of them where its roster has room for eight more. -/
theorem Line.agree_all (hn : (rs.map (·.port)).Nodup) (hlen : rs.length ≤ 8) (hx : x.roster.length ≤ 24) :
    ∀ r ∈ namedOn n rs, r.member o n ∈ (x.agree o rs n).roster := by
  rw [Line.agree_eq]
  refine Line.joinRecords_all (List.Nodup.sublist (List.Sublist.map _ List.filter_sublist) hn) ?_
  have h1 := List.length_filter_le (fun r : PresenceRecord => r.listen.getLsbD n || r.talk.getLsbD n) rs
  have h2 := List.length_filter_le (fun m : Member => !(m.station == o && !((namedOn n rs).any fun r => r.port == m.port)))
    x.roster
  rw [Line.removeMembers_roster]
  unfold namedOn at h2 ⊢
  omega

/-! ## A PRESENCE taken -/

/-- A change of every line moves the state, and the talkback's records with it. -/
theorem State.overLines_evolves (f : Fin 16 → Line → Line) (l : List (Fin 16)) (s : State) :
    Evolves Writes.talk s (s.overLines f l) :=
  Evolves.foldl _ (fun u _ => State.changeLine_evolves rfl (Evolves.refl _ u)) _ (.refl _ s)

theorem State.overLines_moves (f : Fin 16 → Line → Line) (l : List (Fin 16)) (s : State) : Moves s (s.overLines f l) :=
  Moves.foldl _ (fun _ _ => State.changeLine_moves .refl) _ .refl

/-- What a station that is gone leaves: no member in any line, and no call. -/
structure Gone (o : Nat) (s t : State) : Prop where
  rosters : ∀ n : Fin 16, t.tbk.lines[n].roster = (s.line n).roster.filter fun m => !(m.station == o)
  calls   : ∀ k : Fin 4, t.tbk.calls[k] = (s.tbk.calls[k]).bind (CallRec.unlost o)
  keys    : t.tbk.keys = s.tbk.keys
  follows : t.tbk.follows = s.tbk.follows
  circuits : t.tbk.circuits = s.tbk.circuits

theorem State.stationGone_gone (o : Nat) (s : State) : Gone o s (s.stationGone o) := by
  have h := State.overLines_all (fun _ x => x.removeMembers fun st _ => st == o) s
  rw [← State.dropStation_eq] at h
  unfold State.stationGone
  generalize s.dropStation o = u at h ⊢
  have hf := u.loseCalls_frame o
  refine ⟨fun n => ?_, fun k => ?_, ?_, ?_, ?_⟩
  · rw [hf]
    exact (h.rosters n (List.mem_finRange n)).trans (Line.removeMembers_roster _ _)
  · rw [State.loseCalls_calls, h.calls]
  · rw [hf]
    exact h.keys
  · rw [hf]
    exact h.follows
  · rw [hf]
    exact h.circuits

/-- The roster and the lines a PRESENCE finds, where its origin's serial is another than before. -/
def State.beforePresence (i : Fin 127) (origin serial : Nat) (s : State) : State :=
  match s.biu.roster[i] with
  | some e => if e.serial = serial then s else (s.setRoster i none).stationGone origin
  | none => s

theorem State.takePresence_eq {origin serial : Nat} {i : Fin 127} (h : finOf 127 origin = some i) (s : State) :
    s.takePresence origin serial rs = State.agreeMembers origin rs ((s.beforePresence i origin serial).setRoster i
      (some { serial, expiry := (s.beforePresence i origin serial).after (sec 4) })) := by
  rw [State.takePresence, h]
  rfl

/-- What is there before the list is agreed with: no more members than before, and every other roster entry. -/
theorem State.beforePresence_effect (i : Fin 127) (origin serial : Nat) (s : State) :
    let t := s.beforePresence i origin serial
    (∀ n : Fin 16, t.tbk.lines[n].roster.length ≤ s.tbk.lines[n].roster.length) ∧
    (∀ j : Fin 127, j ≠ i → t.biu.roster[j] = s.biu.roster[j]) ∧ t.tbk.keys = s.tbk.keys ∧ t.tbk.follows = s.tbk.follows ∧
    t.now = s.now := by
  unfold State.beforePresence
  split
  · split
    · exact ⟨fun _ => Nat.le_refl _, fun _ _ => rfl, rfl, rfl, rfl⟩
    · have g := State.stationGone_gone origin (s.setRoster i none)
      have hm := (State.stationGone_moves (n := origin) (Moves.refl (s := s.setRoster i none))).beside
      have he := State.stationGone_evolves (n := origin) rfl (Evolves.refl Writes.talk (s.setRoster i none))
      refine ⟨fun n => ?_, fun j hj => ?_, g.keys, g.follows, he.now⟩
      · rw [g.rosters]
        exact List.length_filter_le _ _
      · rw [hm.roster]
        exact getFin_set_ne _ hj _
  · exact ⟨fun _ => Nat.le_refl _, fun _ _ => rfl, rfl, rfl, rfl⟩

/-- What a PRESENCE of another station leaves (R18, R159). -/
theorem State.takePresence_effect {i : Fin 127} {origin serial : Nat} (ho : origin = i.val)
    (hn : (rs.map (·.port)).Nodup) (hlen : rs.length ≤ 8) (s : State) :
    let t := s.takePresence origin serial rs
    t.biu.roster[i] = some { serial := serial, expiry := s.now + 4000000 } ∧
    (∀ j : Fin 127, j ≠ i → t.biu.roster[j] = s.biu.roster[j]) ∧
    (∀ (n : Fin 16), ∀ m ∈ t.tbk.lines[n].roster, m.station = i.val → ∃ r ∈ namedOn n rs, m = r.member i n) ∧
    (∀ (n : Fin 16), ∀ r ∈ namedOn n rs, s.tbk.lines[n].roster.length ≤ 24 → r.member i n ∈ t.tbk.lines[n].roster) ∧
    t.tbk.keys = s.tbk.keys ∧ t.tbk.follows = s.tbk.follows := by
  subst ho
  dsimp only
  rw [State.takePresence_eq (finOf_val i)]
  obtain ⟨b1, b2, b3, b4, b5⟩ := State.beforePresence_effect i i serial s
  generalize State.beforePresence i i serial s = u at b1 b2 b3 b4 b5 ⊢
  obtain ⟨v, hv⟩ : ∃ v, v = u.setRoster i (some { serial, expiry := u.after (sec 4) }) := ⟨_, rfl⟩
  have h := State.overLines_all (Line.agree i rs) v
  have hm := (State.overLines_moves (Line.agree i rs) (List.finRange 16) v).beside
  rw [← hv, State.agreeMembers_eq]
  refine ⟨?_, fun j hj => ?_, fun n m hmem hs => ?_, fun n r hr hl => ?_, ?_, ?_⟩
  · rw [hm.roster, hv]
    refine (getFin_set_self _ _ _).trans ?_
    rw [State.after, b5]
    rfl
  · rw [hm.roster, hv]
    exact (getFin_set_ne _ hj _).trans (b2 j hj)
  · rw [h.rosters n (List.mem_finRange n)] at hmem
    exact Line.agree_only m hmem hs
  · rw [h.rosters n (List.mem_finRange n)]
    refine Line.agree_all hn hlen ?_ r hr
    rw [hv]
    exact Nat.le_trans (b1 n) hl
  · rw [h.keys, hv]
    exact b3
  · rw [h.follows, hv]
    exact b4

/-- Settles O26: a PRESENCE fills its origin's place in the roster, and its members' places in the lines. -/
theorem presenceFillsTheRosters : Obligations.PresenceFillsTheRosters := by
  intro p rx serial records i s hr hb hi
  obtain ⟨x, m, t, hm, he, ht⟩ := exec_block (arrives_arrival .presence p rx) hr
  have hdel : (State.deliver .presence (rx.bulletin .presence) { s with biu := x, mgmt := m }).1 =
      State.takePresence rx.origin.toNat serial records { s with biu := x, mgmt := m } := by
    simp [State.deliver, Rx.bulletin, hb]
  rw [hdel] at ht
  obtain ⟨hlen, hn⟩ := readPresenceBody_bounds hb
  obtain ⟨h1, h2, h3, h4, h5⟩ := After.talk_kept hm.arrived (State.takePresence_evolves rfl (.refl _ _)) ht
  obtain ⟨e1, e2, e3, e4, e5, e6⟩ := State.takePresence_effect (serial := serial) hi hn hlen
    { s with biu := x, mgmt := m }
  rw [← ht.roster] at e1 e2
  rw [← ht.lines] at e3 e4
  have hx : x.roster = s.biu.roster := hm.arrived.roster
  refine ⟨t, he, h1, h2, e1, fun j hj => ?_, fun n y hy hs => ?_, fun n r hr ho hl => ?_, h3, h4, h5,
    ht.keys.trans e5, ht.follows.trans e6⟩
  · refine (e2 j hj).trans ?_
    dsimp only
    rw [hx]
  · obtain ⟨r, hr, rfl⟩ := e3 n y hy hs
    obtain ⟨hr, hn⟩ := List.mem_filter.1 hr
    exact ⟨r, hr, rfl, rfl, rfl, by simpa [PresenceRecord.member] using hn⟩
  · exact e4 n r (List.mem_filter.2 ⟨hr, by simpa using ho⟩) hl

end Sys2Proof.Machine
end

section
/-! SUPPORT. The tasks (R178 to R180): what MGMT meets when it takes one, and what a task that is only answered leaves. -/

namespace Sys2Proof.Machine

open Says

variable {c : TaskCode} {p : BusPort} {x : TaskRx} {s t u v w : State}

/-! ## Operations and the station -/

theorem State.offer_stationKept (o : Offer) (s : State) : stationKept s (s.offer o).1 := by
  rw [(State.offer_offered o s).eq]
  exact ⟨rfl, rfl, rfl, rfl, rfl, rfl⟩

theorem State.modLink_stationKept (l : Fin 8) (f : LinkRec → LinkRec) (s : State) : stationKept s (s.modLink l f) := by
  rw [State.modLink_frame]
  exact ⟨rfl, rfl, rfl, rfl, rfl, rfl⟩

theorem State.sightingRefused_stationKept (l : Fin 8) (sp : Span) (bad : Bool) (s : State) :
    stationKept s (s.sightingRefused l sp bad) := by
  rw [State.sightingRefused_frame]
  exact ⟨rfl, rfl, rfl, rfl, rfl, rfl⟩

/-- No operation inside an event touches the station, or the clock. -/
theorem Moves.station (h : Moves s t) : stationKept s t ∧ t.now = s.now := by
  induction h with
  | refl => exact ⟨.refl s, rfl⟩
  | offer o _ ih => exact ⟨ih.1.trans (State.offer_stationKept o _), (State.offer_offered o _).now.trans ih.2⟩
  | link l f _ _ ih =>
    exact ⟨ih.1.trans (State.modLink_stationKept l f _), Eq.trans (by rw [State.modLink_frame]) ih.2⟩
  | refused l sp bad _ ih =>
    exact ⟨ih.1.trans (State.sightingRefused_stationKept l sp bad _),
      Eq.trans (by rw [State.sightingRefused_frame]) ih.2⟩
  | count | plan | rport | tables | tally | tbk | longTask => assumption

theorem stationKept.phase (h : stationKept s t) : t.phase = s.phase := h.1

theorem stationKept.cfg (h : stationKept s t) : t.cfg = s.cfg := by
  obtain ⟨-, -, -, -, h, -⟩ := h
  exact h

/-! ## A task taken -/

theorem TaskCode.ofCode_code (c : TaskCode) : TaskCode.ofCode c.code = some c := by cases c <;> rfl

/-- The entry a task gets in the list of recent ones (R179). -/
def recentAfter (k : TaskIn) (s : State) : List RecentTask :=
  (if s.mgmt.recent.length < 8 then s.mgmt.recent else s.mgmt.recent.drop 1) ++
    [{ origin := k.origin, tag := k.tag, code := k.code.toNat, expiry := s.now + 1000000 }]

/-- The events that each counter counts are as they were. -/
def MasksKept (s t : State) : Prop :=
  ∀ k : Fin 8, t.mgmt.counters[k].mask = s.mgmt.counters[k].mask ∧ t.mgmt.counters[k].bytes = s.mgmt.counters[k].bytes

theorem MasksKept.of_eq (h : t.mgmt.counters = s.mgmt.counters) : MasksKept s t := fun k => by
  rw [h]
  exact ⟨rfl, rfl⟩

theorem MasksKept.trans (a : MasksKept s t) (b : MasksKept t u) : MasksKept s u :=
  fun k => ⟨(b k).1.trans (a k).1, (b k).2.trans (a k).2⟩

theorem State.count_masks (ev : Event) (n : Option Nat) (s : State) : MasksKept s (s.count ev n) := fun k => by
  have h : (s.count ev n).mgmt.counters[k] = Counter.bump ev n s.mgmt.counters[k] := Vector.getElem_map _ _
  rw [h, Counter.bump]
  split <;> exact ⟨rfl, rfl⟩

theorem State.hooked_masks (p : BusPort) (b : Bulletin) (s : State) : MasksKept s (s.hooked p b) := by
  have ha : MasksKept s (s.accepted p b) := State.count_masks _ _ _
  have hl : MasksKept s ((s.accepted p b).learn p b) := by
    rw [State.learn_frame]
    exact ha
  have hf (v : State) : MasksKept v (v.forward p b) := by
    unfold State.forward State.forwardTo
    repeat' split
    · exact State.count_masks _ _ v
    · exact .of_eq rfl
    · exact State.count_masks _ _ v
    · exact State.count_masks _ _ v
    · exact .of_eq rfl
  exact hl.trans (hf _)

/-- What MGMT meets when it takes a task: the station as it stood, with the receive path's part in BIU and MGMT, and the
task among the recent ones. -/
structure Taken (c : TaskCode) (p : BusPort) (x : TaskRx) (s u : State) : Prop where
  eq       : u = { s with biu := u.biu, mgmt := u.mgmt }
  queue    : u.biu.queue = s.biu.queue
  roster   : u.biu.roster = s.biu.roster
  longTask : u.mgmt.longTask = s.mgmt.longTask
  recent   : u.mgmt.recent = recentAfter (task c x) s
  rules    : u.mgmt.rules = s.mgmt.rules.map fun r => if r.hitBy ((TaskRx.rx c x).bulletin .task) then r.hit else r
  counters : s.isBridge = false → u.mgmt.counters = s.mgmt.counters.map (taskCounted c x)
  masks    : MasksKept s u
  nextAge  : u.biu.nextAge = s.biu.nextAge

theorem Taken.stationKept (h : Taken c p x s u) : stationKept s u := by
  rw [h.eq]
  exact ⟨rfl, rfl, rfl, rfl, rfl, rfl⟩

theorem Taken.now (h : Taken c p x s u) : u.now = s.now := by rw [h.eq]

theorem Taken.line (h : Taken c p x s u) (hl : s.biu.LineRight) : u.biu.LineRight := by
  unfold Biu.LineRight at hl ⊢
  rw [h.queue, h.nextAge]
  exact hl

theorem Taken.records (h : Taken c p x s u) : recordsKept s u :=
  ⟨h.roster, by rw [h.eq], by rw [h.eq], by rw [h.eq], talkKept.of_eq (by rw [h.eq]), radioKept.of_eq (by rw [h.eq])⟩

theorem arrives_task (c : TaskCode) (p : BusPort) (x : TaskRx) : arrives (taskArrival c p x) .task p (TaskRx.rx c x) :=
  .inr ⟨c, x, rfl, rfl, rfl⟩

theorem State.deliver_task (hp : u.phase = .active) (ht : x.target ≠ 0) :
    (u.deliver .task ((TaskRx.rx c x).bulletin .task)) = (u.takeTask (task c x), .accepted) := by
  have hb : ((TaskRx.rx c x).bulletin .task).target ≠ 0 := ht
  simp only [State.deliver, hp]
  exact if_neg hb

/-- A task that MGMT takes: its own operation, and the captures of its bulletin. -/
theorem exec_task (h : tasked c p x s) : ∃ u v, Taken c p x s u ∧
    CapturesOf ((TaskRx.rx c x).bulletin .task) .accepted (s.onceHits ((TaskRx.rx c x).bulletin .task))
      (u.runTask c (task c x)) v ∧ exec (taskArrival c p x) s = .next v.finish := by
  obtain ⟨hp, hh, h0, ht, hcopy⟩ := h
  obtain ⟨v, hc, he⟩ := State.heardRun_path (n := 7 + (TaskRx.rx c x).body.length) hh.1
    (.inl (State.isOwn_of_heard hh .task))
  have hm := State.hooked_met p ((TaskRx.rx c x).bulletin .task) s
  have hmask := State.hooked_masks p ((TaskRx.rx c x).bulletin .task) s
  have hex : exec (taskArrival c p x) s = .next v.finish := by
    rw [exec_arrives (arrives_task c p x), State.receive, Rx.accept_of_acceptable hh.2.1, he]
    rfl
  generalize s.hooked p ((TaskRx.rx c x).bulletin .task) = u at hc hm hmask
  rw [State.dispatch_deliver (by rw [hm.station_eq]; exact hh.2.2) (by rw [hm.station_eq]; exact .inr ht),
    State.deliver_task (hm.arrived.phase.trans hp) h0] at hc
  have hcopy' : u.isCopy (task c x) = false := by
    rw [← hcopy]
    unfold State.isCopy
    rw [hm.arrived.recent]
  have hrun : u.takeTask (task c x) = (u.noteTask (task c x)).runTask c (task c x) := by
    unfold State.takeTask
    rw [hcopy', if_neg Bool.false_ne_true]
    dsimp only
    rw [TaskCode.ofCode_code]
  rw [hrun] at hc
  refine ⟨u.noteTask (task c x), v, ⟨?_, hm.arrived.queue, hm.arrived.roster, hm.arrived.longTask, ?_, hm.rules,
    fun hb => (hm.still (.inl hb)).2, hmask, hm.arrived.nextAge⟩, hc, hex⟩
  · have heq := hm.arrived.eq
    rw [heq]
    rfl
  · show (if u.mgmt.recent.length < 8 then u.mgmt.recent else u.mgmt.recent.drop 1) ++
      [{ origin := x.origin.toNat, tag := x.tag.toNat, code := c.code.toNat, expiry := u.after (sec 1) }] = _
    rw [hm.arrived.recent, State.after, hm.arrived.now]
    rfl

theorem exec_task_after (h : tasked c p x s) : ∃ u t, Taken c p x s u ∧ After (u.runTask c (task c x)) t ∧
    exec (taskArrival c p x) s = .next t := by
  obtain ⟨u, v, hu, hc, he⟩ := exec_task h
  exact ⟨u, v.finish, hu, hc.captured.after, he⟩

/-! ## Answers (R180) -/

theorem byte_toNat (b : Byte) : byte b.toNat = b := by simp [byte]

/-- A task's answer waits in the queue where there is room. -/
theorem State.answerTask_answered {ret : ReturnCode} {data : List Byte} (hp : w.phase = .active)
    (hq : w.biu.queue.length < 16) (hc : w.cfg = s.cfg) :
    answered false c x ret data s (w.answerTask (task c x) ret data) := by
  rw [State.answerTask, State.reply_queued (State.takesOffers_of_active hp) hq]
  refine ⟨_, List.mem_append_right _ (List.mem_singleton_self _), rfl, ?_⟩
  simp only [newEntry, State.station_congr hc, State.image_congr hc, byte_toNat]
  rfl

/-- An answer changes the queue and the counters alone. -/
theorem State.answerTask_frame (k : TaskIn) (ret : ReturnCode) (data : List Byte) (s : State) :
    ∃ queue age counters, s.answerTask k ret data = { s with
      biu := { s.biu with queue := queue, nextAge := age }, mgmt := { s.mgmt with counters := counters } } :=
  State.reply_normal k.origin k.tag k.code ret data s

theorem State.answerTask_records (k : TaskIn) (ret : ReturnCode) (data : List Byte) (s : State) :
    stationKept s (s.answerTask k ret data) ∧ recordsKept s (s.answerTask k ret data) := by
  obtain ⟨queue, age, counters, h⟩ := State.answerTask_frame k ret data s
  rw [h]
  exact ⟨⟨rfl, rfl, rfl, rfl, rfl, rfl⟩, rfl, rfl, rfl, rfl, .of_eq rfl, .of_eq rfl⟩

/-- A task that changes something and is answered. -/
theorem exec_changed {f : State → State} {ret : ReturnCode} {data : State → List Byte} (h : tasked c p x s)
    (hr : ∀ u, Taken c p x s u → u.runTask c (task c x) = (f u).answerTask (task c x) ret (data u))
    (hf : ∀ u, Taken c p x s u → stationKept u (f u)) :
    ∃ u t : State, Taken c p x s u ∧ exec (taskArrival c p x) s = .next t ∧ stationKept s t ∧ recordsKept (f u) t ∧
      ((f u).biu.queue.length < 16 → answered false c x ret (data u) s t) := by
  obtain ⟨u, t, hu, ha, he⟩ := exec_task_after h
  rw [hr u hu] at ha
  have hk := State.answerTask_records (task c x) ret (data u) (f u)
  have hs := hu.stationKept.trans (hf u hu)
  refine ⟨u, t, hu, he, (hs.trans hk.1).trans ha.station, hk.2.trans ha.records, fun hq => ?_⟩
  exact ha.answered (State.answerTask_answered ((stationKept.phase hs).trans h.1) hq (stationKept.cfg hs))

/-- A task that is answered, and does nothing else. -/
theorem exec_answered {ret : ReturnCode} {data : State → List Byte} (h : tasked c p x s)
    (hr : ∀ u, Taken c p x s u → u.runTask c (task c x) = u.answerTask (task c x) ret (data u)) :
    ∃ u t : State, Taken c p x s u ∧ BusKept u t ∧ exec (taskArrival c p x) s = .next t ∧ stationKept s t ∧
      recordsKept s t ∧ (s.biu.queue.length < 16 → answered false c x ret (data u) s t) := by
  obtain ⟨u, t, hu, ha, he⟩ := exec_task_after h
  rw [hr u hu] at ha
  have hk := State.answerTask_records (task c x) ret (data u) u
  refine ⟨u, t, hu, (State.answerTask_bus _ _ _ u).trans ha.bus, he, (hu.stationKept.trans hk.1).trans ha.station,
    (hu.records.trans hk.2).trans ha.records, fun hq => ?_⟩
  refine ha.answered (State.answerTask_answered ?_ ?_ ?_)
  · rw [hu.eq]
    exact h.1
  · rw [hu.queue]
    exact hq
  · rw [hu.eq]

end Sys2Proof.Machine
end
section
/-! SUPPORT. The tasks that read (R182, R183). -/

namespace Sys2Proof.Machine

open Says

variable {c : TaskCode} {p : BusPort} {x : TaskRx} {s t u v w : State}

theorem State.taskLink_some {k : TaskIn} {l : Fin 8} {y : LinkRec} (h : fin8 8 k.params 0 = some l)
    (hl : s.link l = some y) : s.taskLink k = .inr (l, y) := by
  simp only [State.taskLink, h, hl]

theorem State.taskLink_none {k : TaskIn} {l : Fin 8} (h : fin8 8 k.params 0 = some l)
    (hl : s.link l = none) : s.taskLink k = .inl .refused := by
  simp only [State.taskLink, h, hl]

theorem State.stationData_congr (hc : t.cfg = s.cfg) (hp : t.phase = s.phase) (hr : t.biu.roster = s.biu.roster)
    (hq : t.biu.queue = s.biu.queue) (ha : t.biu.fwdA = s.biu.fwdA) (hb : t.biu.fwdB = s.biu.fwdB)
    (hn : t.plan = s.plan) (hl : t.mgmt.longTask = s.mgmt.longTask) : t.stationData = s.stationData := by
  simp only [State.stationData, State.station_congr hc, State.image_congr hc, hp, hr, hq, ha, hb, hn, hl, State.owns,
    State.peers]


theorem Taken.fields (h : Taken c p x s u) : u.phase = s.phase ∧ u.cfg = s.cfg ∧ u.plan = s.plan ∧ u.lsup = s.lsup ∧
    u.tally = s.tally ∧ u.tbk = s.tbk ∧ u.rport = s.rport := by
  rw [h.eq]
  exact ⟨rfl, rfl, rfl, rfl, rfl, rfl, rfl⟩

theorem State.clearHits_hits (k : Fin 32) (s : State) : s.clearHits.tally.hits[k] = s.tally.hit s.image.rules[k] :=
  Vector.getElem_ofFn _

/-- The change of READ_TALLY (R152). -/
def State.readHits (clear : Bool) (s : State) : State := if clear then s.clearHits else s

theorem State.readHits_frame (clear : Bool) (s : State) :
    s.readHits clear = { s with tally := { s.tally with hits := (s.readHits clear).tally.hits } } := by
  cases clear <;> rfl

theorem readTally_answers {clear : Bool} (h : tasked .readTally p x s) (hc : flagAt x.params 0 = some clear) :
    ∃ t : State, exec (.readTally p x) s = .next t ∧ stationKept s t ∧ t.plan = s.plan ∧ t.lsup = s.lsup ∧
      talkKept s t ∧ radioKept s t ∧ t.tally.layers = s.tally.layers ∧ t.tally.onAir = s.tally.onAir ∧
      (clear = false → t.tally = s.tally) ∧
      (clear = true → ∀ k : Fin 32, t.tally.hits[k] = s.tally.hit s.image.rules[k]) ∧
      (s.biu.queue.length < 16 → answered false .readTally x .done s.tallyData s t) := by
  obtain ⟨u, t, hu, he, h1, h2, h3⟩ := exec_changed (f := State.readHits clear) (ret := .done)
    (data := fun _ => s.tallyData) h
    (fun u hu => by
      have hd : u.tallyData = s.tallyData := by rw [hu.eq]; rfl
      simp only [State.runTask, State.readTally, hc, hd, State.readHits])
    (fun u _ => by rw [State.readHits_frame]; exact ⟨rfl, rfl, rfl, rfl, rfl, rfl⟩)
  obtain ⟨f1, f2, f3, f4, f5, f6, f7⟩ := hu.fields
  have hfr := u.readHits_frame clear
  obtain ⟨-, k2, k3, k4, k5, k6⟩ := h2
  refine ⟨t, he, h1, k2.trans (by rw [hfr]; exact f3), k3.trans (by rw [hfr]; exact f4),
    (talkKept.of_eq (by rw [hfr]; exact f6)).trans k5, (radioKept.of_eq (by rw [hfr]; exact f7)).trans k6, ?_, ?_,
    fun hcl => ?_, fun hcl k => ?_, fun hq => h3 (by rw [hfr]; exact hu.queue ▸ hq)⟩
  · rw [k4, hfr, f5]
  · rw [k4, hfr, f5]
  · rw [k4, hcl]
    exact f5
  · rw [k4, hcl]
    refine (State.clearHits_hits k u).trans ?_
    rw [f5, State.image_congr f2]

/-- Settles O38: the reading tasks answer with the data of the records as they stand. -/
theorem readingTasksAnswerWithData : Obligations.ReadingTasksAnswerWithData := by
  refine ⟨fun p x s h => ?_, fun p x l y s h hl hy => ?_, fun p x start count s h hs hc => ?_, fun p x clear s h hc => ?_,
    fun p x n start count s h hn hs hc => ?_⟩
  · obtain ⟨u, t, hu, hb, he, h1, h2, h3⟩ := exec_answered (ret := .done) (data := State.stationData) h fun _ _ => rfl
    obtain ⟨f1, f2, f3, -⟩ := hu.fields
    refine ⟨t, he, h1, h2, fun hq => ?_⟩
    have hd : u.stationData =
        State.stationData { s with biu := { s.biu with fwdA := t.biu.fwdA, fwdB := t.biu.fwdB } } :=
      State.stationData_congr f2 f1 hu.roster hu.queue hb.fwdA.symm hb.fwdB.symm f3 hu.longTask
    rw [← hd]
    exact h3 hq
  · obtain ⟨u, t, hu, -, he, h1, h2, h3⟩ := exec_answered (ret := .done) (data := fun _ => s.linkData l y) h
      fun u hu => by
        have hy' : u.link l = some y := by rw [hu.eq]; exact hy
        have hd : u.linkData l y = s.linkData l y := by rw [hu.eq]; rfl
        simp only [State.runTask, State.readLink, State.taskLink_some (k := task .readLink x) hl hy', hd]
    exact ⟨t, he, h1, h2, h3⟩
  · obtain ⟨u, t, hu, -, he, h1, h2, h3⟩ := exec_answered (ret := .done)
      (data := fun _ => ((List.range count).filter fun k => decide (start + k ≤ 111)).flatMap fun k =>
        s.slotData (start + k)) h fun u hu => by
        have hd : u.slotData = s.slotData := by rw [hu.eq]; rfl
        simp only [State.runTask, State.readPlan, hs, hc, hd]
    exact ⟨t, he, h1, h2, h3⟩
  · exact readTally_answers h hc
  · obtain ⟨u, t, hu, -, he, h1, h2, h3⟩ := exec_answered (ret := .done)
      (data := fun _ => [byte s.image.caps[n], flagByte (s.line n).overfull, byte (s.line n).roster.length,
          byte (s.line n).talkers.length] ++
          (((s.line n).roster.drop start).take count).flatMap (memberData (s.line n))) h fun u hu => by
        have hd : u.line n = s.line n := by rw [hu.eq]; rfl
        have hi : u.image = s.image := State.image_congr hu.fields.2.1
        simp only [State.runTask, State.readLine, hn, hs, hc, hd, hi]
    exact ⟨t, he, h1, h2, h3⟩

end Sys2Proof.Machine
end

section
/-! SUPPORT. Which tasks MGMT takes (R178, R179), and the tasks that set a link's class and sample interval (R184). -/

namespace Sys2Proof.Machine

open Says

variable {c : TaskCode} {p : BusPort} {x : TaskRx} {s t u v w : State}

/-! ## Tasks that are not taken -/

/-- A TASK that its block hands back as it came. -/
theorem heard_untaken {e : Instr} {rx : Rx} (ha : arrives e .task p rx) (hh : heard p rx s)
    (hno : ∀ u, Arrived s u → (u.deliver .task (rx.bulletin .task)).1 = u) :
    ∃ t : State, exec e s = .next t ∧ t.now = s.now ∧ untaken s t := by
  obtain ⟨u, v, hm, hc, he⟩ := exec_heard ha hh
  have hown := State.isOwn_of_heard hh .task
  have hd : (u.dispatch (rx.bulletin .task)).1 = u := by
    unfold State.dispatch
    rw [if_neg (by rw [hm.isOwn_eq, hown]; exact Bool.false_ne_true)]
    split
    · rfl
    · rw [show Kind.ofCode (rx.bulletin .task).kind = some .task from Kind.ofCode_code .task]
      exact hno u hm.arrived
  have h := hm.passedBy (.inl hd) hc
  exact ⟨_, he, h.now, h.station, h.records, h.recent, h.longTask, h.queue⟩

/-- Outside ACTIVE, or for every station, a TASK is not taken. -/
theorem State.deliver_task_idle {rx : Rx} (h : s.phase ≠ .active ∨ rx.target = 0) :
    (s.deliver .task (rx.bulletin .task)).1 = s := by
  have ht : (rx.bulletin .task).target = rx.target := rfl
  simp only [State.deliver]
  rw [ht]
  split
  · rfl
  · rename_i hp
    rw [if_pos (h.resolve_left hp)]

/-- A TASK of fewer than two bytes is not taken. -/
theorem State.deliver_task_short {rx : Rx} (h : rx.body.length < 2) : (s.deliver .task (rx.bulletin .task)).1 = s := by
  have hb : (rx.bulletin .task).body = rx.body := rfl
  simp only [State.deliver]
  rw [hb]
  split
  · rfl
  · split
    · rfl
    · split
      · rename_i he
        rw [he] at h
        simp at h
      · rfl

theorem State.takeTask_copy {k : TaskIn} (h : s.isCopy k = true) : s.takeTask k = s := by
  rw [State.takeTask, if_pos h]

/-! ## Tasks and the recent ones -/

theorem State.enterLeaving_recent (s : State) :
    s.enterLeaving.mgmt.recent = s.mgmt.recent ∧ s.enterLeaving.now = s.now := by
  have hm := s.leaving_moves
  have hr : ((((s.leavingStart.muteTuned).disableLinks).yieldAll).leaveTbk).stopSources.mgmt.recent = s.mgmt.recent :=
    hm.beside.recent
  have hn : ((((s.leavingStart.muteTuned).disableLinks).yieldAll).leaveTbk).stopSources.now = s.now := hm.station.2
  rw [State.enterLeaving_eq]
  generalize ((((s.leavingStart.muteTuned).disableLinks).yieldAll).leaveTbk).stopSources = v at hr hn ⊢
  exact ⟨hr, hn⟩

/-- No task touches the recent ones, or the clock. -/
theorem State.runTask_recent (c : TaskCode) (k : TaskIn) (s : State) :
    (s.runTask c k).mgmt.recent = s.mgmt.recent ∧ (s.runTask c k).now = s.now := by
  have answered (r : ReturnCode) (d : List Byte) (v : State) (hr : v.mgmt.recent = s.mgmt.recent) (hn : v.now = s.now) :
      (v.answerTask k r d).mgmt.recent = s.mgmt.recent ∧ (v.answerTask k r d).now = s.now := by
    obtain ⟨queue, age, counters, h⟩ := State.answerTask_frame k r d v
    rw [h]
    exact ⟨hr, hn⟩
  by_cases hc : plainTask c = true
  · have hm := State.runTask_moves (k := k) hc (Moves.refl (s := s))
    exact ⟨hm.beside.recent, hm.station.2⟩
  · cases c
    case restart =>
      obtain ⟨h1, h2⟩ := State.enterLeaving_recent (s.reply true k.origin k.tag k.code .done [])
      have hm := State.reply_moves (x := true) (o := k.origin) (g := k.tag) (k := k.code) (r := .done) (d := [])
        (Moves.refl (s := s))
      exact ⟨h1.trans hm.beside.recent, h2.trans hm.station.2⟩
    case setCounter =>
      simp only [State.runTask, State.setCounter]
      split
      all_goals exact answered _ _ _ rfl rfl
    case armCapture =>
      simp only [State.runTask, State.armCapture]
      repeat' split
      all_goals exact answered _ _ _ rfl rfl
    case readCapture =>
      simp only [State.runTask, State.readCapture]
      repeat' split
      all_goals exact answered _ _ _ rfl rfl
    all_goals exact absurd rfl hc

/-- A bulletin that names no task is answered so. -/
theorem State.deliver_unknown {rx : Rx} {tag code : Byte} {params : List Byte} (hp : u.phase = .active) (h0 : rx.target ≠ 0)
    (hb : rx.body = tag :: code :: params) (hc : TaskCode.ofCode code = none)
    (hcopy : u.isCopy { origin := rx.origin.toNat, tag := tag.toNat, code, params } = false) :
    (u.deliver .task (rx.bulletin .task)).1 =
      (u.noteTask { origin := rx.origin.toNat, tag := tag.toNat, code, params }).rejectTask
        { origin := rx.origin.toNat, tag := tag.toNat, code, params } .unknownTask := by
  have hb' : (rx.bulletin .task).body = tag :: code :: params := hb
  have ht : (rx.bulletin .task).target ≠ 0 := h0
  have ho : (rx.bulletin .task).origin = rx.origin := rfl
  simp only [State.deliver, hp, hb', ho]
  rw [if_neg (by simp), if_neg ht]
  dsimp only
  rw [State.takeTask, hcopy, if_neg Bool.false_ne_true]
  dsimp only
  rw [hc]

/-- Settles O37: MGMT takes a task once, in ACTIVE, and answers one it does not know. -/
theorem tasksAreTakenOnce : Obligations.TasksAreTakenOnce := by
  refine ⟨fun c p x s h => ?_, fun c p x s hp hh h0 ht hcopy => ?_, fun c p x s hi hh => ?_,
    fun p rx tag code params s hp hh h0 ht hb hc hcopy => ?_, fun p rx s hh hi => ?_⟩
  · obtain ⟨u, t, hu, ha, he⟩ := exec_task_after h
    obtain ⟨h1, h2⟩ := u.runTask_recent c (task c x)
    exact ⟨t, he, ha.now.trans (h2.trans hu.now), ha.recent.trans (h1.trans hu.recent)⟩
  · refine heard_untaken (arrives_task c p x) hh fun u hu => ?_
    rw [State.deliver_task (hu.phase.trans hp) h0]
    refine State.takeTask_copy ?_
    rw [← hcopy]
    unfold State.isCopy
    rw [hu.recent]
  · refine heard_untaken (arrives_task c p x) hh fun u hu => State.deliver_task_idle ?_
    rw [hu.phase]
    exact hi
  · obtain ⟨u, v, hm, hcap, he⟩ := exec_received (arrives_arrival .task p rx) ⟨hh, .inr ht⟩
    have hcopy' : u.isCopy { origin := rx.origin.toNat, tag := tag.toNat, code, params } = false := by
      rw [← hcopy]
      unfold State.isCopy
      rw [hm.arrived.recent]
    rw [State.deliver_unknown (hm.arrived.phase.trans hp) h0 hb hc hcopy'] at hcap
    obtain ⟨w, hw⟩ : ∃ w, w = u.noteTask { origin := rx.origin.toNat, tag := tag.toNat, code, params } := ⟨_, rfl⟩
    rw [← hw, State.rejectTask] at hcap
    have ha := hcap.captured.after
    obtain ⟨k1, k2⟩ := State.answerTask_records { origin := rx.origin.toNat, tag := tag.toNat, code, params } .unknownTask
      [] w
    have hst : stationKept s w := by
      rw [hw]
      exact hm.arrived.stationKept
    have hrec : recordsKept s w := by
      rw [hw]
      exact hm.arrived.recordsKept
    obtain ⟨queue, age, counters, hf⟩ := State.answerTask_frame
      { origin := rx.origin.toNat, tag := tag.toNat, code, params } .unknownTask [] w
    refine ⟨_, he, (hst.trans k1).trans ha.station, ?_, (hrec.trans k2).trans ha.records, ?_, fun hq => ?_⟩
    · rw [ha.now, hf, hw]
      exact hm.arrived.now
    · rw [ha.longTask, hf, hw]
      exact hm.arrived.longTask
    · have hrq := State.reply_queued (v := false) (origin := rx.origin.toNat) (tag := tag.toNat) (code := code)
        (ret := .unknownTask) (data := []) (s := w) (State.takesOffers_of_active ((stationKept.phase hst).trans hp))
        (by rw [hw]; exact hm.arrived.queue ▸ hq)
      refine ⟨_, ha.mem (by rw [State.answerTask, hrq]; exact List.mem_append_right _ (List.mem_singleton_self _)), rfl, ?_⟩
      simp only [newEntry, State.station_congr (stationKept.cfg hst), State.image_congr (stationKept.cfg hst), byte_toNat]
      rfl
  · refine heard_untaken (arrives_arrival .task p rx) hh fun u hu => ?_
    rcases hi with h | h
    · exact State.deliver_task_short h
    · refine State.deliver_task_idle ?_
      rw [hu.phase]
      exact h

end Sys2Proof.Machine
end

section
/-! SUPPORT. The tasks of the counters and the capture rules (R187 to R191). -/

namespace Sys2Proof.Machine

open Says

variable {c : TaskCode} {p : BusPort} {x : TaskRx} {s t u v w : State}

/-! ## Answers and MGMT -/

/-- An answer that the queue has room for leaves MGMT alone. -/
theorem State.answerTask_mgmt {ret : ReturnCode} {data : List Byte} (hp : w.phase = .active)
    (hq : w.biu.queue.length < 16) : (w.answerTask (task c x) ret data).mgmt = w.mgmt := by
  rw [State.answerTask, State.reply_queued (State.takesOffers_of_active hp) hq]

theorem State.answerTask_rules (k : TaskIn) (ret : ReturnCode) (data : List Byte) (s : State) :
    (s.answerTask k ret data).mgmt.rules = s.mgmt.rules := by
  obtain ⟨queue, age, counters, h⟩ := State.answerTask_frame k ret data s
  rw [h]

/-- A task that changes MGMT's counters or rules and is answered: the captures of its bulletin follow. -/
theorem exec_ruled {f : State → State} {data : State → List Byte} (h : tasked c p x s)
    (hr : ∀ u, Taken c p x s u → u.runTask c (task c x) = (f u).answerTask (task c x) .done (data u))
    (hf : ∀ u, f u = { u with mgmt := (f u).mgmt }) :
    ∃ u v : State, Taken c p x s u ∧ exec (taskArrival c p x) s = .next v.finish ∧
      CapturesOf ((TaskRx.rx c x).bulletin .task) .accepted (s.onceHits ((TaskRx.rx c x).bulletin .task))
        ((f u).answerTask (task c x) .done (data u)) v ∧ stationKept s v.finish ∧ recordsKept s v.finish ∧
      (s.biu.queue.length < 16 → answered false c x .done (data u) s v.finish) ∧
      (s.biu.queue.length < 16 → noneArmed s → v.finish.mgmt.counters = (f u).mgmt.counters) := by
  obtain ⟨u, v, hu, hc, he⟩ := exec_task h
  rw [hr u hu] at hc
  have hk := State.answerTask_records (task c x) .done (data u) (f u)
  have hfs : stationKept u (f u) ∧ recordsKept u (f u) := by
    rw [hf u]
    exact ⟨⟨rfl, rfl, rfl, rfl, rfl, rfl⟩, rfl, rfl, rfl, rfl, .of_eq rfl, .of_eq rfl⟩
  have ha := hc.captured.after
  have hs := hu.stationKept.trans hfs.1
  have hq' : (f u).biu.queue = s.biu.queue := by rw [hf u]; exact hu.queue
  have hp : (f u).phase = .active := (stationKept.phase hs).trans h.1
  refine ⟨u, v, hu, he, hc, (hs.trans hk.1).trans ha.station, ((hu.records.trans hfs.2).trans hk.2).trans ha.records,
    fun hq => ?_, fun hq hn => ?_⟩
  · exact ha.answered (State.answerTask_answered hp (hq' ▸ hq) (stationKept.cfg hs))
  · rw [State.finish_mgmt, hc.none (State.onceHits_of_noneArmed hn _), State.answerTask_mgmt hp (hq' ▸ hq)]

/-! ## Counters -/

/-- A counter as SET_COUNTER leaves it (R191). -/
def Counter.setBy (options : Byte) (mask mode : Nat) (c : Counter) : Counter :=
  let c := if options.getLsbD 0 then { c with mask := BitVec.ofNat 16 mask, bytes := decide (mode = 1) } else c
  if options.getLsbD 1 then { c with value := 0 } else c

theorem Counter.setBy_mask (options : Byte) (mask mode : Nat) (c : Counter) :
    (c.setBy options mask mode).mask = (if options.getLsbD 0 then BitVec.ofNat 16 mask else c.mask) ∧
    (c.setBy options mask mode).bytes = (if options.getLsbD 0 then decide (mode = 1) else c.bytes) ∧
    (c.setBy options mask mode).value = if options.getLsbD 1 then 0 else c.value := by
  unfold Counter.setBy
  cases options.getLsbD 0 <;> cases options.getLsbD 1 <;> exact ⟨rfl, rfl, rfl⟩

def State.setCounterAt (k : Fin 8) (c : Counter) (s : State) : State :=
  { s with mgmt := { s.mgmt with counters := s.mgmt.counters.set k c } }

/-- The data of SET_COUNTER's answer (R191). -/
def counterData (k : Fin 8) (c : Counter) : List Byte :=
  byte k :: (bytes16 c.mask.toNat ++ [flagByte c.bytes] ++ bytes32 c.value.toNat)

theorem State.runTask_setCounter {k : Fin 8} {options : Byte} {mask mode : Nat} (hk : fin8 8 x.params 0 = some k)
    (ho : x.params[1]? = some options) (hm : u16 x.params 2 = some mask) (hd : ranged 0 1 x.params 4 = some mode)
    (u : State) : u.runTask .setCounter (task .setCounter x) =
      (u.setCounterAt k (u.mgmt.counters[k].setBy options mask mode)).answerTask (task .setCounter x) .done
        (counterData k u.mgmt.counters[k]) := by
  simp only [State.runTask, State.setCounter, hk, ho, hm, hd]
  rfl

theorem readCounters_answers {first count : Nat} (h : tasked .readCounters p x s)
    (hf : ranged 0 7 x.params 0 = some first) (hc : ranged 1 8 x.params 1 = some count) (hle : first + count ≤ 8) :
    ∃ t : State, exec (.readCounters p x) s = .next t ∧ stationKept s t ∧ recordsKept s t ∧
      (s.biu.queue.length < 16 → noneArmed s →
        answered false .readCounters x .done
          (((t.mgmt.counters.toList.drop first).take count).flatMap fun c => bytes32 c.value.toNat) s t ∧
        (s.isBridge = false → t.mgmt.counters = s.mgmt.counters.map (taskCounted .readCounters x))) := by
  obtain ⟨u, v, hu, he, -, h1, h2, h3, h4⟩ := exec_ruled (f := id)
    (data := fun u => ((u.mgmt.counters.toList.drop first).take count).flatMap fun c => bytes32 c.value.toNat) h
    (fun u _ => by
      simp only [State.runTask, State.readCounters, hf, hc]
      rw [if_pos hle]
      rfl)
    (fun _ => rfl)
  refine ⟨_, he, h1, h2, fun hq hn => ⟨?_, fun hb => (h4 hq hn).trans (hu.counters hb)⟩⟩
  rw [h4 hq hn]
  exact h3 hq

theorem setCounter_answers {k : Fin 8} {options : Byte} {mask mode : Nat} (h : tasked .setCounter p x s)
    (hk : fin8 8 x.params 0 = some k) (ho : x.params[1]? = some options) (hm : u16 x.params 2 = some mask)
    (hd : ranged 0 1 x.params 4 = some mode) (hq : s.biu.queue.length < 16) (hn : noneArmed s) :
    ∃ t : State, exec (.setCounter p x) s = .next t ∧ stationKept s t ∧ recordsKept s t ∧
      (options.getLsbD 0 = true → t.mgmt.counters[k].mask = BitVec.ofNat 16 mask ∧
        t.mgmt.counters[k].bytes = decide (mode = 1)) ∧
      (options.getLsbD 0 = false → t.mgmt.counters[k].mask = s.mgmt.counters[k].mask ∧
        t.mgmt.counters[k].bytes = s.mgmt.counters[k].bytes) ∧
      (options.getLsbD 1 = true → t.mgmt.counters[k].value = 0) ∧
      (∀ j : Fin 8, j ≠ k → t.mgmt.counters[j].mask = s.mgmt.counters[j].mask ∧
        t.mgmt.counters[j].bytes = s.mgmt.counters[j].bytes) ∧
      (s.isBridge = false → ∀ j : Fin 8, j ≠ k →
        t.mgmt.counters[j] = taskCounted .setCounter x s.mgmt.counters[j]) ∧
      ∃ value : BitVec 32, answered false .setCounter x .done
        (byte k :: (bytes16 s.mgmt.counters[k].mask.toNat ++ [flagByte s.mgmt.counters[k].bytes] ++
          bytes32 value.toNat)) s t ∧
        (s.isBridge = false → value = (taskCounted .setCounter x s.mgmt.counters[k]).value) ∧
        (options.getLsbD 1 = false → t.mgmt.counters[k].value = value) := by
  obtain ⟨u, v, hu, he, -, h1, h2, h3, h4⟩ := exec_ruled
    (f := fun u => u.setCounterAt k (u.mgmt.counters[k].setBy options mask mode))
    (data := fun u => counterData k u.mgmt.counters[k]) h
    (fun u _ => State.runTask_setCounter hk ho hm hd u) (fun _ => rfl)
  have hck : v.finish.mgmt.counters[k] = u.mgmt.counters[k].setBy options mask mode := by
    rw [h4 hq hn]
    exact getFin_set_self _ _ _
  have hcj (j : Fin 8) (hj : j ≠ k) : v.finish.mgmt.counters[j] = u.mgmt.counters[j] := by
    rw [h4 hq hn]
    exact getFin_set_ne _ hj _
  obtain ⟨m1, m2, m3⟩ := Counter.setBy_mask options mask mode u.mgmt.counters[k]
  obtain ⟨k1, k2⟩ := hu.masks k
  have hcount (hb : s.isBridge = false) (j : Fin 8) :
      u.mgmt.counters[j] = taskCounted .setCounter x s.mgmt.counters[j] := by
    rw [hu.counters hb]
    exact Vector.getElem_map _ _
  refine ⟨_, he, h1, h2, fun h0 => ?_, fun h0 => ?_, fun h0 => ?_, fun j hj => ?_, fun hb j hj => ?_,
    u.mgmt.counters[k].value, ?_, fun hb => ?_, fun h0 => ?_⟩
  · rw [hck, m1, m2, if_pos h0, if_pos h0]
    exact ⟨rfl, rfl⟩
  · rw [hck, m1, m2, h0]
    exact ⟨k1, k2⟩
  · rw [hck, m3, if_pos h0]
  · rw [hcj j hj]
    exact hu.masks j
  · exact (hcj j hj).trans (hcount hb j)
  · have hdata := h3 hq
    unfold counterData at hdata
    rw [k1, k2] at hdata
    exact hdata
  · rw [hcount hb]
  · rw [hck, m3, h0]
    rfl

/-! ## Capture rules -/

/-- The rule of a slot once a task's bulletin has met the hook. -/
theorem Taken.rule (h : Taken c p x s u) (k : Fin 4) : u.mgmt.rules[k] =
    if s.mgmt.rules[k].hitBy ((TaskRx.rx c x).bulletin .task) then s.mgmt.rules[k].hit else s.mgmt.rules[k] := by
  rw [h.rules]
  exact Vector.getElem_map _ _

theorem readKeyParams_new {l : List Byte} {n : Nat} {mode : CaptureMode} {r : CaptureRule}
    (h : readKeyParams l n mode = some r) :
    r.mode = mode ∧ r.requester = some n ∧ r.hits = 0 ∧ r.hitFlag = false ∧ r.held = none := by
  simp only [readKeyParams, Option.bind_eq_bind, Option.bind_eq_some_iff, Option.pure_def, Option.some.injEq] at h
  obtain ⟨_, -, _, -, _, -, _, -, _, -, _, -, rfl⟩ := h
  exact ⟨rfl, rfl, rfl, rfl, rfl⟩

/-- What the captures of a bulletin make of a rule, by whether it makes one. -/
theorem CapturesOf.rule {b : Bulletin} {d : Disposition} (h : CapturesOf b d (s.onceHits b) w v) (k : Fin 4) :
    ∃ g, v.mgmt.rules[k] = { w.mgmt.rules[k] with held := g } ∧
      (s.mgmt.rules[k].hitBy b = true → s.mgmt.rules[k].mode = .once → g.isSome = true) ∧
      (s.mgmt.rules[k].hitBy b = false ∨ s.mgmt.rules[k].mode ≠ .once → g = w.mgmt.rules[k].held) := by
  by_cases hk : k ∈ s.onceHits b
  · obtain ⟨x, -, -, hx⟩ := h.hit k hk
    obtain ⟨h1, h2⟩ := State.mem_onceHits.1 hk
    exact ⟨some x, hx, fun _ _ => rfl, fun hn =>
      hn.elim (fun e => absurd (h1.symm.trans e) (by simp)) fun e => absurd h2 e⟩
  · refine ⟨w.mgmt.rules[k].held, h.rest k hk, fun h1 h2 => absurd (State.mem_onceHits.2 ⟨h1, h2⟩) hk, fun _ => rfl⟩

theorem armCapture_answers {k : Fin 4} {mode : CaptureMode} {r : CaptureRule} (h : tasked .armCapture p x s)
    (hk : fin8 4 x.params 0 = some k) (hm : (u8 x.params 9).bind CaptureMode.ofCode = some mode)
    (hr : readKeyParams x.params x.origin.toNat mode = some r) :
    ∃ t : State, exec (.armCapture p x) s = .next t ∧ stationKept s t ∧ recordsKept s t ∧
      t.mgmt.rules[k].mode = mode ∧
      (mode ≠ .off → t.mgmt.rules[k].kindValue = r.kindValue ∧ t.mgmt.rules[k].kindMask = r.kindMask ∧
        t.mgmt.rules[k].originValue = r.originValue ∧ t.mgmt.rules[k].originMask = r.originMask ∧
        t.mgmt.rules[k].subjectValue = r.subjectValue ∧ t.mgmt.rules[k].subjectMask = r.subjectMask ∧
        t.mgmt.rules[k].requester = some x.origin.toNat ∧ t.mgmt.rules[k].hits = 0 ∧ t.mgmt.rules[k].hitFlag = false ∧
        (makesCapture .armCapture x s k = false → t.mgmt.rules[k].held = none) ∧
        (s.biu.queue.length < 16 → answered false .armCapture x .done r.data s t)) ∧
      (mode = .off →
        (s.mgmt.rules[k].hitBy ((TaskRx.rx .armCapture x).bulletin .task) = false →
          t.mgmt.rules[k] = { s.mgmt.rules[k] with mode := .off } ∧
          (s.biu.queue.length < 16 →
            answered false .armCapture x .done (CaptureRule.data { s.mgmt.rules[k] with mode := .off }) s t)) ∧
        (s.mgmt.rules[k].hitBy ((TaskRx.rx .armCapture x).bulletin .task) = true → ∃ h : Option HeldCapture,
          t.mgmt.rules[k] = { s.mgmt.rules[k] with
            mode := .off, hits := s.mgmt.rules[k].hits + 1, hitFlag := true, held := h } ∧
          (s.mgmt.rules[k].mode ≠ .once → h = s.mgmt.rules[k].held) ∧
          (s.mgmt.rules[k].mode = .once → h.isSome = true))) ∧
      (∀ j : Fin 4, j ≠ k → s.mgmt.rules[j].hitBy ((TaskRx.rx .armCapture x).bulletin .task) = false →
        t.mgmt.rules[j] = s.mgmt.rules[j]) := by
  obtain ⟨u, v, hu, he, hc, h1, h2, h3, -⟩ := exec_ruled
    (f := fun u => u.setRule k (if mode = .off then { u.mgmt.rules[k] with mode := .off } else r))
    (data := fun u => CaptureRule.data (if mode = .off then { u.mgmt.rules[k] with mode := .off } else r)) h
    (fun u _ => by
      have hr' : readKeyParams (task .armCapture x).params (task .armCapture x).origin mode = some r := hr
      simp only [State.runTask, State.armCapture, hk, hm, hr'])
    (fun _ => rfl)
  obtain ⟨r1, r2, r3, r4, r5⟩ := readKeyParams_new hr
  have hru := hu.rule k
  obtain ⟨g, hg, hg1, hg2⟩ := hc.rule k
  rw [State.answerTask_rules, show (u.setRule k (if mode = .off then { u.mgmt.rules[k] with mode := .off }
    else r)).mgmt.rules[k] = _ from getFin_set_self _ _ _] at hg hg2
  rw [← State.finish_mgmt] at hg
  refine ⟨_, he, h1, h2, ?_, fun ho => ?_, fun ho => ⟨fun hb => ?_, fun hb => ⟨g, ?_, fun h1 => ?_, fun h1 => hg1 hb h1⟩⟩,
    fun j hj hb => ?_⟩
  · rw [hg]
    split
    · rename_i h
      exact h.symm
    · exact r1
  · rw [if_neg ho] at hg hg2
    rw [hg]
    refine ⟨rfl, rfl, rfl, rfl, rfl, rfl, r2, r3, r4, fun hmk => ?_, fun hq => ?_⟩
    · refine (hg2 ?_).trans r5
      rw [makesCapture, Bool.and_eq_false_iff] at hmk
      exact hmk.imp_right fun e => by simpa using e
    · have := h3 hq
      rw [if_neg ho] at this
      exact this
  · rw [if_pos ho, hru, if_neg (by rw [hb]; exact Bool.false_ne_true)] at hg hg2
    refine ⟨by rw [hg, hg2 (.inl hb)], fun hq => ?_⟩
    have := h3 hq
    rw [if_pos ho, hru, if_neg (by rw [hb]; exact Bool.false_ne_true)] at this
    exact this
  · rw [hg, if_pos ho, hru, if_pos hb]
    rfl
  · rw [hg2 (.inr h1), if_pos ho, hru, if_pos hb]
    rfl
  · have hne : j ∉ s.onceHits ((TaskRx.rx .armCapture x).bulletin .task) := fun hm => by
      rw [(State.mem_onceHits.1 hm).1] at hb
      exact Bool.true_eq_false_eq_False hb
    rw [State.finish_mgmt, hc.rest j hne, State.answerTask_rules]
    refine (getFin_set_ne _ hj _).trans ?_
    rw [hu.rule j, if_neg (by rw [hb]; exact Bool.false_ne_true)]

theorem readCapture_answers {k : Fin 4} {clear : Bool} (h : tasked .readCapture p x s)
    (hk : fin8 4 x.params 0 = some k) (hcl : flagAt x.params 1 = some clear) :
    ∃ t : State, exec (.readCapture p x) s = .next t ∧ stationKept s t ∧ recordsKept s t ∧
      (clear = true → t.mgmt.rules[k].hits = 0 ∧ t.mgmt.rules[k].hitFlag = false) ∧
      (s.mgmt.rules[k].hitBy ((TaskRx.rx .readCapture x).bulletin .task) = false →
        (clear = false → t.mgmt.rules[k] = s.mgmt.rules[k]) ∧
        (clear = true → t.mgmt.rules[k] = { s.mgmt.rules[k] with hits := 0, hitFlag := false }) ∧
        (s.biu.queue.length < 16 → answered false .readCapture x .done s.mgmt.rules[k].data s t)) := by
  obtain ⟨u, v, hu, he, hc, h1, h2, h3, -⟩ := exec_ruled
    (f := fun u => if clear then u.setRule k { u.mgmt.rules[k] with hits := 0, hitFlag := false } else u)
    (data := fun u => u.mgmt.rules[k].data) h
    (fun u _ => by simp only [State.runTask, State.readCapture, hk, hcl])
    (fun _ => by cases clear <;> rfl)
  have hru := hu.rule k
  obtain ⟨g, hg, -, hg2⟩ := hc.rule k
  have hw : (if clear then u.setRule k { u.mgmt.rules[k] with hits := 0, hitFlag := false } else u).mgmt.rules[k] =
      if clear then { u.mgmt.rules[k] with hits := 0, hitFlag := false } else u.mgmt.rules[k] := by
    cases clear
    · rfl
    · exact getFin_set_self _ _ _
  rw [State.answerTask_rules, hw] at hg hg2
  rw [← State.finish_mgmt] at hg
  refine ⟨_, he, h1, h2, fun h => ?_, fun hb => ⟨fun h => ?_, fun h => ?_, fun hq => ?_⟩⟩
  · rw [hg, if_pos h]
    exact ⟨rfl, rfl⟩
  · rw [hg, hg2 (.inl hb), h, hru, hb]
    rfl
  · rw [hg, hg2 (.inl hb), h, hru, hb]
    rfl
  · have := h3 hq
    rw [hru, if_neg (by rw [hb]; exact Bool.false_ne_true)] at this
    exact this

/-- Settles O39: the tasks of the counters and of the capture rules. -/
theorem counterAndCaptureTasks : Obligations.CounterAndCaptureTasks :=
  ⟨fun _ _ _ _ _ h hf hc hle => readCounters_answers h hf hc hle,
    fun _ _ _ _ _ _ _ h hk ho hm hd hq hn => setCounter_answers h hk ho hm hd hq hn,
    fun _ _ _ _ _ _ h hk hm hr => armCapture_answers h hk hm hr, fun _ _ _ _ _ h hk hc => readCapture_answers h hk hc⟩

end Sys2Proof.Machine
end

section
/-! SUPPORT. The tasks of the memberships (R160, R186), and those that set a link's class and sample interval (R184). -/

namespace Sys2Proof.Machine

open Says

variable {c : TaskCode} {p : BusPort} {x : TaskRx} {q : Fin 12} {n : Fin 16} {r : TbPort} {s t u v w : State}

/-! ## Memberships -/

/-- Own ports and one line have been changed, a bulletin offered, and the line's cap evaluated. -/
structure Recast (q : Fin 12) (r : TbPort) (n : Fin 16) (y : Line) (s t : State) : Prop where
  port    : ∃ r' : TbPort, t.tbPort q = some r' ∧ r'.members = r.members
  roster  : t.tbk.lines[n].roster = y.roster
  lines   : ∀ k : Fin 16, k ≠ n → t.tbk.lines[k] = s.tbk.lines[k]

theorem State.recast (o : Offer) (q : Fin 12) (r : TbPort) (n : Fin 16) (y : Line) (s : State) :
    Recast q r n y s ((((s.setTbPort q r).setLine n y).offered o).capEval n) := by
  have htbk := State.offered_tbk o ((s.setTbPort q r).setLine n y)
  generalize ((s.setTbPort q r).setLine n y).offered o = w at htbk
  have hc := State.capEval_capped n w
  have hp : w.tbPort q = some r := by
    unfold State.tbPort
    rw [htbk]
    exact getFin_set_self _ _ _
  refine ⟨?_, ?_, fun k hk => ?_⟩
  · rcases hc.ports q with h | ⟨r', key, hr, -, h⟩
    · exact ⟨r, h.trans hp, rfl⟩
    · rw [hp] at hr
      obtain rfl := Option.some.inj hr
      exact ⟨_, h, rfl⟩
  · rw [hc.roster, htbk]
    exact congrArg Line.roster (getFin_set_self _ _ _)
  · rw [hc.lines k hk, htbk]
    exact getFin_set_ne _ hk _

theorem State.putMembership_recast {m : Membership} (h : s.tbPort q = some r) :
    Recast q { r with members := insertMember m r.members } m.line
      ((s.line m.line).putOwn { station := s.station, port := q, listen := m.listen, talk := m.talk }) s
      (s.putMembership q m) := by
  rw [State.putMembership, State.modTbPort, h]
  exact State.recast _ q _ m.line _ s

theorem State.dropMembership_recast (h : s.tbPort q = some r) :
    Recast q { r with members := r.members.filter fun m => m.line != n } n ((s.line n).removeMember s.station q) s
      (s.dropMembership q n) := by
  rw [State.dropMembership, State.modTbPort, h]
  exact State.recast _ q _ n _ s

theorem Line.putOwn_of_room {m : Member} {y : Line} (h : y.roster.length < 32) : y.putOwn m = y.put m := by
  rw [Line.putOwn, if_pos (by simp [h])]

theorem TbPort.member_none (h : r.member n = none) : ∀ m ∈ r.members, m.line ≠ n := by
  simpa [TbPort.member] using h

/-- The task of a membership that is carried out: what it makes of the records, with its answer behind it. -/
theorem setMembership_done {flags : Byte} {f : State → State} (h : tasked .setMembership p x s)
    (hq : fin8 12 x.params 0 = some q) (hn : fin8 16 x.params 1 = some n) (hfl : x.params[2]? = some flags)
    (hr : s.tbPort q = some r)
    (hf : ∀ u, Taken .setMembership p x s u →
      u.applyMembership q r n (flags.getLsbD 0) (flags.getLsbD 1) (flags.getLsbD 2) = some (f u))
    (he : ∀ u, Evolves Writes.talk u (f u)) :
    ∃ u t : State, Taken .setMembership p x s u ∧ exec (.setMembership p x) s = .next t ∧ stationKept s t ∧
      t.plan = s.plan ∧ t.tally = s.tally ∧ radioKept s t ∧ t.tbk.ports = (f u).tbk.ports ∧
      t.tbk.lines = (f u).tbk.lines := by
  obtain ⟨u, t, hu, hex, h1, h2, -⟩ := exec_changed (f := f) (ret := .done)
    (data := fun u => State.membershipData (f u) q) h
    (fun u hu => by
      have hr' : u.tbPort q = some r := by rw [hu.eq]; exact hr
      simp only [State.runTask, State.setMembership, hq, hn, hfl, hr', hf u hu])
    (fun u _ => (he u).stationKept)
  obtain ⟨-, k2, -, k4, k5, k6⟩ := h2
  obtain ⟨e1, e2, e3⟩ := (he u).talk_kept
  obtain ⟨-, -, f3, -, f5, -, f7⟩ := hu.fields
  exact ⟨u, t, hu, hex, h1, k2.trans (e1.trans f3), k4.trans (e2.trans f5),
    ((radioKept.of_eq f7).trans e3).trans k6, k5.1, k5.2.2.1⟩

/-- The task of a membership that is refused. -/
theorem setMembership_refused {flags : Byte} (h : tasked .setMembership p x s)
    (hq : fin8 12 x.params 0 = some q) (hn : fin8 16 x.params 1 = some n) (hfl : x.params[2]? = some flags)
    (hr : s.tbPort q = none ∨ ∃ r, s.tbPort q = some r ∧ ∀ u : State,
      u.applyMembership q r n (flags.getLsbD 0) (flags.getLsbD 1) (flags.getLsbD 2) = none) :
    ∃ t : State, exec (.setMembership p x) s = .next t ∧ stationKept s t ∧ recordsKept s t ∧
      (s.biu.queue.length < 16 → answered false .setMembership x .refused [] s t) := by
  obtain ⟨u, t, hu, -, he, h1, h2, h3⟩ := exec_answered (ret := .refused) (data := fun _ => []) h fun u hu => by
    have hp : u.tbPort q = s.tbPort q := by rw [hu.eq]; rfl
    rcases hr with hr | ⟨r, hr, ha⟩
    · simp only [State.runTask, State.setMembership, hq, hn, hfl, hp.trans hr]
      rfl
    · simp only [State.runTask, State.setMembership, hq, hn, hfl, hp.trans hr, ha u]
      rfl
  exact ⟨t, he, h1, h2, h3⟩

/-- Settles O43: a membership is set, removed or refused. -/
theorem membershipTasks : Obligations.MembershipTasks := by
  refine ⟨fun p x q n flags r s h hq hn hfl hr => ⟨fun hon hrm hno hlen hports hroom => ?_, fun hoff => ?_,
    fun hon hrm hno hlen => ?_⟩, fun p x q n flags s h hq hn hfl hr => setMembership_refused h hq hn hfl (.inl hr)⟩
  · have happ (u : State) (hu : u.tbk = s.tbk) : u.applyMembership q r n (flags.getLsbD 0) (flags.getLsbD 1)
        (flags.getLsbD 2) =
        some (u.putMembership q { line := n, listen := flags.getLsbD 0, talk := flags.getLsbD 1 }) := by
      have hm : u.membershipPorts = s.membershipPorts := by unfold State.membershipPorts; rw [hu]
      unfold State.applyMembership
      rw [if_neg (by rw [hrm]; rcases hon with h | h <;> simp [h])]
      dsimp only
      rw [hno]
      dsimp only
      rw [if_neg (by omega), if_neg fun ⟨h1, h2⟩ => hports.elim (fun hne => hne h1) (by omega)]
    obtain ⟨u, t, hu, he, h1, h2, h3, h4, h5, h6⟩ := setMembership_done h hq hn hfl hr
      (fun u hu => happ u (by rw [hu.eq])) (fun u => State.putMembership_evolves rfl (.refl _ u))
    obtain ⟨-, f2, -, -, -, f6, -⟩ := hu.fields
    have hr' : u.tbPort q = some r := by rw [hu.eq]; exact hr
    have hline : u.line n = s.line n := by rw [hu.eq]; rfl
    have hc := State.putMembership_recast (m := { line := n, listen := flags.getLsbD 0, talk := flags.getLsbD 1 }) hr'
    obtain ⟨r', hrp, hrm'⟩ := hc.port
    refine ⟨t, he, h1, h2, h3, h4, ⟨r', by rw [h5]; exact hrp, hrm'⟩, ?_, fun k hk => ?_⟩
    · have hroster := hc.roster
      dsimp only at hroster
      rw [hline, Line.putOwn_of_room hroom, State.station_congr f2] at hroster
      rw [h6, hroster]
      exact Line.mem_put.2 (.inl rfl)
    · rw [h6, hc.lines k hk, f6]
  · have hbranch : (flags.getLsbD 2 || (!flags.getLsbD 0 && !flags.getLsbD 1)) = true := by
      rcases hoff with h | ⟨h1, h2⟩
      · simp [h]
      · rw [h1, h2, Bool.not_false, Bool.and_self, Bool.or_true]
    cases hmem : r.member n with
    | none =>
      obtain ⟨u, t, hu, he, h1, h2, h3, h4, h5, h6⟩ := setMembership_done (f := id) h hq hn hfl hr
        (fun u _ => by rw [State.applyMembership, if_pos hbranch, hmem]; rfl) (fun u => .refl _ u)
      obtain ⟨-, -, -, -, -, f6, -⟩ := hu.fields
      refine ⟨t, he, h1, h2, h3, h4, ⟨r, ?_, TbPort.member_none hmem⟩, fun h => absurd h (by simp), fun k _ => ?_⟩
      · rw [h5, id, f6]
        exact hr
      · rw [h6, id, f6]
    | some m =>
      obtain ⟨u, t, hu, he, h1, h2, h3, h4, h5, h6⟩ := setMembership_done (f := fun u => u.dropMembership q n) h hq hn hfl hr
        (fun u _ => by rw [State.applyMembership, if_pos hbranch, hmem]) (fun u => State.dropMembership_evolves rfl (.refl _ u))
      obtain ⟨-, f2, -, -, -, f6, -⟩ := hu.fields
      have hr' : u.tbPort q = some r := by rw [hu.eq]; exact hr
      have hc := State.dropMembership_recast (n := n) hr'
      obtain ⟨r', hrp, hrm'⟩ := hc.port
      refine ⟨t, he, h1, h2, h3, h4, ⟨r', by rw [h5]; exact hrp, fun m hm => ?_⟩, fun _ m hm => ?_, fun k hk => ?_⟩
      · rw [hrm'] at hm
        simpa using (List.mem_filter.1 hm).2
      · rw [h6, hc.roster, Line.removeMember, Line.removeMembers_roster, State.station_congr f2] at hm
        exact not_is_iff.1 (List.mem_filter.1 hm).2
      · rw [h6, hc.lines k hk, f6]
  · refine setMembership_refused h hq hn hfl (.inr ⟨r, hr, fun u => ?_⟩)
    unfold State.applyMembership
    rw [if_neg (by rw [hrm]; rcases hon with h | h <;> simp [h])]
    dsimp only
    rw [hno]
    dsimp only
    rw [if_pos hlen]

end Sys2Proof.Machine
end

section
/-! SUPPORT. What the relocation of one link can do (chapter 7): to the link's own record, its own entries and its
front-end; every other link, entry and front-end stays. -/

namespace Sys2Proof.Machine

open Says

variable {l : Fin 8} {s t u v w : State}

/-! ## The operations -/

/-- What a relocation leaves of a link's record. -/
structure LinkRec.Tame (x z : LinkRec) : Prop where
  desc     : z.desc = x.desc
  cls      : z.cls = x.cls
  sampleMs : z.sampleMs = x.sampleMs
  pinned   : z.pinned = x.pinned

theorem LinkRec.Tame.refl (x : LinkRec) : x.Tame x := ⟨rfl, rfl, rfl, rfl⟩

theorem LinkRec.Tame.trans {x y z : LinkRec} (a : x.Tame y) (b : y.Tame z) : x.Tame z :=
  ⟨b.desc.trans a.desc, b.cls.trans a.cls, b.sampleMs.trans a.sampleMs, b.pinned.trans a.pinned⟩

/-- The front-end that a link has. -/
def State.frontEnd (s : State) (l : Fin 8) : Option (Fin 8) := (s.link l).map fun x => x.desc.frontEnd

/-- One state follows from another by operations of one link's relocation. -/
inductive Relocates (l : Fin 8) (s : State) : State → Prop
  | refl : Relocates l s s
  | offer {t : State} (o : Offer) (h : Relocates l s t) : Relocates l s (t.offer o).1
  | count {t : State} (ev : Event) (n : Option Nat) (h : Relocates l s t) : Relocates l s (t.count ev n)
  /-- An own entry of the link comes, goes or changes. -/
  | own {t : State} (i : Fin 16) (e : Option OwnEntry) (hi : ∀ x, t.ownEntry i = some x → x.link = l)
      (he : ∀ x, e = some x → x.link = l) (h : Relocates l s t) : Relocates l s (t.setOwn i e)
  | link {t : State} (f : LinkRec → LinkRec) (hf : ∀ x : LinkRec, x.Tame (f x)) (h : Relocates l s t) : Relocates l s (t.modLink l f)
  | mute {t : State} (a : Fin 8) (ha : s.frontEnd l = some a) (h : Relocates l s t) : Relocates l s (t.mute a)
  | tune {t : State} (a : Fin 8) (sp : Span) (ha : s.frontEnd l = some a) (h : Relocates l s t) :
      Relocates l s (t.tune a sp).1
  | longTask {t : State} (x : Option LongTask) (h : Relocates l s t) :
      Relocates l s { t with mgmt := { t.mgmt with longTask := x } }

/-- The link's record, once an offer may have changed its last announced state. -/
theorem Offered.tame (h : Offered s t) {x : LinkRec} (hx : s.link l = some x) : ∃ z, t.link l = some z ∧ x.Tame z := by
  rcases h.links l with h | ⟨y, hy, hz⟩
  · exact ⟨x, h.trans hx, .refl x⟩
  · rw [hx] at hy
    obtain rfl := Option.some.inj hy
    exact ⟨_, hz, rfl, rfl, rfl, rfl⟩

theorem State.mute_link (a l : Fin 8) (s : State) : (s.mute a).link l = s.link l := by
  unfold State.mute State.muteLine State.queueMute
  repeat' split
  all_goals rfl

theorem State.tune_link (a l : Fin 8) (sp : Span) (s : State) : (s.tune a sp).1.link l = s.link l := by
  unfold State.tune
  repeat' split
  all_goals rfl

/-- The link's record is still there, with what a relocation leaves of it. -/
theorem Relocates.tame (h : Relocates l s t) {x : LinkRec} (hx : s.link l = some x) :
    ∃ z, t.link l = some z ∧ x.Tame z := by
  induction h with
  | refl => exact ⟨x, hx, .refl x⟩
  | offer o _ ih =>
    obtain ⟨z, hz, hxz⟩ := ih
    obtain ⟨y, hy, hzy⟩ := (State.offer_offered o _).tame hz
    exact ⟨y, hy, hxz.trans hzy⟩
  | count _ _ _ ih | own _ _ _ _ _ ih | longTask _ _ ih => exact ih
  | link f hf _ ih =>
    obtain ⟨z, hz, hxz⟩ := ih
    exact ⟨f z, by rw [State.link_modLink, if_pos rfl, hz]; rfl, hxz.trans (hf z)⟩
  | mute a _ _ ih =>
    obtain ⟨z, hz, hxz⟩ := ih
    exact ⟨z, by rw [State.mute_link]; exact hz, hxz⟩
  | tune a sp _ _ ih =>
    obtain ⟨z, hz, hxz⟩ := ih
    exact ⟨z, by rw [State.tune_link]; exact hz, hxz⟩

theorem Offered.none (h : Offered s t) (hx : s.link l = none) : t.link l = none := by
  rcases h.links l with h | ⟨y, hy, hz⟩
  · exact h.trans hx
  · rw [hx] at hy
    cases hy

theorem Relocates.none (h : Relocates l s t) (hx : s.link l = none) : t.link l = none := by
  induction h with
  | refl => exact hx
  | offer o _ ih => exact (State.offer_offered o _).none ih
  | count _ _ _ ih | own _ _ _ _ _ ih | longTask _ _ ih => exact ih
  | link f hf _ ih => rw [State.link_modLink, if_pos rfl, ih]; rfl
  | mute a _ _ ih => rw [State.mute_link]; exact ih
  | tune a sp _ _ ih => rw [State.tune_link]; exact ih

/-- The front-end of the link is the one it had. -/
theorem Relocates.frontEnd (h : Relocates l s t) : t.frontEnd l = s.frontEnd l := by
  unfold State.frontEnd
  cases hx : s.link l with
  | none => rw [h.none hx]
  | some x =>
    obtain ⟨z, hz, hxz⟩ := h.tame hx
    rw [hz, Option.map_some, Option.map_some, hxz.desc]

theorem Relocates.trans (a : Relocates l s t) (b : Relocates l t u) : Relocates l s u := by
  induction b with
  | refl => exact a
  | offer o _ ih => exact ih.offer o
  | count ev n _ ih => exact ih.count ev n
  | own i e hi he _ ih => exact ih.own i e hi he
  | link f hf _ ih => exact ih.link f hf
  | mute x hx _ ih => exact ih.mute x (a.frontEnd.symm.trans hx)
  | tune x sp hx _ ih => exact ih.tune x sp (a.frontEnd.symm.trans hx)
  | longTask x _ ih => exact ih.longTask x

theorem Relocates.foldl {α : Type} (f : State → α → State) (hf : ∀ t a, Relocates l t (f t a)) (x : List α)
    (h : Relocates l s t) : Relocates l s (x.foldl f t) := by
  induction x generalizing t with
  | nil => exact h
  | cons a x ih => exact ih (h.trans (hf t a))

/-! ## What a relocation leaves alone -/

/-- A link's record is the same but for its last announced state. -/
def LinkRec.Near (x z : LinkRec) : Prop := ∃ b, z = { x with announcedBad := b }

theorem LinkRec.Near.refl (x : LinkRec) : x.Near x := ⟨x.announcedBad, rfl⟩

theorem LinkRec.Near.trans {x y z : LinkRec} (a : x.Near y) (b : y.Near z) : x.Near z := by
  obtain ⟨_, rfl⟩ := a
  obtain ⟨c, rfl⟩ := b
  exact ⟨c, rfl⟩

/-- A link is as it was but for its last announced state. -/
def linkNear (l : Fin 8) (s t : State) : Prop :=
  t.link l = s.link l ∨ ∃ x b, s.link l = some x ∧ t.link l = some { x with announcedBad := b }

theorem linkNear.trans (a : linkNear l s t) (b : linkNear l t u) : linkNear l s u := by
  rcases a with ha | ⟨x, c, hx, ha⟩
  · unfold linkNear at b ⊢
    rw [← ha]
    exact b
  · rcases b with hb | ⟨y, d, hy, hb⟩
    · exact .inr ⟨x, c, hx, hb.trans ha⟩
    · rw [ha] at hy
      obtain rfl := Option.some.inj hy
      exact .inr ⟨x, d, hx, hb⟩

theorem linkNear.of_eq (h : t.link l = s.link l) : linkNear l s t := .inl h

theorem linkNear.some {x : LinkRec} (h : linkNear l s t) (hx : s.link l = some x) :
    ∃ b, t.link l = Option.some { x with announcedBad := b } := by
  rcases h with h | ⟨y, b, hy, h⟩
  · exact ⟨x.announcedBad, h.trans hx⟩
  · rw [hx] at hy
    obtain rfl := Option.some.inj hy
    exact ⟨b, h⟩

theorem linkNear.reloc (h : linkNear l s t) : t.reloc l = s.reloc l := by
  unfold State.reloc
  rcases h with h | ⟨y, b, hy, h⟩
  · rw [h]
  · rw [h, hy]
    rfl

theorem Offered.near (h : Offered s t) (l : Fin 8) : linkNear l s t := by
  rcases h.links l with h | ⟨x, hx, h⟩
  · exact .inl h
  · exact .inr ⟨x, _, hx, h⟩

/-- Every other link is as it was. -/
theorem Relocates.near {k : Fin 8} (h : Relocates l s t) (hk : k ≠ l) : linkNear k s t := by
  induction h with
  | refl => exact .inl rfl
  | offer o _ ih => exact ih.trans ((State.offer_offered o _).near k)
  | count _ _ _ ih | own _ _ _ _ _ ih | longTask _ _ ih => exact ih
  | link f hf _ ih => exact ih.trans (.inl (by rw [State.link_modLink, if_neg hk.symm]))
  | mute a _ _ ih => exact ih.trans (.inl (State.mute_link a k _))
  | tune a sp _ _ ih => exact ih.trans (.inl (State.tune_link a k sp _))

theorem State.ownEntry_setOwn_self (i : Fin 16) (e : Option OwnEntry) (s : State) : (s.setOwn i e).ownEntry i = e :=
  getFin_set_self _ _ _

theorem State.ownEntry_setOwn_ne {i j : Fin 16} (h : j ≠ i) (e : Option OwnEntry) (s : State) :
    (s.setOwn i e).ownEntry j = s.ownEntry j := getFin_set_ne _ h _

theorem State.mute_plan (a : Fin 8) (s : State) : (s.mute a).plan = s.plan := by
  unfold State.mute State.muteLine State.queueMute
  repeat' split
  all_goals rfl

theorem State.tune_plan (a : Fin 8) (sp : Span) (s : State) : (s.tune a sp).1.plan = s.plan := by
  unfold State.tune
  repeat' split
  all_goals rfl

theorem State.modLink_plan (l : Fin 8) (f : LinkRec → LinkRec) (s : State) : (s.modLink l f).plan = s.plan := by
  rw [State.modLink_frame]

/-- The own entries of the other links are as they were, and no others are there. -/
theorem Relocates.own_iff (h : Relocates l s t) {i : Fin 16} {e : OwnEntry} (he : e.link ≠ l) :
    t.ownEntry i = some e ↔ s.ownEntry i = some e := by
  have same {a b : State} (hp : b.plan = a.plan) : b.ownEntry i = a.ownEntry i := by
    unfold State.ownEntry
    rw [hp]
  induction h with
  | refl => exact Iff.rfl
  | offer o _ ih => rw [same (State.offer_plan o _)]; exact ih
  | count _ _ _ ih | longTask _ _ ih => exact ih
  | own j x hi hx _ ih =>
    by_cases hij : i = j
    · subst hij
      refine Iff.trans ?_ ih
      rw [State.ownEntry_setOwn_self]
      exact ⟨fun h => absurd (hx e h) he, fun h => absurd (hi e h) he⟩
    · rw [State.ownEntry_setOwn_ne hij]
      exact ih
  | link f hf _ ih => rw [same (State.modLink_plan l f _)]; exact ih
  | mute a _ _ ih => rw [same (State.mute_plan a _)]; exact ih
  | tune a sp _ _ ih => rw [same (State.tune_plan a sp _)]; exact ih

/-- An entry of the table that is the link's, or none, was so before. -/
theorem Relocates.own_mine (h : Relocates l s t) {i : Fin 16} (hi : ∀ e, s.ownEntry i = some e → e.link = l) :
    ∀ e, t.ownEntry i = some e → e.link = l := by
  intro e he
  by_contra hne
  exact hne (hi e ((h.own_iff hne).1 he))

theorem State.mute_fe {a b : Fin 8} (h : b ≠ a) (s : State) : (s.mute a).fe b = s.fe b := by
  have hl : (s.muteLine a).rport.fe = s.rport.fe := by
    unfold State.muteLine State.queueMute
    repeat' split
    all_goals rfl
  show ((s.muteLine a).rport.fe.set a _)[b] = s.rport.fe[b]
  rw [hl]
  exact getFin_set_ne _ h _

theorem State.tune_fe {a b : Fin 8} (h : b ≠ a) (sp : Span) (s : State) : (s.tune a sp).1.fe b = s.fe b := by
  unfold State.tune
  repeat' split
  all_goals first
    | rfl
    | exact getFin_set_ne _ h _

/-- Every other front-end is as it was. -/
theorem Relocates.fe (h : Relocates l s t) {b : Fin 8} (hb : s.frontEnd l ≠ some b) : t.fe b = s.fe b := by
  have same {x y : State} (hp : y.rport = x.rport) : y.fe b = x.fe b := by
    unfold State.fe
    rw [hp]
  induction h with
  | refl => rfl
  | offer o _ ih => exact (same (by rw [(State.offer_offered o _).eq])).trans ih
  | count _ _ _ ih | longTask _ _ ih | own _ _ _ _ _ ih => exact ih
  | link f hf _ ih => exact (same (by rw [State.modLink_frame])).trans ih
  | mute a ha _ ih => exact (State.mute_fe (fun e => hb (ha.trans (congrArg some e.symm))) _).trans ih
  | tune a sp ha _ ih => exact (State.tune_fe (fun e => hb (ha.trans (congrArg some e.symm))) sp _).trans ih

/-! ## Each operation -/

@[simp] theorem State.count_relocates {ev : Event} {n : Option Nat} (h : Relocates l s t) : Relocates l s (t.count ev n) :=
  h.count ev n

@[simp] theorem State.offered_relocates {o : Offer} (h : Relocates l s t) : Relocates l s (t.offered o) := h.offer o

@[simp] theorem State.reply_relocates {x : Bool} {o g : Nat} {k : Byte} {r : ReturnCode} {d : List Byte}
    (h : Relocates l s t) : Relocates l s (t.reply x o g k r d) := h.offer _

@[simp] theorem State.modReloc_relocates {f : Reloc → Reloc} (h : Relocates l s t) : Relocates l s (t.modReloc l f) :=
  h.link _ fun _ => ⟨rfl, rfl, rfl, rfl⟩

theorem State.removeOwn_relocates {i : Fin 16} (hi : ∀ x, t.ownEntry i = some x → x.link = l) (h : Relocates l s t) :
    Relocates l s (t.removeOwn i) := by
  unfold State.removeOwn
  split
  · exact (h.own i none hi (by simp)).offer _
  · exact h

theorem State.ownSlot_some {sp : Span} {i : Fin 16} (h : s.ownSlot l sp = some i) :
    ∃ e, s.ownEntry i = some e ∧ e.link = l ∧ e.span = sp := by
  have hf := List.find?_some h
  split at hf
  · rename_i e he
    exact ⟨e, he, by simpa using hf⟩
  · cases hf

@[simp] theorem State.yieldRequest_relocates {sp : Span} (h : Relocates l s t) : Relocates l s (t.yieldRequest l sp) := by
  unfold State.yieldRequest
  split
  · rename_i i hi
    obtain ⟨e, he, hl, -⟩ := State.ownSlot_some hi
    exact State.removeOwn_relocates (fun x hx => by rw [he] at hx; exact Option.some.inj hx ▸ hl) h
  · exact h

@[simp] theorem State.yieldWhere_relocates {p : OwnEntry → Bool} (h : Relocates l s t) :
    Relocates l s (t.yieldWhere l p) := by
  refine Relocates.foldl _ (fun u i => ?_) _ h
  split
  · rename_i e he
    split
    · rename_i hc
      exact State.removeOwn_relocates (fun x hx => by rw [he] at hx; exact Option.some.inj hx ▸ hc.1) .refl
    · exact .refl
  · exact .refl

@[simp] theorem State.muteLink_relocates (h : Relocates l s t) : Relocates l s (t.muteLink l) := by
  unfold State.muteLink
  split
  · rename_i x hx
    exact (h.mute _ (by rw [← h.frontEnd, State.frontEnd, hx]; rfl)).link _ fun _ => ⟨rfl, rfl, rfl, rfl⟩
  · exact h

@[simp] theorem State.leaveSpan_relocates {sp : Span} (h : Relocates l s t) : Relocates l s (t.leaveSpan l sp) :=
  h.link _ fun x => by split <;> exact ⟨rfl, rfl, rfl, rfl⟩

@[simp] theorem State.leaveYielding_relocates (h : Relocates l s t) : Relocates l s (t.leaveYielding l) :=
  Relocates.foldl _ (fun _ _ => State.leaveSpan_relocates .refl) _ (State.yieldWhere_relocates h)

@[simp] theorem State.issueTune_relocates {sp : Span} (h : Relocates l s t) : Relocates l s (t.issueTune l sp).1 := by
  unfold State.issueTune
  dsimp only
  split
  · exact h
  · rename_i x hx
    have hfe : s.frontEnd l = some x.desc.frontEnd := by rw [← h.frontEnd, State.frontEnd, hx]; rfl
    have hm : Relocates l s (if x.tuneInFlight then (t.muteLink l).leaveYielding l else t) := by split <;> simp [h]
    generalize (if x.tuneInFlight then (t.muteLink l).leaveYielding l else t) = v at hm
    split
    · exact (hm.tune _ sp hfe).link _ fun _ => ⟨rfl, rfl, rfl, rfl⟩
    · exact hm.tune _ sp hfe

@[simp] theorem State.tellTask_relocates {e : Ending} (h : Relocates l s t) : Relocates l s (t.tellTask l e) := by
  unfold State.tellTask
  split
  · exact State.reply_relocates (h.longTask none)
  · exact h

@[simp] theorem State.endReloc_relocates {r : Reloc} {e : Ending} (h : Relocates l s t) :
    Relocates l s (t.endReloc l r e) := by
  unfold State.endReloc
  dsimp only
  have hm : Relocates l s (t.modLink l fun x => { x with reloc := none, lastOutcome := some (r.cause, e) }) :=
    h.link _ fun _ => ⟨rfl, rfl, rfl, rfl⟩
  split
  · exact State.tellTask_relocates hm
  · exact hm

@[simp] theorem State.relocFail_relocates {c : FailCause} {b : Bool} (h : Relocates l s t) :
    Relocates l s (t.relocFail l c b) := by
  unfold State.relocFail
  dsimp only
  split
  · exact h
  · refine State.endReloc_relocates ?_
    split
    · exact Relocates.link _ (fun _ => ⟨rfl, rfl, rfl, rfl⟩) (by simp (maxDischargeDepth := 9) [h])
    · exact Relocates.link _ (fun _ => ⟨rfl, rfl, rfl, rfl⟩) (by simp (maxDischargeDepth := 9) [h])

/-! ## Claims -/

theorem State.sendFailure_relocates {i : Fin 16} {b : Bool} (hi : ∀ x, t.ownEntry i = some x → x.link = l)
    (h : Relocates l s t) : Relocates l s (t.sendFailure b i).1 := by
  unfold State.sendFailure
  dsimp only
  split
  · exact h
  · rename_i e he
    have hel := hi e he
    have hset (x : OwnEntry) (hx : x.link = l) : Relocates l s (t.setOwn i (some x)) :=
      h.own i _ hi fun y hy => Option.some.inj hy ▸ hx
    repeat' split
    · exact hset _ hel
    · exact (hset { e with failures := 1 } hel).offer _
    · have ho := (hset { e with failures := 1 } hel).offer
        (OwnEntry.announce .planClaim true e.cls (.claim e.link e.span) { e with failures := 1 })
      refine State.removeOwn_relocates (fun x hx => ?_) ho
      have hp : (State.offerClaim true { e with failures := 1 } (t.setOwn i (some { e with failures := 1 }))).1.ownEntry i =
          some { e with failures := 1 } := by
        unfold State.ownEntry
        rw [State.offerClaim_plan]
        exact getFin_set_self _ _ _
      rw [hp] at hx
      exact Option.some.inj hx ▸ hel
    · exact State.removeOwn_relocates hi h

theorem State.emptyOwn_none {i : Fin 16} (h : s.emptyOwn = some i) : s.ownEntry i = none := by
  have hf := List.find?_some h
  simpa using hf

@[simp] theorem State.claimStart_relocates {sp : Span} (h : Relocates l s t) : Relocates l s (t.claimStart l sp).1 := by
  unfold State.claimStart
  dsimp only
  repeat' split
  all_goals first
    | exact h
    | exact h.count _ _
    | skip
  all_goals
    rename_i i hi _
    have hn := State.emptyOwn_none hi
    have hs : Relocates l s (t.setOwn i (some (t.newOwn l sp))) :=
      h.own i _ (fun x hx => by rw [hn] at hx; cases hx) fun x hx => by rw [← Option.some.inj hx]; rfl
  · exact hs.offer _
  · refine State.sendFailure_relocates (fun x hx => ?_) (hs.offer _)
    have hp : (State.offerClaim true (t.newOwn l sp) (t.setOwn i (some (t.newOwn l sp)))).1.ownEntry i =
        some (t.newOwn l sp) := by
      unfold State.ownEntry
      rw [State.offerClaim_plan]
      exact getFin_set_self _ _ _
    rw [hp] at hx
    rw [← Option.some.inj hx]
    rfl

@[simp] theorem State.searchRun_relocates {n : Nat} (h : Relocates l s t) : Relocates l s (State.searchRun l n t) := by
  induction n generalizing t with
  | zero => exact h
  | succ n ih =>
    unfold State.searchRun
    dsimp only
    repeat' split
    all_goals first
      | exact ih (by simp (maxDischargeDepth := 9) [h])
      | simp (maxDischargeDepth := 9) [h]

@[simp] theorem State.enterSearch_relocates (h : Relocates l s t) : Relocates l s (t.enterSearch l) := by
  simp [State.enterSearch, h]

theorem State.setLink_relocates {x y : LinkRec} (hx : t.link l = some x) (hy : x.Tame y) (h : Relocates l s t) :
    Relocates l s (t.setLink l y) := by
  have he : t.setLink l y = t.modLink l fun x => { y with desc := x.desc, cls := x.cls, sampleMs := x.sampleMs,
                                                          pinned := x.pinned } := by
    rw [State.modLink_of_some hx]
    obtain ⟨h1, h2, h3, h4⟩ := hy
    rw [← h1, ← h2, ← h3, ← h4]
  rw [he]
  exact h.link _ fun _ => ⟨rfl, rfl, rfl, rfl⟩

@[simp] theorem State.startReloc_relocates {c : Cause} {x : Option Span} {a b : Bool} (hc : c ≠ .taskPin)
    (h : Relocates l s t) : Relocates l s (t.startReloc l c x a b) := by
  unfold State.startReloc
  split
  · rename_i y hy
    split
    · exact State.enterSearch_relocates (State.setLink_relocates hy ⟨rfl, rfl, rfl, by simp [hc]⟩ h)
    · exact h
  · exact h

@[simp] theorem State.startReturn_relocates {sp : Span} {c : FailCause} (h : Relocates l s t) :
    Relocates l s (t.startReturn l sp c) := by
  unfold State.startReturn
  dsimp only
  split <;> simp (maxDischargeDepth := 9) [h]

@[simp] theorem State.tuneFailed_relocates (h : Relocates l s t) : Relocates l s (t.tuneFailed l) := by
  unfold State.tuneFailed
  repeat' split
  all_goals simp [h]

@[simp] theorem State.tuneCandidate_relocates (h : Relocates l s t) : Relocates l s (t.tuneCandidate l) := by
  unfold State.tuneCandidate
  dsimp only
  repeat' split
  all_goals simp (maxDischargeDepth := 9) [h]

@[simp] theorem State.hearLostRank_relocates {sp : Span} (h : Relocates l s t) : Relocates l s (t.hearLostRank l sp) := by
  unfold State.hearLostRank
  dsimp only
  repeat' split
  all_goals simp [h]

@[simp] theorem State.hearBusFault_relocates {sp : Span} (h : Relocates l s t) : Relocates l s (t.hearBusFault l sp) := by
  unfold State.hearBusFault
  repeat' split
  all_goals simp [h]

@[simp] theorem State.hearHeld_relocates {sp : Span} (h : Relocates l s t) : Relocates l s (t.hearHeld l sp) := by
  unfold State.hearHeld
  repeat' split
  all_goals simp [h]

@[simp] theorem State.candidateLost_relocates {r : Reloc} {sp : Span} (h : Relocates l s t) :
    Relocates l s (t.candidateLost l r sp) := by
  unfold State.candidateLost
  dsimp only
  repeat' split
  all_goals simp (maxDischargeDepth := 9) [h]

@[simp] theorem State.hearPreempted_relocates {sp : Span} (h : Relocates l s t) : Relocates l s (t.hearPreempted l sp) := by
  unfold State.hearPreempted
  repeat' split
  all_goals simp [h]

@[simp] theorem State.lossReloc_relocates (h : Relocates l s t) : Relocates l s (t.lossReloc l) := by
  unfold State.lossReloc
  repeat' split
  all_goals simp [h]

@[simp] theorem State.loseLink_relocates (h : Relocates l s t) : Relocates l s (t.loseLink l) := by
  unfold State.loseLink
  split
  · rename_i x hx
    split
    · exact State.lossReloc_relocates ((State.setLink_relocates (y := { x with state := .lost }) hx ⟨rfl, rfl, rfl, rfl⟩
        h).count _ _)
    · exact h
  · exact h

@[simp] theorem State.hearAllowance_relocates {sp : Span} (h : Relocates l s t) : Relocates l s (t.hearAllowance l sp) := by
  unfold State.hearAllowance
  dsimp only
  repeat' split
  all_goals simp (maxDischargeDepth := 9) [h]

/-- An answer of LSUP's concerns the link of its report. -/
theorem State.hear_relocates {n : PlanNews} (h : Relocates n.link s t) : Relocates n.link s (t.hear n) := by
  unfold State.hear
  split <;> simp [h]

@[simp] theorem State.retryAcquire_relocates (h : Relocates l s t) : Relocates l s (t.retryAcquire l) := by
  unfold State.retryAcquire
  dsimp only
  split
  · rename_i x hx
    have hm : Relocates l s (t.setLink l { x with acquireRetry := none }) :=
      State.setLink_relocates hx ⟨rfl, rfl, rfl, rfl⟩ h
    split <;> simp [hm]
  · exact h

end Sys2Proof.Machine
end

section
/-! SUPPORT. How a relocation stands after a search and after a failure (R119 to R122, R127). -/

namespace Sys2Proof.Machine

open Says

variable {l : Fin 8} {x z : LinkRec} {r : Reloc} {s t u v w : State}

/-! ## Records of one link -/

theorem State.setLink_setLink (l : Fin 8) (x y : LinkRec) (s : State) : (s.setLink l x).setLink l y = s.setLink l y := by
  unfold State.setLink
  simp only [Vector.set_set]

theorem State.modLink_setLink (l : Fin 8) (f : LinkRec → LinkRec) (x : LinkRec) (s : State) :
    (s.setLink l x).modLink l f = s.setLink l (f x) := by
  rw [State.modLink_of_some (x := x) (by rw [State.link_setLink, if_pos rfl]), State.setLink_setLink]

theorem State.link_setLink_self (l : Fin 8) (x : LinkRec) (s : State) : (s.setLink l x).link l = some x := by
  rw [State.link_setLink, if_pos rfl]

theorem State.link_modLink_self {f : LinkRec → LinkRec} (h : s.link l = some x) : (s.modLink l f).link l = some (f x) := by
  rw [State.link_modLink, if_pos rfl, h]
  rfl

theorem State.reloc_eq (h : s.link l = some x) : s.reloc l = x.reloc := by
  rw [State.reloc, h]
  rfl

/-! ## A search, answer by answer (R119, R120, R122) -/

variable {n : Nat} {sp : Span}

theorem State.searchRun_full (hx : s.link l = some x) (hr : x.reloc = some r) (ha : s.askPlan l x r = .full) :
    State.searchRun l (n + 1) s = s.modReloc l Reloc.wait := by
  simp only [State.searchRun, hx, (State.reloc_eq hx).trans hr, ha]

theorem State.searchRun_none (hx : s.link l = some x) (hr : x.reloc = some r) (ha : s.askPlan l x r = .none) :
    State.searchRun l (n + 1) s = s.relocFail l r.noWay false := by
  simp only [State.searchRun, hx, (State.reloc_eq hx).trans hr, ha]

theorem State.searchRun_current (hx : s.link l = some x) (hr : x.reloc = some r) (ha : s.askPlan l x r = .current) :
    State.searchRun l (n + 1) s = s.endReloc l r .done := by
  simp only [State.searchRun, hx, (State.reloc_eq hx).trans hr, ha]

/-- A claim has been answered (R122). -/
def State.claimAnswered (l : Fin 8) (r : Reloc) (sp : Span) (n : Nat) (c : State × ClaimAnswer) : State :=
  match c.2 with
  | .pending => c.1
  | .full => c.1.modReloc l Reloc.wait
  | .refused => c.1.relocFail l r.noWay false
  | .lostRank =>
    if r.cause = .taskPin then c.1.relocFail l .refused false
    else
      let s := c.1.modReloc l (Reloc.lose sp)
      if 4 ≤ r.attempts + 1 then s.relocFail l r.noWay false
      else State.searchRun l n (s.modReloc l fun r => { r with phase := .search })

/-- The relocation with a claim under way. -/
def Reloc.claiming (sp : Span) (r : Reloc) : Reloc := { r with phase := .claiming, cand := some sp }

theorem State.searchRun_span (hx : s.link l = some x) (hr : x.reloc = some r) (ha : s.askPlan l x r = .span sp) :
    State.searchRun l (n + 1) s =
      State.claimAnswered l r sp n ((s.modReloc l (Reloc.claiming sp)).claimStart l sp) := by
  simp only [State.searchRun, hx, (State.reloc_eq hx).trans hr, ha]
  rfl

/-! ## While the replica is overfull (R121) -/

/-- PLAN is asked for a span, or for the pin of one. -/
theorem State.askPlan_full (ho : s.plan.overfull = true) (hc : r.cause = .taskPin → r.cand.isSome = true) :
    s.askPlan l x r = .full := by
  unfold State.askPlan State.pinCheck State.searchStart
  rw [ho]
  split
  · rename_i h
    obtain ⟨sp, hsp⟩ := Option.isSome_iff_exists.1 (hc h)
    rw [hsp]
    rfl
  · rfl

/-- A relocation that starts while the replica is overfull waits. -/
theorem State.startReloc_full {cause : Cause} {cand : Option Span} {task override : Bool} (hx : s.link l = some x)
    (ha : s.phase = .active) (hr : x.reloc = none) (ho : s.plan.overfull = true)
    (hc : cause = .taskPin ↔ cand.isSome = true) : s.startReloc l cause cand task override = s.setLink l { x with
      acquireRetry := none, pinned := x.pinned || decide (cause = .taskPin),
      reloc := some (waiting cause x cand task override) } := by
  have hcand : (if cause = .taskPin then cand else none) = cand := by
    split
    · rfl
    · rename_i h
      cases cand with
      | none => rfl
      | some sp => exact absurd (hc.2 rfl) h
  simp only [State.startReloc, hx]
  rw [if_pos ⟨ha, hr⟩, State.enterSearch, State.modReloc, State.modLink_setLink, Option.map_some,
    State.searchRun_full (State.link_setLink_self l _ s) rfl (State.askPlan_full ho hc.1), State.modReloc,
    State.modLink_setLink, Option.map_some, Reloc.wait, waiting, hcand]

/-! ## Yields and mutes -/

theorem State.removeOwn_near (i : Fin 16) (k : Fin 8) (s : State) : linkNear k s (s.removeOwn i) := by
  unfold State.removeOwn
  split
  · exact (State.offer_offered _ (s.setOwn i none)).near k
  · exact .inl rfl

theorem State.yieldRequest_near (sp : Span) (k : Fin 8) (s : State) : linkNear k s (s.yieldRequest l sp) := by
  unfold State.yieldRequest
  split
  · exact State.removeOwn_near _ k s
  · exact .inl rfl

/-- The part of one slot in the yields of a link. -/
def State.yieldSlot (l : Fin 8) (p : OwnEntry → Bool) (s : State) (i : Fin 16) : State :=
  match s.ownEntry i with
  | some e => if e.link = l ∧ p e then s.removeOwn i else s
  | none => s

theorem State.yieldWhere_eq (p : OwnEntry → Bool) (s : State) :
    s.yieldWhere l p = (List.finRange 16).foldl (State.yieldSlot l p) s := rfl

theorem State.yieldSlot_near (p : OwnEntry → Bool) (i : Fin 16) (k : Fin 8) (s : State) :
    linkNear k s (s.yieldSlot l p i) := by
  unfold State.yieldSlot
  split
  · split
    · exact State.removeOwn_near i k s
    · exact .inl rfl
  · exact .inl rfl

theorem State.yieldWhere_near (p : OwnEntry → Bool) (k : Fin 8) (s : State) : linkNear k s (s.yieldWhere l p) := by
  rw [State.yieldWhere_eq]
  induction List.finRange 16 generalizing s with
  | nil => exact .inl rfl
  | cons i m ih => exact (State.yieldSlot_near p i k s).trans (ih _)

theorem State.removeOwn_plan (i : Fin 16) (s : State) :
    (s.removeOwn i).plan = { s.plan with own := s.plan.own.set i none } := by
  unfold State.removeOwn
  split
  · exact State.offer_plan _ _
  · rename_i h
    have hn : s.plan.own[i] = none := h
    show s.plan = _
    rw [show s.plan.own.set i none = s.plan.own from by rw [← hn]; exact Vector.set_getElem_self _]

theorem State.removeOwn_self (i : Fin 16) (s : State) : (s.removeOwn i).ownEntry i = none := by
  unfold State.ownEntry
  rw [State.removeOwn_plan]
  exact getFin_set_self _ _ _

theorem State.removeOwn_ne {i j : Fin 16} (h : j ≠ i) (s : State) : (s.removeOwn i).ownEntry j = s.ownEntry j := by
  unfold State.ownEntry
  rw [State.removeOwn_plan]
  exact getFin_set_ne _ h _

theorem State.yieldSlot_self (p : OwnEntry → Bool) (i : Fin 16) (s : State) :
    (s.yieldSlot l p i).ownEntry i = (s.ownEntry i).filter fun e => !(e.link == l && p e) := by
  unfold State.yieldSlot
  split
  · rename_i e he
    rw [he]
    split
    · rename_i h
      rw [State.removeOwn_self, Option.filter_some, if_neg (by simp [h])]
    · rename_i h
      rw [he, Option.filter_some, if_pos (by simpa [Classical.or_iff_not_imp_left] using h)]
  · rename_i he
    rw [he]
    rfl

theorem State.yieldSlot_ne {i j : Fin 16} (p : OwnEntry → Bool) (h : j ≠ i) (s : State) :
    (s.yieldSlot l p i).ownEntry j = s.ownEntry j := by
  unfold State.yieldSlot
  split
  · split
    · exact State.removeOwn_ne h s
    · rfl
  · rfl

/-- Each own entry after the yields of a link's entries that a test picks. -/
theorem State.yieldWhere_own (p : OwnEntry → Bool) (j : Fin 16) (s : State) :
    (s.yieldWhere l p).ownEntry j = (s.ownEntry j).filter fun e => !(e.link == l && p e) := by
  have step (m : List (Fin 16)) (s : State) : (m.foldl (State.yieldSlot l p) s).ownEntry j =
        if j ∈ m then (s.ownEntry j).filter fun e => !(e.link == l && p e) else s.ownEntry j := by
    induction m generalizing s with
    | nil => rfl
    | cons i m ih =>
      rw [List.foldl_cons, ih]
      by_cases hj : j = i
      · subst hj
        rw [State.yieldSlot_self, Option.filter_filter, if_pos List.mem_cons_self]
        simp
      · rw [State.yieldSlot_ne p hj]
        simp [hj]
  exact (step (List.finRange 16) s).trans (if_pos (List.mem_finRange j))

theorem State.modLink_own (l : Fin 8) (f : LinkRec → LinkRec) (i : Fin 16) (s : State) :
    (s.modLink l f).ownEntry i = s.ownEntry i := by
  unfold State.ownEntry
  rw [State.modLink_plan]

theorem State.muteLink_own (i : Fin 16) (s : State) : (s.muteLink l).ownEntry i = s.ownEntry i := by
  unfold State.muteLink
  split
  · rw [State.modLink_own]
    unfold State.ownEntry
    rw [State.mute_plan]
  · rfl

theorem State.muteLink_link (h : s.link l = some x) : (s.muteLink l).link l = some { x with tuneInFlight := false } := by
  simp only [State.muteLink, h]
  exact State.link_modLink_self (by rw [State.mute_link]; exact h)

/-- A front-end is muted, or still in FAULT. -/
def FrontEnd.dark (f : FrontEnd) : Prop := f.state = .muted ∨ f.state = .fault

theorem State.mute_dark (a : Fin 8) (s : State) : ((s.mute a).fe a).dark := by
  have h : (s.mute a).fe a = (s.fe a).muted := getFin_set_self _ _ _
  rw [h, FrontEnd.dark, FrontEnd.muted]
  cases hs : (s.fe a).state with
  | fault => exact .inr hs
  | muted | tuning | tuned => exact .inl rfl

theorem State.muteLink_dark (h : s.link l = some x) : ((s.muteLink l).fe x.desc.frontEnd).dark := by
  simp only [State.muteLink, h]
  have hf : ((s.mute x.desc.frontEnd).modLink l fun x => { x with tuneInFlight := false }).fe x.desc.frontEnd =
      (s.mute x.desc.frontEnd).fe x.desc.frontEnd := by
    rw [State.modLink_frame]
    rfl
  rw [hf]
  exact State.mute_dark _ s

/-! ## The end of a relocation (R117, R127) -/

theorem State.tellTask_frame (e : Ending) (s : State) : ∃ queue age longTask counters, s.tellTask l e = { s with
    biu := { s.biu with queue := queue, nextAge := age }
    mgmt := { s.mgmt with longTask := longTask, counters := counters } } := by
  unfold State.tellTask
  split
  · obtain ⟨queue, age, counters, h⟩ := State.reply_normal (s := { s with mgmt := { s.mgmt with longTask := none } }) _ _ _ _ _
    exact ⟨queue, age, none, counters, h⟩
  · exact ⟨s.biu.queue, s.biu.nextAge, s.mgmt.longTask, s.mgmt.counters, rfl⟩

/-- The link's record as the end of its relocation leaves it. -/
def LinkRec.ended (r : Reloc) (e : Ending) (x : LinkRec) : LinkRec :=
  { x with reloc := none, lastOutcome := some (r.cause, e) }

/-- The end of a relocation changes the link's record, the queue, and MGMT's slot of the long task. -/
theorem State.endReloc_frame (e : Ending) (s : State) : ∃ queue age longTask counters, s.endReloc l r e = { s with
    biu := { s.biu with queue := queue, nextAge := age }
    lsup := { s.lsup with links := (s.modLink l (LinkRec.ended r e)).lsup.links }
    mgmt := { s.mgmt with longTask := longTask, counters := counters } } := by
  have hf := State.modLink_frame l (LinkRec.ended r e) s
  have he : s.endReloc l r e = if r.task then (s.modLink l (LinkRec.ended r e)).tellTask l e
      else s.modLink l (LinkRec.ended r e) := rfl
  rw [he]
  split
  · obtain ⟨queue, age, longTask, counters, h⟩ := State.tellTask_frame (l := l) e (s.modLink l (LinkRec.ended r e))
    refine ⟨queue, age, longTask, counters, h.trans ?_⟩
    rw [hf]
  · exact ⟨s.biu.queue, s.biu.nextAge, s.mgmt.longTask, s.mgmt.counters, hf⟩

theorem State.endReloc_link (e : Ending) (h : s.link l = some x) :
    (s.endReloc l r e).link l = some (x.ended r e) := by
  obtain ⟨queue, age, longTask, counters, hf⟩ := State.endReloc_frame (l := l) (r := r) e s
  rw [hf]
  exact State.link_modLink_self h

theorem State.endReloc_own (e : Ending) (i : Fin 16) (s : State) : (s.endReloc l r e).ownEntry i = s.ownEntry i := by
  obtain ⟨queue, age, longTask, counters, hf⟩ := State.endReloc_frame (l := l) (r := r) e s
  rw [hf]
  rfl

theorem State.endReloc_rport (e : Ending) (s : State) : (s.endReloc l r e).rport = s.rport := by
  obtain ⟨queue, age, longTask, counters, hf⟩ := State.endReloc_frame (l := l) (r := r) e s
  rw [hf]

/-- A relocation fails on a link that holds its current span (R127 step 2). -/
theorem State.relocFail_held {why : FailCause} (hx : s.link l = some x) (hr : x.reloc = some r)
    (hh : s.holdsCurrent l = true) : ∃ b, (s.relocFail l why false).link l =
      some ((LinkRec.holdOff s.now { x with announcedBad := b }).ended r (.failed why)) := by
  obtain ⟨v, hv⟩ : ∃ v, v = s.count .relocationFailed none := ⟨_, rfl⟩
  have hvx : v.link l = some x := by rw [hv]; exact hx
  have hvh : v.holdsCurrent l = true := by rw [hv]; exact hh
  obtain ⟨b, hb⟩ := (State.yieldWhere_near (l := l) (fun e => (v.link l).bind (·.current) != some e.span) l v).some hvx
  refine ⟨b, ?_⟩
  simp only [State.relocFail, (State.reloc_eq hx).trans hr, ← hv, hvh, Bool.not_false, Bool.and_true, if_true]
  refine State.endReloc_link _ ((State.link_modLink_self hb).trans ?_)
  rw [show v.now = s.now from by rw [hv]; rfl]

/-- A relocation fails with the link left in ACQUIRING (R127 step 3): the record, the own entries and the front-end. -/
theorem State.relocFail_off {why : FailCause} {force : Bool} (hx : s.link l = some x) (hr : x.reloc = some r)
    (hh : (s.holdsCurrent l && !force) = false) :
    (∃ b, (s.relocFail l why force).link l =
      some ((LinkRec.acquiring s.now { x with tuneInFlight := false, announcedBad := b }).ended r (.failed why))) ∧
    (∀ i, (s.relocFail l why force).ownEntry i = (s.ownEntry i).filter fun e => e.link != l) ∧
    ((s.relocFail l why force).fe x.desc.frontEnd).dark := by
  obtain ⟨v, hv⟩ : ∃ v, v = s.count .relocationFailed none := ⟨_, rfl⟩
  have hvx : v.link l = some x := by rw [hv]; exact hx
  have hvh : (v.holdsCurrent l && !force) = false := by rw [hv]; exact hh
  have hvn : v.now = s.now := by rw [hv]; rfl
  have hvo (i : Fin 16) : v.ownEntry i = s.ownEntry i := by rw [hv]; rfl
  have hmx := State.muteLink_link hvx
  obtain ⟨b, hb⟩ := (State.yieldWhere_near (l := l) (fun _ => true) l (v.muteLink l)).some hmx
  have he : s.relocFail l why force = State.endReloc l r (.failed why)
      (((v.muteLink l).yieldWhere l fun _ => true).modLink l (LinkRec.acquiring v.now)) := by
    simp only [State.relocFail, (State.reloc_eq hx).trans hr, ← hv, hvh, if_neg Bool.false_ne_true]
  have hdark := State.muteLink_dark hvx
  rw [he]
  refine ⟨⟨b, ?_⟩, fun i => ?_, ?_⟩
  · refine State.endReloc_link _ ((State.link_modLink_self hb).trans ?_)
    rw [hvn]
  · rw [State.endReloc_own, State.modLink_own, State.yieldWhere_own, State.muteLink_own, hvo]
    simp [bne]
  · unfold State.fe
    rw [State.endReloc_rport, State.modLink_frame]
    have hr := (State.yieldWhere_evolves (l := l) (p := fun _ => true)
      (w := { plan := true, rport := false, tally := false, tbk := false }) rfl (Evolves.refl _ (v.muteLink l))).rport rfl
    dsimp only
    rw [hr]
    exact hdark

end Sys2Proof.Machine
end
section
/-! SUPPORT. Where a relocation stands after a search: waiting, claiming, or over (R119 to R122). -/

namespace Sys2Proof.Machine

open Says

variable {l : Fin 8} {x z : LinkRec} {r : Reloc} {s t u v w : State} {n : Nat} {sp : Span}

/-! ## Claims and the links -/

theorem State.sendFailure_near (b : Bool) (i : Fin 16) (k : Fin 8) (s : State) : linkNear k s (s.sendFailure b i).1 := by
  unfold State.sendFailure
  dsimp only
  split
  · exact .inl rfl
  · rename_i e he
    have ho : linkNear k s (State.offerClaim true { e with failures := 1 } (s.setOwn i (some { e with failures := 1 }))).1 :=
      (State.offer_offered _ (s.setOwn i (some { e with failures := 1 }))).near k
    repeat' split
    · exact .inl rfl
    · exact ho
    · exact ho.trans (State.removeOwn_near i k _)
    · exact State.removeOwn_near i k s

theorem State.claimStart_near (sp : Span) (k : Fin 8) (s : State) : linkNear k s (s.claimStart l sp).1 := by
  unfold State.claimStart
  dsimp only
  repeat' split
  all_goals first
    | exact .inl rfl
    | exact (State.offer_offered _ (s.setOwn _ (some (s.newOwn l sp)))).near k
    | exact ((State.offer_offered _ (s.setOwn _ (some (s.newOwn l sp)))).near k).trans (State.sendFailure_near _ _ k _)

theorem State.claimStart_full (h : (s.claimStart l sp).2 = .full) : s.plan.overfull = true := by
  unfold State.claimStart at h
  dsimp only at h
  repeat' split at h
  all_goals first
    | assumption
    | cases h

theorem State.claimStart_overfull (sp : Span) (s : State) : (s.claimStart l sp).1.plan.overfull = s.plan.overfull := by
  obtain ⟨-, -, h, -⟩ := (State.claimStart_evolves (l := l) (sp := sp)
    (w := { plan := true, replica := false, rport := false, tally := false, tbk := false }) rfl (.refl _ s)).replica rfl
  exact h

/-! ## Where the relocation stands -/

/-- A relocation goes on as the same one. -/
structure Reloc.Same (r y : Reloc) : Prop where
  cause    : y.cause = r.cause
  old      : y.old = r.old
  task     : y.task = r.task
  override : y.override = r.override

theorem Reloc.Same.refl (r : Reloc) : r.Same r := ⟨rfl, rfl, rfl, rfl⟩

theorem Reloc.Same.trans {y w : Reloc} (a : r.Same y) (b : y.Same w) : r.Same w :=
  ⟨b.cause.trans a.cause, b.old.trans a.old, b.task.trans a.task, b.override.trans a.override⟩

/-- The relocation of a record is over, with its outcome. -/
structure LinkRec.Over (r : Reloc) (x z : LinkRec) : Prop where
  reloc   : z.reloc = none
  outcome : ∃ e, z.lastOutcome = some (r.cause, e) ∧ (r.cause ≠ .taskPin → ∃ why, e = .failed why)
  fades   : x.fades = 0 → z.fades = 0
  off     : r.cause ≠ .taskPin → x.current = none → z.state = .acquiring ∧ z.acquireRetry.isSome = true
  state   : z.state = x.state ∨ z.state = .acquiring

/-- The relocation of a record goes on, or is over. -/
def LinkRec.Stands (overfull : Bool) (r : Reloc) (x z : LinkRec) : Prop :=
  (∃ y b, z = { x with announcedBad := b, reloc := some y } ∧ r.Same y ∧ (overfull = false → y.phase ≠ .waiting)) ∨
    x.Over r z

theorem LinkRec.Over.of_near {y : Reloc} {b : Bool} (hs : r.Same y)
    (h : LinkRec.Over y { x with announcedBad := b, reloc := some y } z) : x.Over r z := by
  refine ⟨h.reloc, ?_, h.fades, fun hc => h.off (hs.cause ▸ hc), h.state⟩
  rw [← hs.cause]
  exact h.outcome

theorem LinkRec.Stands.of_near {y : Reloc} {b o : Bool} (hs : r.Same y)
    (h : LinkRec.Stands o y { x with announcedBad := b, reloc := some y } z) : x.Stands o r z := by
  rcases h with ⟨w, c, rfl, hw, hp⟩ | h
  · exact .inl ⟨w, c, rfl, hs.trans hw, hp⟩
  · exact .inr (h.of_near hs)

/-- Whatever way a relocation fails, it is over. -/
theorem State.relocFail_over {why : FailCause} {force : Bool} (hx : s.link l = some x) (hr : x.reloc = some r) :
    ∃ z, (s.relocFail l why force).link l = some z ∧ x.Over r z := by
  cases hh : (s.holdsCurrent l && !force) with
  | true =>
    obtain ⟨hc, rfl⟩ : s.holdsCurrent l = true ∧ force = false := by simpa using hh
    obtain ⟨b, hb⟩ := State.relocFail_held (why := why) hx hr hc
    refine ⟨_, hb, rfl, ⟨_, rfl, fun _ => ⟨why, rfl⟩⟩, fun h => h, fun _ hn => ?_, .inl rfl⟩
    rw [State.holdsCurrent, hx, Option.bind_some, hn] at hc
    cases hc
  | false =>
    obtain ⟨⟨b, hb⟩, -⟩ := State.relocFail_off (why := why) hx hr hh
    exact ⟨_, hb, rfl, ⟨_, rfl, fun _ => ⟨why, rfl⟩⟩, fun _ => rfl, fun _ _ => ⟨rfl, rfl⟩, .inr rfl⟩

theorem State.modReloc_link {f : Reloc → Reloc} (hx : s.link l = some x) (hr : x.reloc = some r) :
    (s.modReloc l f).link l = some { x with reloc := some (f r) } := by
  rw [State.modReloc, State.link_modLink_self hx, hr]
  rfl

theorem State.modReloc_plan (l : Fin 8) (f : Reloc → Reloc) (s : State) : (s.modReloc l f).plan = s.plan :=
  State.modLink_plan l _ s

theorem Reloc.wait_same (r : Reloc) : r.Same r.wait := ⟨rfl, rfl, rfl, rfl⟩
theorem Reloc.claiming_same (sp : Span) (r : Reloc) : r.Same (r.claiming sp) := ⟨rfl, rfl, rfl, rfl⟩
theorem Reloc.lose_same (sp : Span) (r : Reloc) : r.Same (r.lose sp) := ⟨rfl, rfl, rfl, rfl⟩

theorem State.askPlan_full_iff (h : s.askPlan l x r = .full) : s.plan.overfull = true := by
  by_contra hn
  have hf : s.plan.overfull = false := by simpa using hn
  unfold State.askPlan State.pinCheck State.searchStart at h
  simp only [hf, Bool.false_eq_true, if_false] at h
  repeat' split at h
  all_goals cases h

theorem State.askPlan_current (h : s.askPlan l x r = .current) : r.cause = .taskPin := by
  by_contra hn
  unfold State.askPlan State.searchStart at h
  rw [if_neg hn] at h
  repeat' split at h
  all_goals cases h

/-- After a search the relocation waits, claims or is over. -/
theorem State.searchRun_stands (n : Nat) : ∀ {s : State} {x : LinkRec} {r : Reloc}, s.link l = some x →
    x.reloc = some r → r.phase ≠ .waiting →
    ∃ z, (State.searchRun l n s).link l = some z ∧ x.Stands s.plan.overfull r z := by
  induction n with
  | zero =>
    intro s x r hx hr hp
    exact ⟨x, hx, .inl ⟨r, x.announcedBad, by rw [← hr], .refl r, fun _ => hp⟩⟩
  | succ n ih =>
    intro s x r hx hr hp
    cases ha : s.askPlan l x r with
    | full =>
      rw [State.searchRun_full hx hr ha]
      have ho := State.askPlan_full_iff ha
      exact ⟨_, State.modReloc_link hx hr, .inl ⟨r.wait, x.announcedBad, rfl, r.wait_same,
        fun h => absurd (ho.symm.trans h) (by simp)⟩⟩
    | none =>
      rw [State.searchRun_none hx hr ha]
      obtain ⟨z, hz, ho⟩ := State.relocFail_over (why := r.noWay) (force := false) hx hr
      exact ⟨z, hz, .inr ho⟩
    | current =>
      rw [State.searchRun_current hx hr ha]
      have hpin := State.askPlan_current ha
      exact ⟨_, State.endReloc_link .done hx, .inr ⟨rfl, ⟨_, rfl, fun h => absurd hpin h⟩, fun h => h,
        fun h => absurd hpin h, .inl rfl⟩⟩
    | span sp =>
      rw [State.searchRun_span hx hr ha]
      have hv := State.modReloc_link (f := Reloc.claiming sp) hx hr
      obtain ⟨b, hb⟩ := (State.claimStart_near (l := l) sp l _).some hv
      have hov := State.claimStart_overfull (l := l) sp (s.modReloc l (Reloc.claiming sp))
      rw [State.modReloc_plan] at hov
      have hfull := State.claimStart_full (l := l) (sp := sp) (s := s.modReloc l (Reloc.claiming sp))
      rw [State.modReloc_plan] at hfull
      generalize (s.modReloc l (Reloc.claiming sp)).claimStart l sp = c at hb hov hfull
      have hs := r.claiming_same sp
      have fail {u : State} {y : Reloc} {d : Bool} (why : FailCause) (hy : r.Same y)
          (hu : u.link l = some { x with announcedBad := d, reloc := some y }) :
          ∃ z, (u.relocFail l why false).link l = some z ∧ x.Stands s.plan.overfull r z := by
        obtain ⟨z, hz, ho⟩ := State.relocFail_over (why := why) (force := false) hu rfl
        exact ⟨z, hz, .inr (ho.of_near hy)⟩
      unfold State.claimAnswered
      split
      · exact ⟨_, hb, .inl ⟨_, b, rfl, hs, fun _ h => by cases h⟩⟩
      · rename_i hc
        have ho := hfull hc
        exact ⟨_, State.modReloc_link hb rfl, .inl ⟨_, b, rfl, hs.trans (Reloc.wait_same _),
          fun h => absurd (ho.symm.trans h) (by simp)⟩⟩
      · exact fail _ hs hb
      · split
        · exact fail _ hs hb
        · have hl := State.modReloc_link (f := Reloc.lose sp) hb rfl
          dsimp only
          split
          · exact fail _ (hs.trans (Reloc.lose_same sp _)) hl
          · have hm := State.modReloc_link (f := fun r => { r with phase := .search }) hl rfl
            obtain ⟨z, hz, ho⟩ := ih hm rfl (by simp)
            rw [State.modReloc_plan, State.modReloc_plan, hov] at ho
            exact ⟨z, hz, LinkRec.Stands.of_near (x := x) (b := b)
              (y := { Reloc.lose sp (r.claiming sp) with phase := .search })
              (hs.trans ((Reloc.lose_same sp _).trans ⟨rfl, rfl, rfl, rfl⟩)) ho⟩

/-- A relocation that enters SEARCH (R119). -/
theorem State.enterSearch_stands (hx : s.link l = some x) (hr : x.reloc = some r) :
    ∃ z, (s.enterSearch l).link l = some z ∧ x.Stands s.plan.overfull r z := by
  obtain ⟨z, hz, ho⟩ := State.searchRun_stands (l := l) 5 (State.modReloc_link (f := fun r => { r with phase := .search })
    hx hr) rfl (by simp)
  rw [State.modReloc_plan] at ho
  exact ⟨z, hz, LinkRec.Stands.of_near (x := x) (b := x.announcedBad) (y := { r with phase := .search })
    ⟨rfl, rfl, rfl, rfl⟩ ho⟩

/-- The relocation that a start gives a link (R118). -/
def started (cause : Cause) (x : LinkRec) (cand : Option Span) (task override : Bool) : Reloc :=
  { cause, phase := .search, old := x.current, cand, excluded := [], attempts := 0, reason := none, task, override }

/-- The record of a link that a relocation starts on. -/
def LinkRec.starting (r : Reloc) (x : LinkRec) : LinkRec :=
  { x with acquireRetry := none, pinned := x.pinned || decide (r.cause = .taskPin), reloc := some r }

theorem State.startReloc_eq {cause : Cause} {cand : Option Span} {task override : Bool} (hx : s.link l = some x)
    (ha : s.phase = .active) (hr : x.reloc = none) : s.startReloc l cause cand task override =
      (s.setLink l (x.starting (started cause x cand task override))).enterSearch l := by
  simp only [State.startReloc, hx]
  rw [if_pos ⟨ha, hr⟩]
  rfl

theorem State.startReloc_stands {cause : Cause} {cand : Option Span} {task override : Bool} (hx : s.link l = some x)
    (ha : s.phase = .active) (hr : x.reloc = none) :
    ∃ z, (s.startReloc l cause cand task override).link l = some z ∧
      (x.starting (started cause x cand task override)).Stands s.plan.overfull (started cause x cand task override) z := by
  rw [State.startReloc_eq hx ha hr]
  exact State.enterSearch_stands (State.link_setLink_self l _ s) rfl

end Sys2Proof.Machine
end

section
/-! SUPPORT. The tasks of the links (R184, R185) and the hold-offs of a link (R105, R112, R128). -/

namespace Sys2Proof.Machine

open Says

variable {l : Fin 8} {x y z : LinkRec} {r : Reloc} {p : BusPort} {k : TaskRx} {s t u v w : State} {sp : Span}

/-! ## A loss relocation -/

theorem State.lossReloc_idle (hx : s.link l = some x) (h : x.state ≠ .lost ∨ x.pinned = true) : s.lossReloc l = s := by
  simp only [State.lossReloc, hx]
  refine if_neg fun ⟨h1, h2⟩ => ?_
  rcases h with h | h
  · exact h h1
  · rw [h] at h2
    cases h2

theorem State.lossReloc_starts (hx : s.link l = some x) (hl : x.state = .lost) (hp : x.pinned = false) :
    s.lossReloc l = s.startReloc l .lost none false false := by
  simp only [State.lossReloc, hx]
  exact if_pos ⟨hl, hp⟩

/-- Operations that write the plan, the links and the radio port. -/
def Writes.moves : Writes := { plan := true, replica := false, rport := true, tally := false, tbk := false }

theorem Evolves.moves_kept (h : Evolves Writes.moves s t) : Says.stationKept s t ∧ t.tally = s.tally ∧ t.tbk = s.tbk ∧
    t.plan.peers = s.plan.peers ∧ t.plan.quarantine = s.plan.quarantine ∧ t.plan.overfull = s.plan.overfull := by
  obtain ⟨h1, h2, h3, -⟩ := h.replica rfl
  exact ⟨h.stationKept, h.tally rfl, h.tbk rfl, h1, h2, h3⟩

/-! ## The tasks that set (R184) -/

theorem Taken.link (h : Taken c p k s u) (hy : s.link l = some y) : u.link l = some y := by
  rw [h.eq]
  exact hy

theorem setClass_answers {c : Nat} (h : tasked .setClass p k s) (hl : fin8 8 k.params 0 = some l)
    (hy : s.link l = some y) (hc : ranged 0 3 k.params 1 = some c) :
    ∃ t : State, exec (.setClass p k) s = .next t ∧ stationKept s t ∧ t.plan = s.plan ∧ t.tally = s.tally ∧
      talkKept s t ∧ radioKept s t ∧ t.lsup = { s.lsup with links := s.lsup.links.set l (some { y with cls := c }) } ∧
      (s.biu.queue.length < 16 → answered false .setClass k .done [] s t) := by
  obtain ⟨u, t, hu, he, h1, ⟨-, k2, k3, k4, k5, k6⟩, h3⟩ := exec_changed (f := fun u => u.setLink l { y with cls := c })
    (ret := .done) (data := fun _ => []) h
    (fun u hu => by
      have hl' : fin8 8 (task .setClass k).params 0 = some l := hl
      simp only [State.runTask, State.setClass, State.taskLink_some hl' (hu.link hy), hc])
    (fun u _ => ⟨rfl, rfl, rfl, rfl, rfl, rfl⟩)
  obtain ⟨f1, f2, f3, f4, f5, f6, f7⟩ := hu.fields
  refine ⟨t, he, h1, k2.trans f3, k4.trans f5, (talkKept.of_eq f6).trans k5, (radioKept.of_eq f7).trans k6,
    k3.trans ?_, fun hq => h3 (hu.queue ▸ hq)⟩
  rw [← f4]
  rfl

theorem setSample_answers {n : Nat} (h : tasked .setSample p k s) (hl : fin8 8 k.params 0 = some l)
    (hy : s.link l = some y) (hn : u16 k.params 1 = some n) (h50 : 50 ≤ n) (h1000 : n ≤ 1000) :
    ∃ t : State, exec (.setSample p k) s = .next t ∧ stationKept s t ∧ t.plan = s.plan ∧ t.tally = s.tally ∧
      talkKept s t ∧ radioKept s t ∧
      (y.reloc = none → t.lsup = { s.lsup with links := s.lsup.links.set l (some { y with sampleMs := n }) } ∧
        (s.biu.queue.length < 16 → answered false .setSample k .done [] s t)) ∧
      (y.reloc ≠ none → t.lsup = s.lsup ∧ (s.biu.queue.length < 16 → answered false .setSample k .busy [] s t)) := by
  have hl' : fin8 8 (task .setSample k).params 0 = some l := hl
  have hn' : u16 (task .setSample k).params 1 = some n := hn
  by_cases hr : y.reloc = none
  · obtain ⟨u, t, hu, he, h1, ⟨-, k2, k3, k4, k5, k6⟩, h3⟩ := exec_changed
      (f := fun u => u.setLink l { y with sampleMs := n }) (ret := .done) (data := fun _ => []) h
      (fun u hu => by
        simp only [State.runTask, State.setSample, State.taskLink_some hl' (hu.link hy), hn']
        rw [if_pos ⟨h50, h1000⟩, if_neg (by simp [hr])])
      (fun u _ => ⟨rfl, rfl, rfl, rfl, rfl, rfl⟩)
    obtain ⟨f1, f2, f3, f4, f5, f6, f7⟩ := hu.fields
    refine ⟨t, he, h1, k2.trans f3, k4.trans f5, (talkKept.of_eq f6).trans k5, (radioKept.of_eq f7).trans k6,
      fun _ => ⟨k3.trans ?_, fun hq => h3 (hu.queue ▸ hq)⟩, fun hn => absurd hr hn⟩
    rw [← f4]
    rfl
  · obtain ⟨u, t, hu, -, he, h1, ⟨-, k2, k3, k4, k5, k6⟩, h3⟩ := exec_answered (ret := .busy) (data := fun _ => []) h
      (fun u hu => by
        simp only [State.runTask, State.setSample, State.taskLink_some hl' (hu.link hy), hn']
        rw [if_pos ⟨h50, h1000⟩, if_pos (by simpa [Option.isSome_iff_ne_none] using hr)]
        rfl)
    exact ⟨t, he, h1, k2, k4, k5, k6, fun hn => absurd hn hr, fun _ => ⟨k3, h3⟩⟩

/-- What UNPIN_LINK does to the link (R105, R184). -/
def State.unpin (l : Fin 8) (y : LinkRec) (s : State) : State :=
  if y.pinned then (s.setLink l { y with pinned := false }).lossReloc l else s.setLink l { y with pinned := false }

theorem State.unpin_evolves (hy : s.link l = some y) : Evolves Writes.moves s (s.unpin l y) := by
  have h : Evolves Writes.moves s (s.setLink l { y with pinned := false }) :=
    State.setLink_keep_evolves hy rfl (.refl _ s)
  unfold State.unpin
  split
  · exact State.lossReloc_evolves rfl rfl h
  · exact h

theorem State.unpin_pinned (l : Fin 8) (y : LinkRec) (s : State) : ∃ z, (s.unpin l y).link l = some z ∧ z.pinned = false := by
  have hx := State.link_setLink_self l { y with pinned := false } s
  unfold State.unpin
  split
  · obtain ⟨z, hz, ht⟩ := (State.lossReloc_relocates (l := l) (.refl (s := s.setLink l { y with pinned := false }))).tame hx
    exact ⟨z, hz, ht.pinned⟩
  · exact ⟨_, hx, rfl⟩

theorem State.unpin_idle (h : y.pinned = false ∨ y.state ≠ .lost) :
    s.unpin l y = s.setLink l { y with pinned := false } := by
  unfold State.unpin
  split
  · rename_i hp
    refine State.lossReloc_idle (State.link_setLink_self l _ s) (.inl (h.resolve_left ?_))
    simp [hp]
  · rfl

theorem unpinLink_answers (h : tasked .unpinLink p k s) (hl : fin8 8 k.params 0 = some l) (hy : s.link l = some y) :
    ∃ t : State, exec (.unpinLink p k) s = .next t ∧ stationKept s t ∧ t.tally = s.tally ∧ talkKept s t ∧
      (∃ z : LinkRec, t.lsup.links[l] = some z ∧ z.pinned = false) ∧
      (y.pinned = false ∨ y.state ≠ .lost → t.plan = s.plan ∧ radioKept s t ∧
        t.lsup = { s.lsup with links := s.lsup.links.set l (some { y with pinned := false }) } ∧
        (s.biu.queue.length < 16 → answered false .unpinLink k .done [] s t)) := by
  obtain ⟨u, t, hu, he, h1, ⟨-, k2, k3, k4, k5, k6⟩, h3⟩ := exec_changed (f := State.unpin l y)
    (ret := .done) (data := fun _ => []) h
    (fun u hu => by
      have hl' : fin8 8 (task .unpinLink k).params 0 = some l := hl
      simp only [State.runTask, State.unpinLink, State.taskLink_some hl' (hu.link hy)]
      rfl)
    (fun u hu => (State.unpin_evolves (hu.link hy)).stationKept)
  obtain ⟨f1, f2, f3, f4, f5, f6, f7⟩ := hu.fields
  obtain ⟨-, e2, e3, -⟩ := (State.unpin_evolves (hu.link hy)).moves_kept
  obtain ⟨z, hz, hzp⟩ := u.unpin_pinned l y
  refine ⟨t, he, h1, k4.trans (e2.trans f5), (talkKept.of_eq (e3.trans f6)).trans k5, ⟨z, by rw [k3]; exact hz, hzp⟩,
    fun hi => ?_⟩
  have hidle := State.unpin_idle (l := l) (s := u) hi
  refine ⟨k2.trans (by rw [hidle]; exact f3), (radioKept.of_eq (by rw [hidle]; exact f7)).trans k6,
    k3.trans (by rw [hidle, ← f4]; rfl), fun hq => h3 (by rw [hidle]; exact hu.queue ▸ hq)⟩

/-- Settles O40: the tasks that set a link's class, its sample interval and its pin. -/
theorem linkSettingTasks : Obligations.LinkSettingTasks := by
  refine ⟨fun p k l y c s h hl hy hc => setClass_answers h hl hy hc,
    fun p k l y n s h hl hy hn h50 h1000 => setSample_answers h hl hy hn h50 h1000,
    fun p k l y s h hl hy => unpinLink_answers h hl hy, fun c p k l s hc h hl hn => ?_⟩
  obtain ⟨u, t, hu, -, he, h1, h2, h3⟩ := exec_answered (ret := .refused) (data := fun _ => []) h fun u hu => by
    have hl' : fin8 8 (task c k).params 0 = some l := hl
    have hn' : u.link l = none := by rw [hu.eq]; exact hn
    have ht := State.taskLink_none hl' hn'
    rcases hc with rfl | rfl | rfl | rfl
    · simp only [State.runTask, State.setClass, ht]
      rfl
    · simp only [State.runTask, State.setSample, ht]
      rfl
    · simp only [State.runTask, State.unpinLink, ht]
      rfl
    · simp only [State.runTask, State.readLink, ht]
      rfl
  exact ⟨t, he, h1, h2, h3⟩

/-! ## The long tasks (R181, R185) -/

/-- The slot that a long task takes. -/
def longSlot (c : TaskCode) (k : TaskRx) (l : Fin 8) (s : State) : LongTask :=
  { origin := k.origin.toNat, tag := k.tag.toNat, code := c, link := l, timer := s.now + 10000000 }

/-- A long task's relocation has been started on its link, the replica overfull or not. -/
theorem exec_long {c : TaskCode} {cause : Cause} {cand : Option Span} {override : Bool} (h : tasked c p k s)
    (hy : s.link l = some y) (hr : y.reloc = none)
    (hrun : ∀ u, Taken c p k s u → u.runTask c (task c k) = u.startLong (task c k) c l cause cand override) :
    ∃ t : State, exec (taskArrival c p k) s = .next t ∧ stationKept s t ∧ t.tally = s.tally ∧ talkKept s t ∧
      (∃ z : LinkRec, t.lsup.links[l] = some z ∧ z.pinned = (y.pinned || decide (cause = .taskPin)) ∧
        (y.starting (started cause y cand true override)).Stands s.plan.overfull (started cause y cand true override) z ∧
        (s.plan.overfull = true → (cause = .taskPin ↔ cand.isSome = true) →
          z.reloc = some (waiting cause y cand true override))) ∧
      (s.plan.overfull = true → (cause = .taskPin ↔ cand.isSome = true) → t.plan = s.plan ∧ radioKept s t ∧
        t.mgmt.longTask = some (longSlot c k l s)) := by
  obtain ⟨u, t, hu, ha, he⟩ := exec_task_after h
  obtain ⟨f1, f2, f3, f4, f5, f6, f7⟩ := hu.fields
  obtain ⟨v, hv⟩ : ∃ v : State, v = { u with mgmt := { u.mgmt with longTask := some (longSlot c k l s) } } := ⟨_, rfl⟩
  have hst : u.startLong (task c k) c l cause cand override = v.startReloc l cause cand true override := by
    rw [hv, State.startLong, longSlot, State.after, hu.now]
    rfl
  rw [hrun u hu, hst] at ha
  have hvy : v.link l = some y := by rw [hv]; exact hu.link hy
  have hva : v.phase = .active := by rw [hv]; exact f1.trans h.1
  have hvo : v.plan.overfull = s.plan.overfull := by rw [hv, ← f3]
  have huv : stationKept u v := by rw [hv]; exact ⟨rfl, rfl, rfl, rfl, rfl, rfl⟩
  obtain ⟨e1, e2, e3, -⟩ := (State.startReloc_evolves (l := l) (c := cause) (sp := cand) (a := true) (b := override)
    rfl rfl (Evolves.refl Writes.moves v)).moves_kept
  have hfull (ho : s.plan.overfull = true) (hc : cause = .taskPin ↔ cand.isSome = true) :=
    State.startReloc_full (task := true) (override := override) hvy hva hr (hvo.trans ho) hc
  obtain ⟨z, hz, hzs⟩ := State.startReloc_stands (cause := cause) (cand := cand) (task := true) (override := override)
    hvy hva hr
  have hpin : z.pinned = (y.pinned || decide (cause = .taskPin)) := by
    rw [State.startReloc_eq hvy hva hr] at hz
    obtain ⟨z', hz', ht⟩ := (State.enterSearch_relocates (l := l) (.refl (s := v.setLink l _))).tame
      (State.link_setLink_self l (y.starting (started cause y cand true override)) v)
    rw [hz] at hz'
    rw [Option.some.inj hz', ht.pinned]
    rfl
  rw [hvo] at hzs
  refine ⟨t, he, ((hu.stationKept.trans huv).trans e1).trans ha.station, ha.tally.trans (e2.trans (by rw [hv]; exact f5)),
    (talkKept.of_eq (e3.trans (by rw [hv]; exact f6))).trans ha.talk,
    ⟨z, by rw [ha.lsup]; exact hz, hpin, hzs, fun ho hc => ?_⟩, fun ho hc => ⟨?_, ?_, ?_⟩⟩
  · rw [hfull ho hc, State.link_setLink_self] at hz
    rw [← Option.some.inj hz]
  · rw [ha.plan, hfull ho hc, hv]
    exact f3
  · refine radioKept.trans (t := v.startReloc l cause cand true override) (.of_eq ?_) ha.radio
    rw [hfull ho hc, hv]
    exact f7
  · rw [ha.longTask, hfull ho hc, hv]
    rfl

theorem LinkRec.Stands.pin {o : Bool} (h : x.Stands o r z) :
    (∃ y : Reloc, z.reloc = some y ∧ y.cause = r.cause) ∨ z.reloc = none ∧ ∃ e, z.lastOutcome = some (r.cause, e) := by
  rcases h with ⟨y, b, rfl, hs, -⟩ | h
  · exact .inl ⟨y, rfl, hs.cause⟩
  · obtain ⟨e, he, -⟩ := h.outcome
    exact .inr ⟨h.reloc, e, he⟩

/-- Settles O41: a long task is refused, or starts its relocation. -/
theorem longTasksStartRelocations : Obligations.LongTasksStartRelocations := by
  constructor
  · intro p k l y sp s h hsp hl hy
    have hl' : fin8 8 (task .pinLink k).params 0 = some l := hl
    have hsp' : spanAt (task .pinLink k).params 1 = some sp := hsp
    refine ⟨fun hne => ?_, fun hb hw hbusy => ?_, fun hb hw hlong hr => ?_⟩
    · obtain ⟨u, t, hu, -, he, h1, h2, h3⟩ := exec_answered (ret := .refused) (data := fun _ => []) h fun u hu => by
        simp only [State.runTask, State.pinLink, hsp', State.taskLink_some hl' (hu.link hy)]
        rw [if_pos hne]
        rfl
      exact ⟨t, he, h1, h2, h3⟩
    · obtain ⟨u, t, hu, -, he, h1, h2, h3⟩ := exec_answered (ret := .busy) (data := fun _ => []) h fun u hu => by
        simp only [State.runTask, State.pinLink, hsp', State.taskLink_some hl' (hu.link hy)]
        rw [if_neg (by simp [hb, hw]), if_pos (by rw [hu.longTask]; exact hbusy)]
        rfl
      exact ⟨t, he, h1, h2, h3⟩
    · obtain ⟨t, he, h1, h2, h3, ⟨z, hz, hp, hs, hf⟩, h5⟩ := exec_long (cause := .taskPin) (cand := some sp)
        (override := false) h hy hr fun u hu => by
          simp only [State.runTask, State.pinLink, hsp', State.taskLink_some hl' (hu.link hy)]
          rw [if_neg (by simp [hb, hw]), if_neg (by rw [hu.longTask, hlong, hr]; simp)]
      exact ⟨t, he, h1, h2, h3, ⟨z, hz, by simpa using hp, hs.pin, fun ho => hf ho (by simp)⟩,
        fun ho => h5 ho (by simp)⟩
  · intro p k l y override s h hl hfl hy
    have hl' : fin8 8 (task .moveLink k).params 0 = some l := hl
    have hfl' : flagAt (task .moveLink k).params 1 = some override := hfl
    refine ⟨fun hbusy => ?_, fun hlong hr hno => ?_, fun hlong hr hup hpin hair ho => ?_⟩
    · obtain ⟨u, t, hu, -, he, h1, h2, h3⟩ := exec_answered (ret := .busy) (data := fun _ => []) h fun u hu => by
        simp only [State.runTask, State.moveLink, hfl', State.taskLink_some hl' (hu.link hy)]
        rw [if_pos (by rw [hu.longTask]; exact hbusy)]
        rfl
      exact ⟨t, he, h1, h2, h3⟩
    · obtain ⟨u, t, hu, -, he, h1, h2, h3⟩ := exec_answered (ret := .refused) (data := fun _ => []) h fun u hu => by
        obtain ⟨-, -, -, -, f5, -⟩ := hu.fields
        simp only [State.runTask, State.moveLink, hfl', State.taskLink_some hl' (hu.link hy)]
        rw [if_neg (by rw [hu.longTask, hlong, hr]; simp), if_pos (by rw [f5]; exact hno)]
        rfl
      exact ⟨t, he, h1, h2, h3⟩
    · obtain ⟨t, he, h1, h2, h3, ⟨z, hz, -, -, hf⟩, h5⟩ := exec_long (cause := .taskMove) (cand := none)
        (override := override) h hy hr fun u hu => by
          obtain ⟨-, -, -, -, f5, -⟩ := hu.fields
          simp only [State.runTask, State.moveLink, hfl', State.taskLink_some hl' (hu.link hy)]
          rw [if_neg (by rw [hu.longTask, hlong, hr]; simp), if_neg]
          rw [f5, hup, hpin]
          rcases hair with h | h <;> simp [h]
      obtain ⟨h5, h6, h7⟩ := h5 ho (by simp)
      exact ⟨t, he, h1, h2, h3, h5, h6, ⟨z, hz, hf ho (by simp)⟩, h7⟩

end Sys2Proof.Machine
end

section
/-! SUPPORT. The sightings of the station's own, and the hold-offs and the acquire retry of a link (R105, R112, R128). -/

namespace Sys2Proof.Machine

open Says

variable {l : Fin 8} {x y z : LinkRec} {sp : Span} {s t u v w : State}

/-! ## Sightings -/

/-- The offer of a sighting (R111). -/
def sightingOffer (l : Fin 8) (sp : Span) (bad : Bool) (n : Nat) : Offer :=
  { kind := .sighting, urgent := false, target := 0, body := Span.bytes sp ++ [byte n], key := some (.sighting sp),
    block := .lsup, ticket := .sighting l sp bad }

/-- A link that has issued a sighting (R111, R112). -/
def LinkRec.announcing (a : Bool) (now : Nat) (x : LinkRec) : LinkRec :=
  { x with announcedBad := a, sightingHoldOff := some (now + 500000) }

/-- LSUP once a sighting is issued (R109, R111). -/
def Lsup.sighted (l : Fin 8) (sp : Span) (n : Nat) (y : LinkRec) (x : Lsup) : Lsup :=
  { x with
    links := x.links.set l (some y)
    histories := x.histories.set sp.band.index (shiftIn (decide (1 ≤ n)) x.histories[sp.band.index]) }

/-- A sighting of a link has been issued; its announced state is `a`. -/
structure Sighted (l : Fin 8) (x : LinkRec) (sp : Span) (a : Bool) (n : Nat) (s t : State) : Prop where
  eq : t = { s with
    biu := { s.biu with queue := t.biu.queue, nextAge := t.biu.nextAge }
    plan := (s.takeSighting sp n).plan
    lsup := s.lsup.sighted l sp n (x.announcing a s.now)
    mgmt := { s.mgmt with counters := t.mgmt.counters } }

theorem State.takeSighting_queued {q : List QueueEntry} {g n : Nat} {c : Vector Counter 8} (s : State) :
    State.takeSighting sp n { s with
      biu := { s.biu with queue := q, nextAge := g }, mgmt := { s.mgmt with counters := c } } = { s with
      biu := { s.biu with queue := q, nextAge := g }
      plan := (s.takeSighting sp n).plan
      mgmt := { s.mgmt with counters := c } } := by
  rcases Nat.lt_or_ge n s.image.quarThreshold with h | h
  · rw [State.takeSighting_below (by exact h), State.takeSighting_below h]
  · rw [State.takeSighting_reaching (by exact h), State.takeSighting_reaching h]
    rfl

theorem LinkRec.sightingRefused_announcing (sp : Span) (a : Bool) (now : Nat) (x : LinkRec) :
    ∃ b, (if (x.announcing a now).current = some sp ∧ (x.announcing a now).announcedBad = a
      then { x.announcing a now with announcedBad := !a } else x.announcing a now) = x.announcing b now := by
  split
  · exact ⟨!a, rfl⟩
  · exact ⟨a, rfl⟩

theorem State.issueSighting_sighted (hx : s.link l = some x) (bad : Bool) (n : Nat) :
    ∃ a, Sighted l x sp a n s (s.issueSighting l sp bad n) ∧
      (s.phase = .active → s.biu.queue.length < 16 → a = bad ∧
        Holds (sightingOffer l sp bad n) s (s.issueSighting l sp bad n)) := by
  have ho := State.offer_normal (o := sightingOffer l sp bad n) rfl s
  have hh (ha : s.phase = .active) (hq : s.biu.queue.length < 16) :=
    State.offer_holds (o := sightingOffer l sp bad n) (State.takesOffers_of_active ha) hq
  have hi : s.issueSighting l sp bad n = (fun r : State × Option Nat =>
      let u := ((r.1.takeSighting sp n).fold sp n).modLink l (LinkRec.announcing bad s.now)
      if r.2.isSome then u else u.sightingRefused l sp bad) (s.offer (sightingOffer l sp bad n)) := rfl
  rw [hi]
  generalize s.offer (sightingOffer l sp bad n) = r at ho hh
  obtain ⟨u, g⟩ := r
  dsimp only at ho hh ⊢
  generalize u.biu.queue = q, u.biu.nextAge = k, u.mgmt.counters = c at ho
  subst ho
  have hu : ((State.takeSighting sp n { s with
      biu := { s.biu with queue := q, nextAge := k }, mgmt := { s.mgmt with counters := c } }).fold sp n).modLink l
        (LinkRec.announcing bad s.now) = { s with
      biu := { s.biu with queue := q, nextAge := k }
      plan := (s.takeSighting sp n).plan
      lsup := s.lsup.sighted l sp n (x.announcing bad s.now)
      mgmt := { s.mgmt with counters := c } } := by
    rw [State.takeSighting_queued, State.modLink_of_some (x := x) (by exact hx)]
    rfl
  rw [hu]
  split
  · exact ⟨bad, ⟨rfl⟩, fun ha hq => ⟨rfl, (hh ha hq).1⟩⟩
  · rename_i hg
    obtain ⟨b, hb⟩ := x.sightingRefused_announcing sp bad s.now
    refine ⟨b, ⟨?_⟩, fun ha hq => absurd (hh ha hq).2 hg⟩
    rw [State.sightingRefused, State.modLink_of_some (x := x.announcing bad s.now) (getFin_set_self _ _ _), hb]
    simp [State.setLink, Lsup.sighted]

/-! ## The hold-offs of a link and its acquire retry -/

theorem exec_relocHoldOff (hx : s.link l = some x) {d : Nat} (hd : x.relocHoldOff = some d) :
    exec (.relocationHoldOffExpiry l) s =
      .next (((s.reach d).setLink l { x with relocHoldOff := none }).lossReloc l).finish := by
  rw [exec_expiry (d := d) (f := State.endRelocHoldOff l) rfl (by simp [State.linkTimer, hx, hd]), State.endRelocHoldOff,
    State.modLink_of_some (x := x) (by exact hx)]

theorem exec_acquireRetry (hx : s.link l = some x) {d : Nat} (hd : x.acquireRetry = some d) :
    exec (.acquireRetryExpiry l) s = .next (if x.state = .acquiring then
      ((s.reach d).setLink l { x with acquireRetry := none }).startReloc l .acquire none false false
      else (s.reach d).setLink l { x with acquireRetry := none }).finish := by
  have hx' : (s.reach d).link l = some x := hx
  rw [exec_expiry (d := d) (f := State.retryAcquire l) rfl (by simp [State.linkTimer, hx, hd])]
  simp only [State.retryAcquire, hx']

theorem exec_sightingHoldOff (hx : s.link l = some x) {d : Nat} (hd : x.sightingHoldOff = some d) :
    exec (.sightingHoldOffExpiry l) s = .next ((s.reach d).endSightingHoldOff l).finish :=
  exec_expiry (d := d) (f := State.endSightingHoldOff l) rfl (by simp [State.linkTimer, hx, hd])

theorem State.endSightingHoldOff_still (hx : s.link l = some x) (hs : x.sights x.previousBad = none) :
    s.endSightingHoldOff l = s.setLink l { x with sightingHoldOff := none } := by
  simp only [State.endSightingHoldOff, hx, hs]

theorem State.endSightingHoldOff_issues (hx : s.link l = some x) (hs : x.sights x.previousBad = some sp) :
    s.endSightingHoldOff l =
      (s.setLink l { x with sightingHoldOff := none }).issueSighting l sp x.previousBad x.lastSeverity := by
  simp only [State.endSightingHoldOff, hx, hs]

theorem State.startReloc_restarts {cause : Cause} {x y : LinkRec} (hy : y.reloc = none) (hc : cause ≠ .taskPin)
    (ha : s.phase = .active) (ho : s.plan.overfull = true) (h : ({ y with acquireRetry := none } : LinkRec) = x) :
    (s.setLink l y).startReloc l cause none false false =
      s.setLink l { x with reloc := some (waiting cause y none false false) } := by
  rw [State.startReloc_full (State.link_setLink_self l y s) ha hy ho (by simp [hc]), State.setLink_setLink]
  subst h
  simp [hc]

theorem Sighted.quarantined {a : Bool} {n : Nat} (h : Sighted l x sp a n s t) :
    (n < s.image.quarThreshold → t.plan = s.plan) ∧
      (s.image.quarThreshold ≤ n → ∃ q ∈ t.plan.quarantine, q.span = sp ∧
        q.expiry = s.now + s.image.quarTimeS * 1000000) := by
  have hp : t.plan = (s.takeSighting sp n).plan := by rw [h.eq]
  rw [hp]
  refine ⟨fun hn => by rw [State.takeSighting_below hn], fun hn => ?_⟩
  rw [State.takeSighting_reaching hn]
  exact ⟨_, List.mem_append_right _ (List.mem_singleton_self _), rfl, rfl⟩

theorem Sighted.planKept {a : Bool} {n : Nat} (h : Sighted l x sp a n s t) :
    t.plan.own = s.plan.own ∧ t.plan.peers = s.plan.peers := by
  have hp : t.plan = (s.takeSighting sp n).plan := by rw [h.eq]
  rw [hp, State.takeSighting_frame]
  exact ⟨rfl, rfl⟩

/-- Settles O56: the hold-offs of a link and the acquire retry. -/
theorem linkHoldOffsAndRetries : Obligations.LinkHoldOffsAndRetries := by
  refine ⟨fun l x d s hx hd => ⟨fun h => ?_, fun hl hp hr ha ho => ?_⟩,
    fun l x d s hx hd => ⟨fun h => ?_, fun sp hne hst hsp ha hq => ?_⟩,
    fun l x d s hx hd => ⟨fun h => ?_, fun hst hr ha ho => ?_⟩⟩
  · rw [exec_relocHoldOff hx hd, State.lossReloc_idle (x := { x with relocHoldOff := none }) (State.link_setLink_self l _ _) h]
    rfl
  · rw [exec_relocHoldOff hx hd, State.lossReloc_starts (x := { x with relocHoldOff := none }) (State.link_setLink_self l _ _) hl hp,
      State.startReloc_restarts (s := s.reach d) (cause := .lost) (y := { x with relocHoldOff := none }) hr (by decide) ha ho rfl]
    rfl
  · rw [exec_sightingHoldOff hx hd, State.endSightingHoldOff_still (s := s.reach d) (x := x) hx (by rw [LinkRec.sights, if_neg (by simp [h])])]
    rfl
  · have hsights : x.sights x.previousBad = some sp := by
      rw [LinkRec.sights, if_pos ⟨hst, fun h => hne h.symm⟩, hsp]
    obtain ⟨u, hu⟩ : ∃ u : State, u = (s.reach d).setLink l { x with sightingHoldOff := none } := ⟨_, rfl⟩
    obtain ⟨a, hs, hw⟩ := State.issueSighting_sighted (s := u) (sp := sp) (by rw [hu]; exact State.link_setLink_self l _ _)
      x.previousBad x.lastSeverity
    obtain ⟨ha', hw'⟩ := hw (by rw [hu]; exact ha) (by rw [hu]; exact hq)
    rw [exec_sightingHoldOff hx hd, State.endSightingHoldOff_issues (s := s.reach d) (x := x) hx hsights, ← hu]
    obtain ⟨v, hv⟩ : ∃ v, v = u.issueSighting l sp x.previousBad x.lastSeverity := ⟨_, rfl⟩
    subst ha'
    rw [← hv] at hs hw' ⊢
    have hf := v.finish_after
    obtain ⟨hq1, hq2⟩ := hs.quarantined
    obtain ⟨ho, hp⟩ := hs.planKept
    have heq := hs.eq
    rw [hu] at heq hq1 hq2 ho hp
    refine ⟨v.finish, rfl, stationKept.trans (t := v) ?_ hf.station, ?_, ?_, ?_, ?_, ?_, ?_, ?_, ?_, ?_, ?_, ?_⟩
    · rw [heq]; exact ⟨rfl, rfl, rfl, rfl, rfl, rfl⟩
    · rw [hf.now, heq]; rfl
    · rw [hf.lsup, heq]; simp [Lsup.sighted, State.setLink, LinkRec.announcing, State.reach]
    · rw [hf.lsup, heq, ← shiftIn_severity]; rfl
    · exact hf.waits (hw'.waits rfl rfl (by rw [hu]; rfl) fun e he => he)
    · exact fun h => hf.plan.trans (hq1 h)
    · rw [hf.plan]; exact hq2
    · rw [hf.plan]; exact ho
    · rw [hf.plan]; exact hp
    · rw [hf.tally, heq]; rfl
    · exact talkKept.trans (t := v) (.of_eq (by rw [heq]; rfl)) hf.talk
    · exact radioKept.trans (t := v) (.of_eq (by rw [heq]; rfl)) hf.radio
  · rw [exec_acquireRetry hx hd, if_neg h]
    rfl
  · rw [exec_acquireRetry hx hd, if_pos hst, State.startReloc_restarts (s := s.reach d) (cause := .acquire) (y := { x with acquireRetry := none }) hr (by decide) ha ho rfl]
    rfl

end Sys2Proof.Machine
end

section
/-! SUPPORT. The timers of PRESENCE, the roster, the peer entries and the overfull condition (R17, R19, R43, R47). -/

namespace Sys2Proof.Machine

open Says

variable {l : Fin 8} {x y z : LinkRec} {r : Reloc} {s t u v w : State}

/-! ## PRESENCE -/

/-- The offer of a PRESENCE (R17). -/
def presenceOffer (s : State) : Offer :=
  { kind := .presence, urgent := false, target := 0, body := s.presenceBody, key := some .presence, block := .biu,
    ticket := .none }

theorem State.sendPresence_frame (s : State) : s.sendPresence = { s with
    biu := { s.biu with
      queue := (s.offer (presenceOffer s)).1.biu.queue
      nextAge := (s.offer (presenceOffer s)).1.biu.nextAge
      presenceTimer := some (s.now + 1000000) }
    mgmt := { s.mgmt with counters := (s.offer (presenceOffer s)).1.mgmt.counters } } := by
  have h := State.offer_normal (o := presenceOffer s) rfl s
  have hs : s.sendPresence = (fun u : State => { u with
      biu := { u.biu with presenceTimer := some (u.now + 1000000) } }) (s.offer (presenceOffer s)).1 := rfl
  rw [hs]
  generalize (s.offer (presenceOffer s)).1 = v at h ⊢
  generalize v.biu.queue = q, v.biu.nextAge = n, v.mgmt.counters = c at h ⊢
  subst h
  rfl

theorem exec_presenceTimer {d : Nat} (ha : s.phase = .active) (hd : s.biu.presenceTimer = some d) :
    ∃ t : State, exec .presenceTimerExpiry s = .next t ∧ stationKept s t ∧ t.now = max s.now d ∧ recordsKept s t ∧
      t.biu.presenceTimer = some (max s.now d + 1000000) ∧
      (s.biu.queue.length < 16 → waits false .presence s.presenceBody s t) := by
  have he := exec_expiry (c := .presenceTimerExpiry) (s := s) (f := State.sendPresence) rfl hd
  have hh (hq : s.biu.queue.length < 16) := State.offer_holds (s := s.reach d) (o := presenceOffer (s.reach d))
    (State.takesOffers_of_active ha) hq
  rw [State.sendPresence_frame] at he
  obtain ⟨v, hv⟩ : ∃ v, v = ((s.reach d).offer (presenceOffer (s.reach d))).1 := ⟨_, rfl⟩
  rw [← hv] at he hh
  refine ⟨_, he, ?_, ?_, ?_, ?_, fun hq => ?_⟩
  · exact stationKept.trans ⟨rfl, rfl, rfl, rfl, rfl, rfl⟩ (State.finish_after _).station
  · exact (State.finish_after _).now
  · exact recordsKept.trans ⟨rfl, rfl, rfl, rfl, .of_eq rfl, .of_eq rfl⟩ (State.finish_after _).records
  · exact (State.finish_after _).presenceTimer
  · exact (State.finish_after _).waits ((hh hq).1.waits rfl rfl rfl fun e he => he)

/-! ## The roster -/

theorem exec_roster {n : Fin 127} {e : RosterEntry} (hn : s.biu.roster[n] = some e) :
    ∃ t : State, exec (.rosterExpiry n) s = .next t ∧ stationKept s t ∧ t.now = max s.now e.expiry ∧
      t.biu.roster = s.biu.roster.set n none ∧ Gone n s t ∧ t.plan = s.plan ∧ t.tally = s.tally ∧ radioKept s t := by
  have he := exec_expiry (c := .rosterExpiry n) (s := s) (d := e.expiry) (f := State.rosterGone n) rfl (by rw [hn]; rfl)
  obtain ⟨u, hu⟩ : ∃ u, u = (s.reach e.expiry).setRoster n none := ⟨_, rfl⟩
  have hs : stationKept s u ∧ u.now = max s.now e.expiry ∧ u.plan = s.plan ∧ u.tally = s.tally ∧ u.rport = s.rport ∧
      u.tbk = s.tbk ∧ u.biu.roster = s.biu.roster.set n none := by
    rw [hu]; exact ⟨⟨rfl, rfl, rfl, rfl, rfl, rfl⟩, rfl, rfl, rfl, rfl, rfl, rfl⟩
  rw [State.rosterGone, ← hu] at he
  obtain ⟨hst, hnow, hp, ht, hr, hb, hros⟩ := hs
  have hev : Evolves Writes.talk u (u.stationGone n) := State.stationGone_evolves rfl (.refl _ u)
  have hbes := (State.stationGone_moves (n := n) (Moves.refl (s := u))).beside
  have hg := State.stationGone_gone n u
  have hf := (u.stationGone n).finish_after
  obtain ⟨h1, h2, h3⟩ := hev.talk_kept
  refine ⟨_, he, (hst.trans hev.stationKept).trans hf.station, hf.now.trans (hev.now.trans hnow),
    hf.roster.trans (hbes.roster.trans hros), ⟨?_, ?_, ?_, ?_, ?_⟩, hf.plan.trans (h1.trans hp),
    hf.tally.trans (h2.trans ht), (radioKept.of_eq (s := s) hr).trans (h3.trans hf.radio)⟩
  · intro k
    rw [hf.lines, hg.rosters, State.line, hb, ← State.line]
  · intro k
    rw [hf.calls, hg.calls, hb]
  · rw [hf.keys, hg.keys, hb]
  · rw [hf.follows, hg.follows, hb]
  · rw [hf.circuits, hg.circuits, hb]

/-! ## The replica -/

theorem exec_peerEntry {j : Fin 96} {e : PeerEntry} (hj : s.plan.peers[j] = some e) :
    ∃ t : State, exec (.peerEntryExpiry j) s = .next t ∧ stationKept s t ∧ t.now = max s.now e.expiry ∧
      t.plan.peers = s.plan.peers.set j none ∧ t.plan.quarantine = s.plan.quarantine ∧
      t.plan.overfull = s.plan.overfull ∧ t.plan.overfullTimer = s.plan.overfullTimer ∧ t.biu.roster = s.biu.roster ∧
      t.tally = s.tally ∧ talkKept s t := by
  have he := exec_expiry (c := .peerEntryExpiry j) (s := s) (d := e.expiry) (f := State.peerGone j) rfl (by rw [hj]; rfl)
  have hj' : (s.reach e.expiry).plan.peers[j] = some e := hj
  obtain ⟨u, hu⟩ : ∃ u, u = (s.reach e.expiry).setPeer j none := ⟨_, rfl⟩
  have hs : stationKept s u ∧ u.now = max s.now e.expiry ∧ u.plan = { s.plan with peers := s.plan.peers.set j none } ∧
      u.tally = s.tally ∧ u.tbk = s.tbk ∧ u.biu.roster = s.biu.roster := by
    rw [hu]; exact ⟨⟨rfl, rfl, rfl, rfl, rfl, rfl⟩, rfl, rfl, rfl, rfl, rfl⟩
  simp only [State.peerGone, hj', ← hu] at he
  obtain ⟨hst, hnow, hp, ht, hb, hros⟩ := hs
  have hev : Evolves Writes.moves u (State.withNews (u.pairRemoved e.holder e.link)) :=
    State.withNews_evolves rfl rfl (State.pairRemoved_evolves rfl (.refl _ u))
  have hbes := (State.withNews_moves (State.pairRemoved_moves (n := e.holder) (m := e.link) (Moves.refl (s := u)))).beside
  have hf := (State.withNews (u.pairRemoved e.holder e.link)).finish_after
  obtain ⟨h1, h2, h3, h4⟩ := hev.replica rfl
  rw [hp] at h1 h2 h3 h4
  refine ⟨_, he, (hst.trans hev.stationKept).trans hf.station, hf.now.trans (hev.now.trans hnow), ?_, ?_, ?_, ?_,
    hf.roster.trans (hbes.roster.trans hros), hf.tally.trans ((hev.tally rfl).trans ht),
    (talkKept.of_eq (s := s) ((hev.tbk rfl).trans hb)).trans hf.talk⟩
  · rw [hf.plan]; exact h1
  · rw [hf.plan]; exact h2
  · rw [hf.plan]; exact h3
  · rw [hf.plan]; exact h4

/-! ## The overfull condition -/

/-- One link's turn when the overfull condition clears (R121). -/
def State.resumeLink (s : State) (l : Fin 8) : State :=
  if (s.reloc l).any (fun r => r.phase == .waiting) then s.enterSearch l else s

theorem State.resumeWaiting_eq (s : State) : s.resumeWaiting = (List.finRange 8).foldl State.resumeLink s := rfl

theorem State.resumeLink_near {k : Fin 8} (hk : k ≠ l) (s : State) : (s.resumeLink l).reloc k = s.reloc k := by
  unfold State.resumeLink
  split
  · exact ((State.enterSearch_relocates (l := l) (.refl (s := s))).near hk).reloc
  · rfl

theorem State.resumeLink_idle (h : (s.reloc l).all (fun r => r.phase != .waiting) = true) : s.resumeLink l = s := by
  refine if_neg ?_
  cases hr : s.reloc l with
  | none => simp
  | some r => simpa [hr] using h

theorem State.resumeLink_resumed (ho : s.plan.overfull = false) :
    ((s.resumeLink l).reloc l).all (fun r => r.phase != .waiting) = true := by
  by_cases h : (s.reloc l).all (fun r => r.phase != .waiting) = true
  · rw [State.resumeLink_idle h, h]
  · obtain ⟨x, r, hx, hr, hw⟩ : ∃ x r, s.link l = some x ∧ x.reloc = some r ∧ r.phase = .waiting := by
      cases hx : s.link l with
      | none => simp [State.reloc, hx] at h
      | some x =>
        cases hr : x.reloc with
        | none => simp [State.reloc, hx, hr] at h
        | some r => exact ⟨x, r, rfl, hr, by simpa [State.reloc, hx, hr] using h⟩
    obtain ⟨z, hz, hs⟩ := State.enterSearch_stands hx hr
    have hres : s.resumeLink l = s.enterSearch l := if_pos (by simp [State.reloc, hx, hr, hw])
    rw [hres, State.reloc_eq hz]
    rcases hs with ⟨y, b, rfl, -, hy⟩ | hs
    · simpa using hy ho
    · simp [hs.reloc]

theorem State.resumeLink_evolves (l : Fin 8) (s : State) : Evolves Writes.moves s (s.resumeLink l) := by
  unfold State.resumeLink
  split
  · exact State.enterSearch_evolves rfl rfl (.refl _ s)
  · exact .refl _ s

theorem State.resumeLink_overfull (l : Fin 8) (s : State) : (s.resumeLink l).plan.overfull = s.plan.overfull :=
  (State.resumeLink_evolves l s).moves_kept.2.2.2.2.2

/-- The links of a list have had their turn. -/
theorem State.resumeLinks (ls : List (Fin 8)) : ∀ s : State, s.plan.overfull = false →
    (∀ k ∈ ls, ((ls.foldl State.resumeLink s).reloc k).all (fun r => r.phase != .waiting) = true) ∧
    ∀ k, k ∉ ls ∨ (s.reloc k).all (fun r => r.phase != .waiting) = true →
      (ls.foldl State.resumeLink s).reloc k = s.reloc k := by
  induction ls with
  | nil => exact fun s _ => ⟨nofun, fun k _ => rfl⟩
  | cons l ls ih =>
    intro s ho
    obtain ⟨h1, h2⟩ := ih (s.resumeLink l) ((State.resumeLink_overfull l s).trans ho)
    have hl := State.resumeLink_resumed (l := l) ho
    rw [List.foldl_cons]
    refine ⟨fun k hk => ?_, fun k hk => ?_⟩
    · rcases List.mem_cons.1 hk with rfl | hk
      · rw [h2 k (.inr hl)]
        exact hl
      · exact h1 k hk
    · have hkeep : (s.resumeLink l).reloc k = s.reloc k := by
        by_cases hkl : k = l
        · subst hkl
          rw [State.resumeLink_idle (hk.resolve_left fun h => h List.mem_cons_self)]
        · exact State.resumeLink_near hkl s
      rw [h2 k (hk.imp (fun h hm => h (List.mem_cons_of_mem _ hm)) fun h => by rw [hkeep, h]), hkeep]

theorem exec_overfullTimer {d : Nat} (hd : s.plan.overfullTimer = some d) :
    ∃ t : State, exec .overfullTimerExpiry s = .next t ∧ stationKept s t ∧ t.now = max s.now d ∧
      t.plan.overfull = false ∧ t.plan.overfullTimer = none ∧ t.plan.peers = s.plan.peers ∧
      t.plan.quarantine = s.plan.quarantine ∧
      (∀ (l : Fin 8) (r : Reloc), t.reloc l = some r → r.phase ≠ .waiting) ∧
      (∀ l : Fin 8, (s.reloc l).all (fun r => r.phase != .waiting) = true → t.reloc l = s.reloc l) ∧
      t.biu.roster = s.biu.roster ∧ t.tally = s.tally ∧ talkKept s t := by
  have he := exec_expiry (c := .overfullTimerExpiry) (s := s) (f := State.overfullOver) rfl hd
  obtain ⟨u, hu⟩ : ∃ u : State, u = { s.reach d with
    plan := { s.plan with overfull := false, overfullTimer := none } } := ⟨_, rfl⟩
  have hs : stationKept s u ∧ u.now = max s.now d ∧ u.plan = { s.plan with overfull := false, overfullTimer := none } ∧
      u.tally = s.tally ∧ u.tbk = s.tbk ∧ u.biu.roster = s.biu.roster ∧ ∀ l, u.reloc l = s.reloc l := by
    rw [hu]; exact ⟨⟨rfl, rfl, rfl, rfl, rfl, rfl⟩, rfl, rfl, rfl, rfl, rfl, fun _ => rfl⟩
  rw [show (s.reach d).overfullOver = u.resumeWaiting by rw [hu]; rfl] at he
  obtain ⟨hst, hnow, hp, ht, hb, hros, hrel⟩ := hs
  have hev : Evolves Writes.moves u u.resumeWaiting := State.resumeWaiting_evolves rfl rfl (.refl _ u)
  have hbes := (State.resumeWaiting_moves (Moves.refl (s := u))).beside
  have hf := u.resumeWaiting.finish_after
  obtain ⟨h1, h2, h3, h4⟩ := hev.replica rfl
  rw [hp] at h1 h2 h3 h4
  obtain ⟨r1, r2⟩ := State.resumeLinks (List.finRange 8) u (by rw [hp])
  rw [← State.resumeWaiting_eq] at r1 r2
  have hfr (l : Fin 8) : u.resumeWaiting.finish.reloc l = u.resumeWaiting.reloc l := by
    simp only [State.reloc, State.link, hf.lsup]
  refine ⟨_, he, (hst.trans hev.stationKept).trans hf.station, hf.now.trans (hev.now.trans hnow), ?_, ?_, ?_, ?_,
    fun l r hr => ?_, fun l hl => ?_, hf.roster.trans (hbes.roster.trans hros),
    hf.tally.trans ((hev.tally rfl).trans ht), (talkKept.of_eq (s := s) ((hev.tbk rfl).trans hb)).trans hf.talk⟩
  · rw [hf.plan]; exact h3
  · rw [hf.plan]; exact h4
  · rw [hf.plan]; exact h1
  · rw [hf.plan]; exact h2
  · have := r1 l (List.mem_finRange l)
    rw [← hfr, hr] at this
    simpa using this
  · rw [hfr, r2 l (.inr (by rw [hrel]; exact hl)), hrel]

/-- Settles O49: the timers of PRESENCE, the roster, the peer entries and the overfull condition. -/
theorem rosterAndReplicaTimers : Obligations.RosterAndReplicaTimers := by
  refine ⟨fun d s ha hd => exec_presenceTimer ha hd, fun n e s hn => ?_, fun j e s hj => exec_peerEntry hj,
    fun d s hd => exec_overfullTimer hd⟩
  obtain ⟨t, he, h1, h2, h3, hg, h4, h5, h6⟩ := exec_roster hn
  refine ⟨t, he, h1, h2, h3, fun k m hm => ?_, fun k c hk hc => ?_, fun k hk => ?_, hg.circuits, hg.follows, h4, h5, h6⟩
  · rw [hg.rosters] at hm
    simpa using (List.mem_filter.1 hm).2
  · have hk' : s.tbk.calls[k] = some c := hk
    rw [hg.calls, hk', Option.bind_some, CallRec.unlost, if_pos hc]
  · rw [hg.calls]
    cases hc : s.tbk.calls[k] with
    | none => rfl
    | some c =>
      have hk' : s.call k = some c := hc
      rw [Option.bind_some, CallRec.unlost, if_neg (by simpa [hk'] using hk)]

end Sys2Proof.Machine
end

section
/-! SUPPORT. The timers of the own plan entries (R66, R67, R72, R74, R76, R77, R80). -/

namespace Sys2Proof.Machine

open Says

variable {l : Fin 8} {i j : Fin 16} {e : OwnEntry} {x y z : LinkRec} {r : Reloc} {sp : Span} {o : Offer} {s t u v w : State}

/-! ## Offers of an own entry -/

/-- An offer in ACTIVE to a queue with room is taken, and writes the queue alone. -/
theorem State.offer_room (ha : s.phase = .active) (hq : s.biu.queue.length < 16) : ∃ q n k,
    s.offer o = ({ s with biu := { s.biu with queue := q, nextAge := n } }, some k) ∧
      Holds o s { s with biu := { s.biu with queue := q, nextAge := n } } := by
  obtain ⟨hh, hs⟩ := State.offer_holds (o := o) (State.takesOffers_of_active ha) hq
  have hr := (State.offer_offered o s).room hq
  obtain ⟨k, hk⟩ := Option.isSome_iff_exists.1 hs
  refine ⟨(s.offer o).1.biu.queue, (s.offer o).1.biu.nextAge, k, Prod.ext hr hk, ?_⟩
  rw [← hr]
  exact hh

theorem State.offer_keeps_own (o : Offer) (i : Fin 16) (s : State) : (s.offer o).1.ownEntry i = s.ownEntry i := by
  rw [(State.offer_offered o s).eq]
  rfl

theorem State.modOwn_of_some {f : OwnEntry → OwnEntry} (h : s.ownEntry i = some e) :
    s.modOwn i f = s.setOwn i (some (f e)) := by
  simp [State.modOwn, h]

theorem State.setOwn_setOwn (i : Fin 16) (a b : Option OwnEntry) (s : State) :
    (s.setOwn i a).setOwn i b = s.setOwn i b := by
  simp [State.setOwn]

/-- An event that writes one own entry and a queue that then holds an offer, and nothing else. -/
structure OwnQueued (i : Fin 16) (e' : OwnEntry) (d : Nat) (s t : State) : Prop where
  eq : ∃ q n c, t = { s with
    now := max s.now d
    biu := { s.biu with queue := q, nextAge := n }
    plan := { s.plan with own := s.plan.own.set i (some e') }
    mgmt := { s.mgmt with counters := c } }

theorem OwnQueued.finish {e' : OwnEntry} {d : Nat} (h : OwnQueued i e' d s t) :
    stationKept s t.finish ∧ t.finish.now = max s.now d ∧
      t.finish.plan = { s.plan with own := s.plan.own.set i (some e') } ∧ t.finish.lsup = s.lsup ∧
      t.finish.tally = s.tally ∧ talkKept s t.finish ∧ radioKept s t.finish := by
  have hf := t.finish_after
  obtain ⟨q, n, c, rfl⟩ := h.eq
  exact ⟨stationKept.trans ⟨rfl, rfl, rfl, rfl, rfl, rfl⟩ hf.station, hf.now, hf.plan, hf.lsup, hf.tally, hf.talk,
    hf.radio⟩

theorem State.ownTimer_of {st : Standing} {p : OwnEntry → Bool} {f : OwnEntry → Timer} {d : Nat}
    (he : s.ownEntry i = some e) (hs : e.standing = st) (hp : p e = true) (hd : f e = some d) :
    s.ownTimer i st p f = some d := by
  simp [State.ownTimer, he, hs, hp, hd]

theorem State.announceHold_queued (ha : s.phase = .active) (hq : s.biu.queue.length < 16) (he : s.ownEntry i = some e)
    (b : Bool) : ∃ q n, s.announceHold b i = State.setOwn i (some { e with cls := s.effectiveClass e.link })
        { s with biu := { s.biu with queue := q, nextAge := n } } ∧
      Holds (e.announce .planHold b (s.effectiveClass e.link) .none) s (s.announceHold b i) := by
  obtain ⟨q, n, k, ho, hh⟩ := State.offer_room (o := e.announce .planHold b (s.effectiveClass e.link) .none) ha hq
  have h : s.announceHold b i = State.setOwn i (some { e with cls := s.effectiveClass e.link })
      { s with biu := { s.biu with queue := q, nextAge := n } } := by
    simp only [State.announceHold, he, ho]
    rfl
  exact ⟨q, n, h, h ▸ hh⟩

/-! ## The timers of a TENTATIVE entry -/

theorem retryClaim_takes {d : Nat} (ha : s.phase = .active) (he : s.ownEntry i = some e) (ht : e.standing = .tentative)
    (hs : e.sent = false) (hd : e.window = some d) (hq : s.biu.queue.length < 16) :
    ∃ t : State, exec (.claimRetryWaitExpiry i) s = .next t ∧ stationKept s t ∧ t.now = max s.now d ∧
      t.plan = { s.plan with own := s.plan.own.set i (some { e with window := none }) } ∧ t.lsup = s.lsup ∧
      t.tally = s.tally ∧ talkKept s t ∧ radioKept s t ∧ waits true .planClaim (planBody e e.cls) s t := by
  have hx := exec_expiry (c := .claimRetryWaitExpiry i) (s := s) (f := fun s => State.withNews (s.retryClaim i)) rfl
    (State.ownTimer_of he ht (by simp [hs]) hd)
  have he' : (s.reach d).ownEntry i = some e := he
  obtain ⟨q, n, k, ho, hh⟩ := State.offer_room (s := (s.reach d).setOwn i (some { e with window := none }))
    (o := e.announce .planClaim true e.cls (.claim e.link e.span)) ha hq
  simp only [State.retryClaim, he', State.offerClaim, ho] at hx
  obtain ⟨h1, h2, h3, h4, h5, h6, h7⟩ := OwnQueued.finish (i := i) (e' := { e with window := none }) (d := d) (s := s)
    (t := { (s.reach d).setOwn i (some { e with window := none }) with
      biu := { s.biu with queue := q, nextAge := n } }) ⟨_, _, _, rfl⟩
  exact ⟨_, hx, h1, h2, h3, h4, h5, h6, h7, (State.finish_after _).waits (hh.waits rfl rfl rfl fun e he => he)⟩

theorem State.relocFail_own_none {c : FailCause} {b : Bool} (h : s.ownEntry i = none) :
    (s.relocFail l c b).ownEntry i = none := by
  unfold State.relocFail
  split
  · exact h
  · dsimp only
    rw [State.endReloc_own]
    split
    · rw [State.modLink_own, State.yieldWhere_own]
      simp only [Option.filter_eq_none_iff]
      intro a ha
      cases h.symm.trans ha
    · rw [State.modLink_own, State.yieldWhere_own, State.muteLink_own]
      simp only [Option.filter_eq_none_iff]
      intro a ha
      cases h.symm.trans ha

theorem State.hearBusFault_own_none (h : s.ownEntry i = none) : (s.hearBusFault l sp).ownEntry i = none := by
  unfold State.hearBusFault
  split
  · split
    · exact State.relocFail_own_none h
    · exact h
  · exact h

theorem State.sendFailure_second {b : Bool} (he : s.ownEntry i = some e) (hf : e.failures ≠ 0) :
    s.sendFailure b i = (s.removeOwn i, [{ report := .busFault, link := e.link, span := e.span }]) := by
  simp only [State.sendFailure, he, if_neg hf]

theorem retryClaim_fails {d : Nat} (ha : s.phase = .active) (he : s.ownEntry i = some e) (ht : e.standing = .tentative)
    (hs : e.sent = false) (hd : e.window = some d) (hq : s.biu.queue.length = 16) (hf : e.failures ≠ 0)
    (hall : ∀ q ∈ s.biu.queue, q.urgent = true ∧ q.key ≠ some (.plan .planClaim e.link e.span)) :
    ∃ t : State, exec (.claimRetryWaitExpiry i) s = .next t ∧ t.plan.own[i] = none := by
  have hx := exec_expiry (c := .claimRetryWaitExpiry i) (s := s) (f := fun s => State.withNews (s.retryClaim i)) rfl
    (State.ownTimer_of he ht (by simp [hs]) hd)
  have he' : (s.reach d).ownEntry i = some e := he
  obtain ⟨u, hu⟩ : ∃ u, u = (s.reach d).setOwn i (some { e with window := none }) := ⟨_, rfl⟩
  have hue : u.ownEntry i = some { e with window := none } := by rw [hu]; exact State.ownEntry_setOwn_self i _ _
  have hrefuse : (u.offerClaim true e).2 = false := by
    have hub : u.biu = s.biu := by rw [hu]; rfl
    have hno : youngestNormal u = none := by
      rw [youngestNormal, hub, List.getLast?_eq_none_iff, List.filter_eq_nil_iff]
      intro a ha
      simp [(hall a ha).1]
    rw [State.offerClaim, State.offer_eq_addEntry (State.takesOffers_of_active (by rw [hu]; exact ha)) ?_ (.inr ?_),
      State.addEntry_refused (by rw [hub, hq]) (.inr hno)]
    · rfl
    · intro l sp h
      cases h
    · rw [hub]
      exact fun a ha => (hall a ha).2
  have hce : (u.offerClaim true e).1.ownEntry i = some { e with window := none } :=
    (State.offer_keeps_own _ i u).trans hue
  simp only [State.retryClaim, he', ← hu, hrefuse] at hx
  rw [if_neg (by simp), State.sendFailure_second hce hf] at hx
  refine ⟨_, hx, ?_⟩
  rw [(State.finish_after _).plan]
  exact State.hearBusFault_own_none (State.removeOwn_self i _)

theorem refreshClaim_goes {d : Nat} (ha : s.phase = .active) (he : s.ownEntry i = some e) (ht : e.standing = .tentative)
    (hd : e.refresh = some d) :
    ∃ t : State, exec (.claimRefreshExpiry i) s = .next t ∧ stationKept s t ∧ t.now = max s.now d ∧
      t.plan = { s.plan with
        own := s.plan.own.set i (some { e with refresh := some (max s.now d + e.hold * 100000) }) } ∧
      t.lsup = s.lsup ∧ t.tally = s.tally ∧ talkKept s t ∧ radioKept s t ∧
      (s.biu.queue.length < 16 → waits false .planClaim (planBody e e.cls) s t) := by
  have hx := exec_expiry (c := .claimRefreshExpiry i) (s := s) (f := State.refreshClaim i) rfl
    (State.ownTimer_of he ht rfl hd)
  have he' : (s.reach d).ownEntry i = some e := he
  obtain ⟨u, hu⟩ : ∃ u, u = ((s.reach d).offer (e.announce .planClaim false e.cls (.claim e.link e.span))).1 := ⟨_, rfl⟩
  have hue : u.ownEntry i = some e := by rw [hu, State.offer_keeps_own]; exact he
  have hn := State.offer_normal (o := e.announce .planClaim false e.cls (.claim e.link e.span)) rfl (s.reach d)
  have hh (hq : s.biu.queue.length < 16) := State.offer_holds (s := s.reach d)
    (o := e.announce .planClaim false e.cls (.claim e.link e.span)) (State.takesOffers_of_active ha) hq
  simp only [State.refreshClaim, he', State.offerClaim] at hx
  rw [← hu] at hx hn hh
  rw [State.modOwn_of_some hue] at hx
  obtain ⟨h1, h2, h3, h4, h5, h6, h7⟩ := OwnQueued.finish (i := i)
    (e' := { e with refresh := some (max s.now d + e.hold * 100000) }) (d := d) (s := s)
    (t := u.setOwn i (some { e with refresh := some ((s.reach d).after (tenths e.hold)) })) ⟨u.biu.queue, u.biu.nextAge,
      u.mgmt.counters, by rw [hn]; rfl⟩
  exact ⟨_, hx, h1, h2, h3, h4, h5, h6, h7, fun hq => (State.finish_after _).waits
    ((hh hq).1.waits rfl rfl rfl fun e he => he)⟩

/-- Settles O50: the timers of a claim. -/
theorem claimTimers : Obligations.ClaimTimers := by
  refine ⟨fun i e d s ha he ht hs hd => ⟨fun hq => retryClaim_takes ha he ht hs hd hq,
    fun hq hf hall => retryClaim_fails ha he ht hs hd hq hf hall⟩,
    fun i e d s ha he ht hd => refreshClaim_goes ha he ht hd, fun i e d s he ht hs hd hne => ?_⟩
  have he' : (s.reach d).ownEntry i = some e := he
  rw [exec_expiry (c := .claimWindowExpiry i) (s := s) (f := fun s => State.withNews (s.closeWindow i)) rfl
    (State.ownTimer_of he ht hs hd)]
  simp only [State.closeWindow, he', if_neg hne]
  rfl

/-! ## The timers of a HELD entry -/

theorem refreshHold_goes {d : Nat} (ha : s.phase = .active) (he : s.ownEntry i = some e) (ht : e.standing = .held)
    (hd : e.refresh = some d) (hq : s.biu.queue.length < 16) :
    ∃ t : State, exec (.holdRefreshExpiry i) s = .next t ∧ stationKept s t ∧ t.now = max s.now d ∧
      t.plan = { s.plan with own := s.plan.own.set i (some { e with
        cls := s.effectiveClass e.link, refresh := some (max s.now d + e.hold * 100000) }) } ∧
      waits false .planHold (planBody e (s.effectiveClass e.link)) s t ∧ t.lsup = s.lsup ∧ t.tally = s.tally ∧
      talkKept s t ∧ radioKept s t := by
  have hx := exec_expiry (c := .holdRefreshExpiry i) (s := s) (f := State.refreshHold i) rfl
    (State.ownTimer_of he ht rfl hd)
  obtain ⟨q, n, ho, hh⟩ := State.announceHold_queued (s := s.reach d) ha hq he false
  have hset : (s.reach d).refreshHold i = State.setOwn i
      (some { e with cls := s.effectiveClass e.link, refresh := some (max s.now d + e.hold * 100000) })
      { s.reach d with biu := { s.biu with queue := q, nextAge := n } } := by
    rw [State.refreshHold, ho, State.modOwn_of_some (State.ownEntry_setOwn_self i _ _), State.setOwn_setOwn]
    rfl
  have hqs : ((s.reach d).refreshHold i).biu.queue = ((s.reach d).announceHold false i).biu.queue := by
    rw [hset, ho]
    rfl
  obtain ⟨h1, h2, h3, h4, h5, h6, h7⟩ := OwnQueued.finish (i := i) (d := d) (s := s) (t := (s.reach d).refreshHold i)
    ⟨_, _, _, hset⟩
  exact ⟨_, hx, h1, h2, h3, (State.finish_after _).waits (hh.waits rfl rfl rfl fun e he => by rw [hqs]; exact he),
    h4, h5, h6, h7⟩

theorem endHoldOff_defends {d : Nat} (ha : s.phase = .active) (he : s.ownEntry i = some e) (ht : e.standing = .held)
    (hd : e.defend = some d) (hw : e.owed = true) (hq : s.biu.queue.length < 16) :
    ∃ t : State, exec (.defendHoldOffExpiry i) s = .next t ∧ stationKept s t ∧ t.now = max s.now d ∧
      t.plan = { s.plan with own := s.plan.own.set i (some { e with
        cls := s.effectiveClass e.link, owed := false, defend := some (max s.now d + 100000) }) } ∧
      waits true .planHold (planBody e (s.effectiveClass e.link)) s t ∧ t.lsup = s.lsup ∧ t.tally = s.tally ∧
      talkKept s t ∧ radioKept s t := by
  have hx := exec_expiry (c := .defendHoldOffExpiry i) (s := s) (d := d) (f := State.endHoldOff i) rfl (by simp [he, hd])
  have he' : (s.reach d).ownEntry i = some e := he
  obtain ⟨u, hu⟩ : ∃ u, u = (s.reach d).setOwn i (some { e with owed := false, defend := none }) := ⟨_, rfl⟩
  have hue : u.ownEntry i = some { e with owed := false, defend := none } := by
    rw [hu]; exact State.ownEntry_setOwn_self i _ _
  have huq : u.biu = s.biu := by rw [hu]; rfl
  obtain ⟨q, n, ho, hh⟩ := State.announceHold_queued (s := u) (by rw [hu]; exact ha) (by rw [huq]; exact hq) hue true
  have hc : u.effectiveClass e.link = s.effectiveClass e.link := by rw [hu]; rfl
  have hset : (s.reach d).endHoldOff i = State.setOwn i (some { e with
      cls := s.effectiveClass e.link, owed := false, defend := some (max s.now d + 100000) })
      { s.reach d with biu := { s.biu with queue := q, nextAge := n } } := by
    simp only [State.endHoldOff, he', ← hu]
    rw [if_pos ⟨hw, .inl ht⟩]
    simp only [State.sendDefence, hue, ht]
    rw [ho, State.modOwn_of_some (State.ownEntry_setOwn_self i _ _), State.setOwn_setOwn, hc, hu]
    simp [State.setOwn, State.reach, State.after, ms, ht]
  have hqs : ((s.reach d).endHoldOff i).biu.queue = (u.announceHold true i).biu.queue := by
    rw [hset, ho]
    rfl
  obtain ⟨h1, h2, h3, h4, h5, h6, h7⟩ := OwnQueued.finish (i := i) (d := d) (s := s) (t := (s.reach d).endHoldOff i)
    ⟨_, _, _, hset⟩
  exact ⟨_, hx, h1, h2, h3, (State.finish_after _).waits (hh.waits rfl (by rw [← hc]; rfl) (by rw [hu]; rfl)
    fun e he => by rw [hqs]; exact he), h4, h5, h6, h7⟩

/-! ## The yield allowance -/

theorem State.ownSlot_congr (h : ∀ k : Fin 16, (t.ownEntry k).map (fun e => (e.link, e.span)) =
    (s.ownEntry k).map fun e => (e.link, e.span)) (l : Fin 8) (sp : Span) : t.ownSlot l sp = s.ownSlot l sp := by
  have hk (k : Fin 16) : (match t.ownEntry k with | some e => e.link == l && e.span == sp | none => false) =
      match s.ownEntry k with | some e => e.link == l && e.span == sp | none => false := by
    have := h k
    cases ht : t.ownEntry k <;> cases hs : s.ownEntry k <;> simp_all
  unfold State.ownSlot
  congr 1
  funext k
  exact hk k

/-- A link's front-end is muted off a span, whose own entry is yielded (R80). -/
def State.offSpan (l : Fin 8) (sp : Span) (s : State) : State := ((s.muteLink l).yieldRequest l sp).leaveSpan l sp

/-- The link once its front-end is off a span. -/
def LinkRec.offSpan (sp : Span) (b : Bool) (x : LinkRec) : LinkRec :=
  { x with tuneInFlight := false, announcedBad := b, current := if x.current = some sp then none else x.current }

theorem State.hearAllowance_idle (hr : s.reloc l = none) : s.hearAllowance l sp =
    if (s.link l).bind (·.current) = some sp then (s.offSpan l sp).loseLink l else s.offSpan l sp := by
  simp only [State.hearAllowance, hr]
  rfl

theorem State.mute_frame (a : Fin 8) (s : State) : s.mute a = { s with rport := (s.mute a).rport } := by
  unfold State.mute State.muteLine State.queueMute
  repeat' split
  all_goals rfl

theorem State.muteLink_frame (l : Fin 8) (s : State) : s.muteLink l =
    { s with rport := (s.muteLink l).rport, lsup := { s.lsup with links := (s.muteLink l).lsup.links } } := by
  cases hx : s.link l with
  | none =>
    have h : s.muteLink l = s := by simp only [State.muteLink, hx]
    rw [h]
  | some x =>
    have h : s.muteLink l = (s.mute x.desc.frontEnd).setLink l { x with tuneInFlight := false } := by
      simp only [State.muteLink, hx]
      exact State.modLink_of_some (by rw [State.mute_link]; exact hx)
    rw [h, State.mute_frame]
    rfl

theorem State.removeOwn_holds (he : s.ownEntry i = some e) (ha : s.phase = .active) (hq : s.biu.queue.length < 16) :
    Holds e.yieldOffer s (s.removeOwn i) := by
  simp only [State.removeOwn, he]
  exact (State.offer_holds (s := s.setOwn i none) (State.takesOffers_of_active ha) hq).1

/-- A link's front-end is muted off a span, and an own entry of the link yielded. -/
def State.mutedOff (l : Fin 8) (i : Fin 16) (sp : Span) (s : State) : State :=
  ((s.muteLink l).removeOwn i).leaveSpan l sp

theorem State.mutedOff_effect (sp : Span) (hx : s.link l = some x) (he : s.ownEntry i = some e) :
    (s.mutedOff l i sp).plan = { s.plan with own := s.plan.own.set i none } ∧
      ((s.mutedOff l i sp).fe x.desc.frontEnd = (s.muteLink l).fe x.desc.frontEnd) ∧
      (∃ b, (s.mutedOff l i sp).link l = some (x.offSpan sp b)) ∧
      (s.phase = .active → s.biu.queue.length < 16 → Holds e.yieldOffer s (s.mutedOff l i sp)) := by
  have hmx := State.muteLink_link hx
  have hme : (s.muteLink l).ownEntry i = some e := (State.muteLink_own i s).trans he
  have hmf := State.muteLink_frame l s
  obtain ⟨m, hm⟩ : ∃ m, m = s.muteLink l := ⟨_, rfl⟩
  rw [State.mutedOff]
  rw [← hm] at hmx hme hmf ⊢
  obtain ⟨b, hb⟩ := (State.removeOwn_near i l m).some hmx
  have hleave := State.modLink_frame l (fun x => if x.current = some sp then { x with current := none } else x)
    (m.removeOwn i)
  rw [State.leaveSpan]
  refine ⟨?_, ?_, ⟨b, ?_⟩, fun ha hq => ?_⟩
  · rw [State.modLink_plan, State.removeOwn_plan, hmf]
  · rw [State.fe, hleave]
    dsimp only
    rw [State.removeOwn_rport, State.fe]
  · rw [State.link_modLink_self hb, LinkRec.offSpan]
    by_cases hc : x.current = some sp
    · simp [hc]
    · simp [hc]
  · rw [hleave]
    have hh := State.removeOwn_holds hme (by rw [hmf]; exact ha) (by rw [hmf]; exact hq)
    rw [hmf] at hh
    rw [hmf]
    exact hh

theorem State.offSpan_eq (hi : s.ownSlot l sp = some i) : s.offSpan l sp = s.mutedOff l i sp := by
  have hmi : (s.muteLink l).ownSlot l sp = some i := by
    rw [State.ownSlot_congr (s := s) (fun k => by rw [State.muteLink_own]) l sp, hi]
  simp only [State.offSpan, State.yieldRequest, hmi, State.mutedOff]

theorem State.offSpan_effect (hx : s.link l = some x) (he : s.ownEntry i = some e) (hi : s.ownSlot l sp = some i) :
    (s.offSpan l sp).plan = { s.plan with own := s.plan.own.set i none } ∧
      ((s.offSpan l sp).fe x.desc.frontEnd).dark ∧ (∃ b, (s.offSpan l sp).link l = some (x.offSpan sp b)) ∧
      (s.phase = .active → s.biu.queue.length < 16 → Holds e.yieldOffer s (s.offSpan l sp)) := by
  rw [State.offSpan_eq hi]
  obtain ⟨h1, h2, h3, h4⟩ := State.mutedOff_effect sp hx he
  exact ⟨h1, h2 ▸ State.muteLink_dark hx, h3, h4⟩

theorem State.loseLink_still (hx : s.link l = some x) (h : x.state = .up → x.pinned = true) :
    ∃ c, s.loseLink l = { s with
      lsup := { s.lsup with links := s.lsup.links.set l (some { x with state := if x.state = .up then .lost else x.state }) }
      mgmt := { s.mgmt with counters := c } } := by
  by_cases hu : x.state = .up
  · simp only [State.loseLink, hx, if_pos hu]
    rw [State.lossReloc_idle (x := { x with state := .lost }) (s := (s.setLink l { x with state := .lost }).count .linkLost none)
      (State.link_setLink_self l _ s) (.inr (h hu))]
    exact ⟨_, rfl⟩
  · refine ⟨s.mgmt.counters, ?_⟩
    simp only [State.loseLink, hx, if_neg hu]
    have hx' : s.lsup.links[l] = some x := hx
    have hset : s.lsup.links.set l (some x) = s.lsup.links := by
      rw [← hx']
      exact Vector.set_getElem_self _
    rw [hset]

theorem State.loseLink_waits (hx : s.link l = some x) (hu : x.state = .up) (hp : x.pinned = false) (hr : x.reloc = none)
    (ha : s.phase = .active) (ho : s.plan.overfull = true) :
    ∃ c, s.loseLink l = { s with
      lsup := { s.lsup with links := s.lsup.links.set l (some { x with
        state := .lost, acquireRetry := none, reloc := some (waiting .lost x none false false) }) }
      mgmt := { s.mgmt with counters := c } } := by
  refine ⟨((s.setLink l { x with state := .lost }).count .linkLost none).mgmt.counters, ?_⟩
  simp only [State.loseLink, hx, if_pos hu]
  have hl : ((s.setLink l { x with state := .lost }).count .linkLost none).link l = some { x with state := .lost } :=
    State.link_setLink_self l _ s
  rw [State.lossReloc_starts hl rfl hp, State.startReloc_full hl ha hr ho (by simp)]
  simp [State.setLink, State.count, hp]
  rfl

/-- What the yield allowance of a link with no relocation leaves before the link itself is lost. -/
structure AllowanceOver (i : Fin 16) (e : OwnEntry) (x : LinkRec) (d : Nat) (s w : State) : Prop where
  station : stationKept s w
  now     : w.now = max s.now d
  plan    : w.plan = { s.plan with own := s.plan.own.set i none }
  dark    : (w.fe x.desc.frontEnd).dark
  link    : ∃ b, w.link e.link = some (x.offSpan e.span b)
  waits   : s.biu.queue.length < 16 → Says.waits true .planYield (Span.bytes e.span ++ [byte e.link]) s w
  tally   : w.tally = s.tally
  tbk     : w.tbk = s.tbk

theorem exec_yieldingAllowance {d : Nat} (hinv : s.Inv) (he : s.ownEntry i = some e) (hlow : e.span.low ≤ e.span.high)
    (hy : e.standing = .yielding) (hd : e.allowance = some d) (hx : s.link e.link = some x) (hr : x.reloc = none) :
    ∃ w : State, AllowanceOver i e x d s w ∧ exec (.yieldingAllowanceExpiry i) s =
      .next (if x.current = some e.span then w.loseLink e.link else w).finish := by
  have ha : s.phase = .active := by
    by_contra hn
    cases he.symm.trans ((hinv.quiet hn).1 i)
  have hex := exec_expiry (c := .yieldingAllowanceExpiry i) (s := s) (f := fun s => State.withNews (s.allowanceOver i)) rfl
    (State.ownTimer_of he hy rfl hd)
  have he' : (s.reach d).ownEntry i = some e := he
  obtain ⟨u, hu⟩ : ∃ u, u = (s.reach d).setOwn i (some { e with allowance := none }) := ⟨_, rfl⟩
  have hue : u.ownEntry i = some { e with allowance := none } := by rw [hu]; exact State.ownEntry_setOwn_self i _ _
  have hux : u.link e.link = some x := by rw [hu]; exact hx
  have hslot : u.ownSlot e.link e.span = some i := by
    rw [State.ownSlot_congr (s := s) (fun k => ?_) e.link e.span, State.ownSlot_eq hinv.ownLaw he hlow]
    by_cases hk : k = i
    · rw [hk, hue, he]
      rfl
    · rw [hu, State.ownEntry_setOwn_ne hk]
      rfl
  simp only [State.allowanceOver, he', ← hu] at hex
  have hnews : State.withNews (u, [{ report := .allowanceExpired, link := e.link, span := e.span }]) =
      if x.current = some e.span then (u.offSpan e.link e.span).loseLink e.link else u.offSpan e.link e.span := by
    have h := State.hearAllowance_idle (l := e.link) (sp := e.span) ((State.reloc_eq hux).trans hr)
    rw [hux] at h
    exact h
  rw [hnews] at hex
  obtain ⟨hp, hdark, hl, hh⟩ := State.offSpan_effect hux hue hslot
  have hev : Evolves Writes.moves u (u.offSpan e.link e.span) :=
    State.leaveSpan_evolves (State.yieldRequest_evolves rfl (State.muteLink_evolves rfl (.refl _ u)))
  refine ⟨u.offSpan e.link e.span, ⟨?_, ?_, ?_, hdark, hl, fun hq => ?_, ?_, ?_⟩, hex⟩
  · exact stationKept.trans (t := u) (by rw [hu]; exact ⟨rfl, rfl, rfl, rfl, rfl, rfl⟩) hev.stationKept
  · rw [hev.now, hu]
    rfl
  · rw [hp, hu]
    simp [State.setOwn, State.reach]
  · exact (hh (by rw [hu]; exact ha) (by rw [hu]; exact hq)).waits rfl rfl (by rw [hu]; rfl) fun e he => he
  · rw [hev.tally rfl, hu]
    rfl
  · rw [hev.tbk rfl, hu]
    rfl

/-- The yield allowance's state once the link's record and the counters have been written. -/
theorem AllowanceOver.finish {d : Nat} {c : Vector Counter 8} {ls : Vector (Option LinkRec) 8}
    (h : AllowanceOver i e x d s w)
    (hv : v = { w with lsup := { w.lsup with links := ls }, mgmt := { w.mgmt with counters := c } }) :
    stationKept s v.finish ∧ v.finish.now = max s.now d ∧
      v.finish.plan = { s.plan with own := s.plan.own.set i none } ∧ (v.finish.fe x.desc.frontEnd).dark ∧
      v.finish.lsup.links = ls ∧
      (s.biu.queue.length < 16 → Says.waits true .planYield (Span.bytes e.span ++ [byte e.link]) s v.finish) ∧
      v.finish.tally = s.tally ∧ talkKept s v.finish := by
  have hf := v.finish_after
  subst hv
  refine ⟨(h.station.trans ⟨rfl, rfl, rfl, rfl, rfl, rfl⟩).trans hf.station, hf.now.trans h.now, hf.plan.trans h.plan, ?_,
    by rw [hf.lsup], fun hq => hf.waits (h.waits hq), hf.tally.trans h.tally, (talkKept.of_eq h.tbk).trans hf.talk⟩
  rw [State.fe, hf.radio.1]
  exact h.dark

/-- Settles O52: the timers of a held and of a yielding entry. -/
theorem heldEntryTimers : Obligations.HeldEntryTimers := by
  refine ⟨fun i e d s ha he ht hd hq => refreshHold_goes ha he ht hd hq,
    fun i e d s ha he ht hd hw hq => endHoldOff_defends ha he ht hd hw hq, fun i e d s he hd hw => ?_,
    fun i e d x s hinv he hlow hy hd hx hr hup => ?_, fun i e d x s hinv he hlow hy hd hx hr hup hcur hpin ha ho => ?_⟩
  · have he' : (s.reach d).ownEntry i = some e := he
    rw [exec_expiry (c := .defendHoldOffExpiry i) (s := s) (d := d) (f := State.endHoldOff i) rfl (by simp [he, hd])]
    simp only [State.endHoldOff, he']
    rw [if_neg (by simp [hw])]
    rfl
  · obtain ⟨w, hw, hex⟩ := exec_yieldingAllowance hinv he hlow hy hd hx hr
    obtain ⟨b, hb⟩ := hw.link
    by_cases hc : x.current = some e.span
    · rw [if_pos hc] at hex
      obtain ⟨c, hv⟩ := State.loseLink_still hb fun hu => hup hu hc
      obtain ⟨h1, h2, h3, h4, h5, h6, h7, h8⟩ := hw.finish hv
      exact ⟨_, hex, h1, h2, h3, h4, ⟨{ x.offSpan e.span b with
          state := if x.state = .up then .lost else x.state }, by rw [h5]; exact getFin_set_self _ _ _, rfl, hr,
        fun _ => ⟨by simp [LinkRec.offSpan, hc], rfl⟩, fun hn => absurd hc hn⟩, h6, h7, h8⟩
    · rw [if_neg hc] at hex
      obtain ⟨h1, h2, h3, h4, h5, h6, h7, h8⟩ := hw.finish (v := w) (c := w.mgmt.counters) (ls := w.lsup.links) rfl
      exact ⟨_, hex, h1, h2, h3, h4, ⟨x.offSpan e.span b, by rw [h5]; exact hb, rfl, hr, fun hn => absurd hn hc,
        fun _ => ⟨by simp [LinkRec.offSpan, hc], rfl⟩⟩, h6, h7, h8⟩
  · obtain ⟨w, hw, hex⟩ := exec_yieldingAllowance hinv he hlow hy hd hx hr
    obtain ⟨b, hb⟩ := hw.link
    rw [if_pos hcur] at hex
    obtain ⟨c, hv⟩ := State.loseLink_waits hb hup hpin hr ((stationKept.phase hw.station).trans ha)
      (by rw [hw.plan]; exact ho)
    obtain ⟨h1, h2, h3, h4, h5, h6, h7, h8⟩ := hw.finish hv
    have hnone : (x.offSpan e.span b).current = none := by simp [LinkRec.offSpan, hcur]
    refine ⟨_, hex, h1, h2, h3, h4, ⟨{ x.offSpan e.span b with
        state := .lost, acquireRetry := none, reloc := some (waiting .lost (x.offSpan e.span b) none false false) },
      by rw [h5]; exact getFin_set_self _ _ _, rfl, hnone, rfl, ?_⟩, h6, h7, h8⟩
    dsimp only
    rw [waiting, waiting, hnone]

end Sys2Proof.Machine
end

section
/-! SUPPORT. The cutover to a tuned candidate (R115, R124). -/

namespace Sys2Proof.Machine

open Says

variable {l : Fin 8} {i j : Fin 16} {e : OwnEntry} {x y z : LinkRec} {r : Reloc} {sp : Span} {o : Offer} {s t u v w : State}

theorem State.offered_longTask (o : Offer) (s : State) : (s.offered o).mgmt.longTask = s.mgmt.longTask := by
  rw [State.offered, (State.offer_offered o s).eq]

theorem State.removeOwn_longTask (i : Fin 16) (s : State) : (s.removeOwn i).mgmt.longTask = s.mgmt.longTask := by
  unfold State.removeOwn
  split
  · rw [State.offered_longTask]
    rfl
  · rfl

theorem State.endReloc_longTask (e : Ending) (s : State) :
    (s.endReloc l r e).mgmt.longTask = if r.task then none else s.mgmt.longTask := by
  have hf := State.modLink_frame l (LinkRec.ended r e) s
  have he : s.endReloc l r e = if r.task then (s.modLink l (LinkRec.ended r e)).tellTask l e
      else s.modLink l (LinkRec.ended r e) := rfl
  rw [he]
  split
  · unfold State.tellTask
    split
    · obtain ⟨queue, age, counters, h⟩ := State.reply_normal (s := { s.modLink l (LinkRec.ended r e) with
        mgmt := { (s.modLink l (LinkRec.ended r e)).mgmt with longTask := none } }) _ _ _ _ _
      rw [h]
    · rename_i h
      exact h
  · rw [hf]

/-- The old entry of a relocation is yielded, where it still stands. -/
def State.oldYielded (l : Fin 8) (r : Reloc) (s : State) : State :=
  match r.oldEntry with
  | some old => s.yieldRequest l old
  | none => s

/-- The link's record at the cutover (R115, R124). -/
def LinkRec.cutOver (now : Nat) (sp : Span) (x : LinkRec) : LinkRec :=
  (LinkRec.afresh now { x with current := some sp, state := .up, pointer := LinkDesc.advance x.desc x.pointer sp }).holdOff
    now

theorem State.cutover_eq (l : Fin 8) (r : Reloc) (sp : Span) (s : State) : s.cutover l r sp =
    (((s.oldYielded l r).modLink l (LinkRec.cutOver (s.oldYielded l r).now sp)).count .relocationDone none).endReloc l r
      .done := rfl

theorem State.oldYielded_frame (l : Fin 8) (r : Reloc) (s : State) : linkNear l s (s.oldYielded l r) ∧
    (s.oldYielded l r).rport = s.rport ∧ (s.oldYielded l r).mgmt.longTask = s.mgmt.longTask ∧
    (s.oldYielded l r).now = s.now := by
  unfold State.oldYielded
  split
  · refine ⟨State.yieldRequest_near _ l s, ?_, ?_,
      (State.yieldRequest_evolves (w := Writes.moves) rfl (Evolves.refl _ s)).now⟩
    · unfold State.yieldRequest
      split
      · exact State.removeOwn_rport _ s
      · rfl
    · unfold State.yieldRequest
      split
      · exact State.removeOwn_longTask _ s
      · rfl
  · exact ⟨.inl rfl, rfl, rfl, rfl⟩

theorem Reloc.oldEntry_tuning (hp : r.phase = .tuning) (hc : r.cand = some sp) :
    r.oldEntry = if r.old = some sp then none else r.old := by
  simp only [Reloc.oldEntry, hp, hc, eq_comm]

theorem LinkDesc.advance_eq (d : LinkDesc) (p : Nat) (sp : Span) : LinkDesc.advance d p sp =
    if d.winLow ≤ sp.low ∧ sp.low ≤ d.winHigh then
      (if d.winHigh < sp.low + d.step + d.width - 1 then d.winLow else sp.low + d.step)
    else p := by
  have h : d.winHigh + 1 < sp.low + d.step + d.width ↔ d.winHigh < sp.low + d.step + d.width - 1 := by omega
  simp only [LinkDesc.advance, h]

theorem State.cutover_frame (hx : s.link l = some x) (sp : Span) :
    (∃ b, (s.cutover l r sp).link l =
      some ((LinkRec.cutOver s.now sp { x with announcedBad := b }).ended r .done)) ∧
      (s.cutover l r sp).plan = (s.oldYielded l r).plan ∧ (s.cutover l r sp).rport = s.rport ∧
      (s.cutover l r sp).mgmt.longTask = if r.task then none else s.mgmt.longTask := by
  obtain ⟨hn, hr, hl, hnow⟩ := State.oldYielded_frame l r s
  obtain ⟨b, hb⟩ := hn.some hx
  rw [State.cutover_eq, hnow]
  obtain ⟨w, hw⟩ : ∃ w, w = s.oldYielded l r := ⟨_, rfl⟩
  rw [← hw] at hb hr hl ⊢
  have hm := State.modLink_frame l (LinkRec.cutOver s.now sp) w
  refine ⟨⟨b, State.endReloc_link _ (x := LinkRec.cutOver s.now sp { x with announcedBad := b })
    (State.link_modLink_self hb)⟩, ?_, ?_, ?_⟩
  · obtain ⟨queue, age, longTask, counters, hf⟩ := State.endReloc_frame (l := l) (r := r) .done
      ((w.modLink l (LinkRec.cutOver s.now sp)).count .relocationDone none)
    rw [hf, hm]
    rfl
  · rw [State.endReloc_rport, hm]
    exact hr
  · rw [State.endReloc_longTask, hm]
    show (if r.task then none else w.mgmt.longTask) = _
    rw [hl]

/-- Settles O54: a tuned candidate is cut over to. -/
theorem tunedCandidateIsCutOver : Obligations.TunedCandidateIsCutOver := by
  intro a number sp l x r s hw hst hl hx hr hp hc
  obtain ⟨u, hu⟩ : ∃ u, u = (s.setFe a { s.fe a with state := .tuned sp, sent := false, tuneTimer := none }).landTune l :=
    ⟨_, rfl⟩
  have hux : u.link l = some { x with tuneInFlight := false } := by
    rw [hu]
    exact State.link_modLink_self (by exact hx)
  have hus : stationKept s u ∧ u.now = s.now ∧ u.plan = s.plan ∧ u.mgmt = s.mgmt ∧ u.tally = s.tally ∧ u.tbk = s.tbk ∧
      u.rport = { s.rport with fe := s.rport.fe.set a { s.fe a with state := .tuned sp, sent := false, tuneTimer := none } } := by
    rw [hu, State.landTune, State.modLink_frame]
    exact ⟨⟨rfl, rfl, rfl, rfl, rfl, rfl⟩, rfl, rfl, rfl, rfl, rfl, rfl⟩
  have hex : exec (.tuneOutcome a number true) s = .next (u.cutover l r sp).finish := by
    show done (s.tuneAnswered a number true) = _
    have hst' : (s.fe a).state = .tuning sp := hst
    have hur : u.reloc l = some r := (State.reloc_eq hux).trans hr
    obtain ⟨-, hsent, hno⟩ := hw
    have hready : ((s.fe a).sent && (s.fe a).tuneNo == number.toNat) = true := by
      rw [Bool.and_eq_true, beq_iff_eq]
      exact ⟨hsent, hno⟩
    have hlink : (s.setFe a { s.fe a with state := .tuned sp, sent := false, tuneTimer := none }).linkOf a = some l := hl
    simp only [State.tuneAnswered, hst', hready, if_true, State.tellLink, hlink, State.tunedOk]
    rw [← hu]
    simp only [hur, hp, hc]
    rfl
  obtain ⟨hst', hnow, hplan, hmgmt, htally, htbk, hrport⟩ := hus
  obtain ⟨⟨b, hz⟩, h1, h2, h3⟩ := State.cutover_frame (r := r) hux sp
  have hev : Evolves Writes.moves u (u.cutover l r sp) := State.cutover_evolves rfl (.refl _ u)
  obtain ⟨v, hv⟩ : ∃ v, v = u.cutover l r sp := ⟨_, rfl⟩
  rw [← hv] at hex hz h1 h2 h3 hev
  have hf := v.finish_after
  have hold := Reloc.oldEntry_tuning hp hc
  refine ⟨_, hex, (hst'.trans hev.stationKept).trans hf.station, hf.now.trans (hev.now.trans hnow), ?_,
    ⟨LinkRec.ended r .done (LinkRec.cutOver u.now sp { x with tuneInFlight := false, announcedBad := b }),
      by rw [hf.lsup]; exact hz, rfl, rfl, rfl, LinkDesc.advance_eq _ _ _, rfl, rfl, rfl, rfl, rfl, rfl, rfl, rfl, ?_, ?_,
      rfl, rfl⟩, fun old i ho hne hi => ?_, fun ho => ?_, fun ht => ?_, fun ht => ?_,
    hf.tally.trans ((hev.tally rfl).trans htally),
    (talkKept.of_eq (s := s) ((hev.tbk rfl).trans htbk)).trans hf.talk, ?_⟩
  · rw [hf.radio.1, h2, hrport]
    simp only [getFin_set_self]
  · rw [hnow]
    rfl
  · rw [hnow]
    rfl
  · have hslot : u.ownSlot l old = some i := by
      rw [State.ownSlot_congr (s := s) (fun k => by simp only [State.ownEntry, hplan])]
      exact hi
    rw [hf.plan, h1, State.oldYielded, hold, if_neg (by rw [ho]; simpa using hne), ho]
    simp only [State.yieldRequest, hslot]
    rw [State.removeOwn_plan, hplan]
  · have hn : r.oldEntry = none := by
      rw [hold]
      rcases ho with h | h <;> simp [h]
    rw [hf.plan, h1, State.oldYielded, hn]
    exact hplan
  · rw [hf.longTask, h3, if_pos ht]
  · rw [hf.longTask, h3, if_neg (by simp [ht]), hmgmt]
  · rw [hf.radio.2, h2, hrport]
    rfl

end Sys2Proof.Machine
end

section
/-! SUPPORT. Claims and holds into the replica (R39 to R41, R44, R46). -/

namespace Sys2Proof.Machine

open Says

variable {l : Fin 8} {i j : Fin 16} {e : OwnEntry} {x y z : LinkRec} {r : Reloc} {p : BusPort} {rx : Rx} {b : PlanBody}
  {s t u v w : State}

/-! ## The event of a claim or a hold -/

def planKind (isHold : Bool) : Kind := if isHold then .planHold else .planClaim

/-- PLAN's part of a claim or hold, and LSUP's answers to its reports. -/
def State.planned (isHold : Bool) (rx : Rx) (b : PlanBody) (s : State) : State :=
  State.withNews (s.planArrival isHold rx.origin.toNat b (rx.bulletin (planKind isHold)).length)

theorem exec_planned (isHold : Bool) (hr : received p rx s) (hb : readPlanBody rx.body = some b) :
    ∃ (x : Biu) (m : Mgmt) (t : State), Met p (rx.bulletin (planKind isHold)) s { s with biu := x, mgmt := m } ∧
      exec (if isHold then .planHold p rx else .planClaim p rx) s = .next t ∧
      After (State.planned isHold rx b { s with biu := x, mgmt := m }) t := by
  have ha : arrives (if isHold then .planHold p rx else .planClaim p rx) (planKind isHold) p rx := by
    cases isHold
    · exact arrives_arrival .planClaim p rx
    · exact arrives_arrival .planHold p rx
  obtain ⟨x, m, t, hm, he, ht⟩ := exec_block ha hr
  refine ⟨x, m, t, hm, he, ?_⟩
  cases isHold
  · simpa [planKind, State.planned, State.deliver, Rx.bulletin, hb] using ht
  · simpa [planKind, State.planned, State.deliver, Rx.bulletin, hb] using ht

/-- The rest of PLAN, once the claim or hold is stored, and LSUP's answers leave the replica. -/
theorem State.planned_replica (isHold : Bool) (rx : Rx) (b : PlanBody) (s : State) :
    Evolves Writes.moves (s.storePeer isHold rx.origin.toNat b (rx.bulletin (planKind isHold)).length).1
      (s.planned isHold rx b) := by
  refine State.withNews_evolves rfl rfl ?_
  unfold State.planArrival
  dsimp only
  refine State.overOwns_evolves (fun i u => State.testOwn_evolves rfl (.refl _ u)) ?_
  split
  · exact State.pairRemoved_evolves rfl (.refl _ _)
  · exact .refl _ _

/-! ## The slot that stores it -/

theorem State.storePeer_known {isHold : Bool} {h n : Nat} {k : Fin 96} {e : PeerEntry}
    (hk : s.peerSlot h b.link b.span = some k) (he : s.plan.peers[k] = some e) :
    s.storePeer isHold h b n = (s.setPeer k (some { s.newPeer isHold h b with held := isHold || e.held }), false) := by
  simp only [State.storePeer, hk, he]
  rfl

theorem State.storePeer_nearest {isHold : Bool} {h n d : Nat} {k : Fin 96} (hk : s.peerSlot h b.link b.span = none)
    (h2 : 2 ≤ (s.holderSlots h b.link).length) (hn : nearest (s.holderSlots h b.link) = some (k, d)) :
    s.storePeer isHold h b n = (s.setPeer k (some (s.newPeer isHold h b)), true) := by
  simp only [State.storePeer, hk, if_neg (Nat.not_lt.2 h2), hn]

theorem State.storePeer_empty {isHold : Bool} {h n : Nat} {k : Fin 96} (hk : s.peerSlot h b.link b.span = none)
    (h2 : (s.holderSlots h b.link).length < 2) (he : s.emptyPeer = some k) :
    s.storePeer isHold h b n = (s.setPeer k (some (s.newPeer isHold h b)), false) := by
  simp only [State.storePeer, hk, if_pos h2, he]

theorem State.storePeer_overfull {isHold : Bool} {h n : Nat} (hk : s.peerSlot h b.link b.span = none)
    (h2 : (s.holderSlots h b.link).length < 2) (he : s.emptyPeer = none) :
    s.storePeer isHold h b n = (s.overfullBy b.hold n, false) := by
  simp only [State.storePeer, hk, if_pos h2, he]

theorem State.storePeer_quarantine (isHold : Bool) (h n : Nat) (b : PlanBody) (s : State) :
    (s.storePeer isHold h b n).1.plan.quarantine = s.plan.quarantine := by
  unfold State.storePeer
  dsimp only
  repeat' split
  all_goals rfl

/-- Settles O27: a claim or hold is stored in the replica. -/
theorem claimsAndHoldsEnterTheReplica : Obligations.ClaimsAndHoldsEnterTheReplica := by
  intro isHold p rx b s hr hb
  obtain ⟨x, m, t, hm, he, ht⟩ := exec_planned isHold hr hb
  obtain ⟨u, hu⟩ : ∃ u : State, u = { s with biu := x, mgmt := m } := ⟨_, rfl⟩
  have hup : u.plan = s.plan := by rw [hu]
  have hpeer (h : Bool) : u.newPeer h rx.origin.toNat b = peerEntry s h rx.origin.toNat b := by rw [hu]; rfl
  have hslot : u.peerSlot rx.origin.toNat b.link b.span = s.peerSlot rx.origin.toNat b.link b.span := by rw [hu]; rfl
  have hslots : u.holderSlots rx.origin.toNat b.link = s.holderSlots rx.origin.toNat b.link := by rw [hu]; rfl
  have hempty : u.emptyPeer = s.emptyPeer := by rw [hu]; rfl
  have hnow : u.now = s.now := by rw [hu]
  rw [← hu] at hm ht
  have hev := State.planned_replica isHold rx b u
  have hall : Evolves Writes.replicaNews u (u.planned isHold rx b) :=
    State.withNews_evolves rfl rfl (State.planArrival_evolves rfl rfl (.refl _ u))
  have hbes : Beside u (u.planned isHold rx b) := (State.withNews_moves (State.planArrival_moves .refl)).beside
  obtain ⟨h1, h2, h3, h4⟩ := hev.replica rfl
  rw [← ht.plan] at h1 h2 h3 h4
  refine ⟨t, he, (hm.arrived.stationKept.trans hall.stationKept).trans ht.station, ht.now.trans (hall.now.trans hnow), ?_,
    ht.roster.trans (hbes.roster.trans hm.arrived.roster), ?_, ?_, fun j e hj hje => ?_,
    fun hn => ⟨fun j d hlen hne => ?_, fun hlen => ⟨fun j hj => ?_, fun hj => ?_⟩⟩⟩
  · rw [h2, State.storePeer_quarantine, hup]
  · rw [ht.tally, hall.tally rfl, hu]
  · exact (talkKept.of_eq (s := s) (by rw [hall.tbk rfl, hu])).trans ht.talk
  · have hst := State.storePeer_known (isHold := isHold) (n := (rx.bulletin (planKind isHold)).length)
      (hslot.trans hj) (by rw [hup]; exact hje)
    rw [hst] at h1 h3
    rw [h1, h3, hpeer]
    exact ⟨by rw [State.setPeer, hup]; rfl, by rw [State.setPeer, hup]⟩
  · have hst := State.storePeer_nearest (isHold := isHold) (n := (rx.bulletin (planKind isHold)).length)
      (hslot.trans hn) (by rw [hslots]; exact hlen) (by rw [hslots]; exact hne)
    rw [hst] at h1 h3
    rw [h1, h3, hpeer]
    exact ⟨by rw [State.setPeer, hup], by rw [State.setPeer, hup]⟩
  · have hst := State.storePeer_empty (isHold := isHold) (n := (rx.bulletin (planKind isHold)).length)
      (hslot.trans hn) (by rw [hslots]; exact hlen) (hempty.trans hj)
    rw [hst] at h1 h3
    rw [h1, h3, hpeer]
    exact ⟨by rw [State.setPeer, hup], by rw [State.setPeer, hup]⟩
  · have hst := State.storePeer_overfull (isHold := isHold) (n := (rx.bulletin (planKind isHold)).length)
      (hslot.trans hn) (by rw [hslots]; exact hlen) (hempty.trans hj)
    rw [hst] at h1 h3 h4
    rw [h1, h3, h4]
    exact ⟨by rw [← hup]; rfl, rfl, by rw [← hnow]; rfl⟩

end Sys2Proof.Machine
end

section
/-! SUPPORT. The claim of a search's answer (R59, R63, R65, R119, R122). -/

namespace Sys2Proof.Machine

open Says

variable {l : Fin 8} {i j k : Fin 16} {e : OwnEntry} {x y z : LinkRec} {r : Reloc} {sp : Span} {s t u v w : State}

/-! ## Claim start -/

theorem State.searchStart_clear {d : LinkDesc} {p : Nat} {ex : List Span} (h : s.searchStart d p ex = .span sp) :
    ∀ y ∈ s.planSpans, s.conflicts y sp = false :=
  (State.acceptable_iff.1 (List.find?_some (State.searchStart_span_iff.1 h).2)).1

theorem State.rivals_of_clear (h : ∀ y ∈ s.planSpans, s.conflicts y sp = false) : s.rivals sp = [] := by
  rw [State.rivals, List.filter_eq_nil_iff]
  intro e he
  rw [h e.span (List.mem_append_right _ (List.mem_map_of_mem he))]
  simp

theorem State.owns_of_clear (h : ∀ y ∈ s.planSpans, s.conflicts y sp = false) :
    (s.owns.any fun e => s.conflicts e.span sp) = false := by
  rw [List.any_eq_false]
  intro e he
  rw [h e.span (List.mem_append_left _ (List.mem_map_of_mem he))]
  simp

/-- The offer of a new claim (R65). -/
def claimOffer (l : Fin 8) (sp : Span) (s : State) : Offer :=
  (s.newOwn l sp).announce .planClaim true (s.newOwn l sp).cls (.claim l sp)

/-- A claim for a span of a link has started: its entry stands in a slot, and has been offered (R65, R67). -/
structure Claiming (k : Fin 16) (l : Fin 8) (sp : Span) (s t : State) : Prop where
  plan  : ∃ e : OwnEntry, t.plan = { s.plan with own := s.plan.own.set k (some e) } ∧ e.span = sp ∧ e.link = l ∧
    e.cls = s.effectiveClass l ∧ e.standing = .tentative ∧ e.hold = s.image.hold ∧ e.sent = false
  near  : ∀ j : Fin 8, linkNear j s t
  rport : t.rport = s.rport
  task  : t.mgmt.longTask = s.mgmt.longTask
  lsup  : s.biu.queue.length < 16 → t.lsup = s.lsup
  holds : s.biu.queue.length < 16 → Holds (claimOffer l sp s) s t

theorem State.claimStart_claims (ha : s.phase = .active) (ho : s.plan.overfull = false)
    (hmine : ∀ (j : Fin 16) (e : OwnEntry), s.ownEntry j = some e → e.link = l → e.standing ≠ .tentative)
    (hlen : (s.owns.filter fun e => e.link == l).length ≤ 1)
    (hclear : ∀ y ∈ s.planSpans, s.conflicts y sp = false) (hk : s.emptyOwn = some k) :
    (s.claimStart l sp).2 = .pending ∧ Claiming k l sp s (s.claimStart l sp).1 := by
  obtain ⟨u, hu⟩ : ∃ u, u = s.setOwn k (some (s.newOwn l sp)) := ⟨_, rfl⟩
  have hbusy : ((s.owns.filter fun e => e.link == l).any (fun e => e.standing == .tentative) ||
      decide (2 ≤ (s.owns.filter fun e => e.link == l).length)) = false := by
    rw [Bool.or_eq_false_iff, List.any_eq_false, decide_eq_false_iff_not]
    refine ⟨fun e he => ?_, by omega⟩
    obtain ⟨he, hl⟩ := List.mem_filter.1 he
    obtain ⟨j, hj⟩ := State.mem_owns.1 he
    simpa using hmine j e hj (by simpa using hl)
  have hstart : s.claimStart l sp = if (u.offerClaim true (s.newOwn l sp)).2 then
      ((u.offerClaim true (s.newOwn l sp)).1, .pending)
      else (((u.offerClaim true (s.newOwn l sp)).1.sendFailure true k).1, .pending) := by
    rw [hu]
    unfold State.claimStart
    simp only [ne_eq, ha, not_true_eq_false, if_false, ho, hbusy, State.owns_of_clear hclear,
      State.rivals_of_clear hclear, List.any_nil, hk, Bool.false_eq_true]
  obtain ⟨o, ho⟩ : ∃ o, o = claimOffer l sp s := ⟨_, rfl⟩
  have hoff : u.offerClaim true (s.newOwn l sp) = ((u.offer o).1, (u.offer o).2.isSome) := by rw [ho]; rfl
  have hof := State.offer_offered o u
  have hroom := State.offer_holds (o := o) (s := u) (State.takesOffers_of_active (by rw [hu]; exact ha))
  rw [hoff] at hstart
  obtain ⟨v, hv⟩ : ∃ v, v = (u.offer o).1 := ⟨_, rfl⟩
  have hvp : v.plan = { s.plan with own := s.plan.own.set k (some (s.newOwn l sp)) } := by
    rw [hv, State.offer_plan, hu]
    rfl
  rw [← hv] at hstart hof hroom
  have hnear (j : Fin 8) : linkNear j s v := by
    have := hof.near j
    rw [hu] at this
    exact this
  have hrport : v.rport = s.rport := by rw [hof.eq, hu]; rfl
  have htask : v.mgmt.longTask = s.mgmt.longTask := by rw [hof.eq, hu]; rfl
  have hlsup (hq : s.biu.queue.length < 16) : v.lsup = s.lsup := by
    rw [hof.room (by rw [hu]; exact hq), hu]
    rfl
  have hholds (hq : s.biu.queue.length < 16) : Holds (claimOffer l sp s) s v := by
    have := (hroom (by rw [hu]; exact hq)).1
    rw [hu, ho] at this
    exact this
  rw [hstart]
  split
  · exact ⟨rfl, ⟨_, hvp, rfl, rfl, rfl, rfl, rfl, rfl⟩, hnear, hrport, htask, hlsup, hholds⟩
  · rename_i hno
    have hve : v.ownEntry k = some (s.newOwn l sp) := by
      unfold State.ownEntry
      rw [hvp]
      exact getFin_set_self _ _ _
    have hfail : v.sendFailure true k = (v.setOwn k (some { s.newOwn l sp with
        failures := 1, window := some (v.after (ms 250)) }), []) := by
      simp only [State.sendFailure, hve]
      rfl
    rw [hfail]
    refine ⟨rfl, ⟨{ s.newOwn l sp with failures := 1, window := some (v.after (ms 250)) }, ?_, rfl, rfl, rfl, rfl, rfl,
      rfl⟩, hnear, hrport, htask, hlsup, hholds⟩
    simp [State.setOwn, hvp]

/-! ## A search that is answered a span -/

/-- A relocation's search has been answered a span, which is claimed (R119, R122). -/
structure Searched (k : Fin 16) (l : Fin 8) (sp : Span) (r : Reloc) (x : LinkRec) (s t : State) : Prop where
  plan  : ∃ e : OwnEntry, t.plan = { s.plan with own := s.plan.own.set k (some e) } ∧ e.span = sp ∧ e.link = l ∧
    e.cls = s.effectiveClass l ∧ e.standing = .tentative ∧ e.hold = s.image.hold ∧ e.sent = false
  link  : ∃ b, t.link l = some { x with announcedBad := b, reloc := some (r.claiming sp) }
  rport : t.rport = s.rport
  task  : t.mgmt.longTask = s.mgmt.longTask
  holds : s.biu.queue.length < 16 → Holds (claimOffer l sp s) s t

theorem State.effectiveClass_setLink (hx : s.link l = some x) (hc : y.cls = x.cls) (m : Fin 8) :
    (s.setLink l y).effectiveClass m = s.effectiveClass m := by
  unfold State.effectiveClass
  rw [State.link_setLink]
  by_cases h : l = m
  · subst h
    rw [if_pos rfl, hx]
    simp only [hc]
    rfl
  · rw [if_neg h]
    rfl

theorem State.modReloc_of_some {f : Reloc → Reloc} (hx : s.link l = some x) (hr : x.reloc = some r) :
    s.modReloc l f = s.setLink l { x with reloc := some (f r) } := by
  rw [State.modReloc, State.modLink_of_some hx, hr]
  rfl

theorem State.enterSearch_claims (hx : s.link l = some x) (hr : x.reloc = some r) (ha : s.phase = .active)
    (hc : r.cause ≠ .taskPin) (hs : s.searchStart x.desc x.pointer r.excluded = .span sp)
    (hmine : ∀ (j : Fin 16) (e : OwnEntry), s.ownEntry j = some e → e.link = l → e.standing ≠ .tentative)
    (hlen : (s.owns.filter fun e => e.link == l).length ≤ 1) (hk : s.emptyOwn = some k) :
    Searched k l sp r x s (s.enterSearch l) := by
  have hsearch : s.enterSearch l =
      State.searchRun l 5 (s.setLink l { x with reloc := some { r with phase := .search } }) := by
    rw [State.enterSearch, State.modReloc_of_some hx hr]
  obtain ⟨u, hu⟩ : ∃ u, u = s.setLink l { x with reloc := some (r.claiming sp) } := ⟨_, rfl⟩
  have hcls : u.effectiveClass l = s.effectiveClass l := by rw [hu]; exact State.effectiveClass_setLink (y := { x with reloc := some (r.claiming sp) }) hx rfl l
  have hux : u.link l = some { x with reloc := some (r.claiming sp) } := by
    rw [hu]; exact State.link_setLink_self l _ s
  have hask : (s.setLink l { x with reloc := some { r with phase := .search } }).askPlan l
      { x with reloc := some { r with phase := .search } } { r with phase := .search } = .span sp := by
    unfold State.askPlan
    rw [if_neg hc]
    exact hs
  have hup : u.plan = s.plan := by rw [hu]; rfl
  obtain ⟨hpend, hclaim⟩ := State.claimStart_claims (s := u) (l := l) (sp := sp) (k := k) (by rw [hu]; exact ha)
    (by rw [hup]; exact (State.searchStart_span_iff.1 hs).1) (by rw [hu]; exact hmine) (by rw [hu]; exact hlen)
    (by rw [hu]; exact State.searchStart_clear hs) (by rw [hu]; exact hk)
  have hrun : s.enterSearch l = (u.claimStart l sp).1 := by
    rw [hsearch, State.searchRun_span (State.link_setLink_self l _ s) rfl hask,
      State.modReloc_of_some (State.link_setLink_self l _ s) rfl, State.setLink_setLink]
    have hclaiming : ({ r with phase := .search } : Reloc).claiming sp = r.claiming sp := rfl
    rw [hclaiming, ← hu]
    simp only [State.claimAnswered, hpend]
  obtain ⟨⟨e, hp, h1, h2, h3, h4, h5, h6⟩, hnear, hrport, htask, -, hholds⟩ := hclaim
  obtain ⟨b, hb⟩ := (hnear l).some hux
  rw [hrun]
  refine ⟨⟨e, by rw [hp, hup], h1, h2, h3.trans hcls, h4, ?_, h6⟩, ⟨b, hb⟩, ?_, ?_, fun hq => ?_⟩
  · rw [h5, hu]
    rfl
  · rw [hrport, hu]
    rfl
  · rw [htask, hu]
    rfl
  · have hbody : claimOffer l sp u = claimOffer l sp s := by
      simp only [claimOffer, OwnEntry.announce, State.newOwn, hcls]
      rw [hu]
      rfl
    have hh := hholds (by rw [hu]; exact hq)
    rw [hbody] at hh
    rw [hu] at hh ⊢
    exact hh

theorem State.claimOffer_setLink (hx : s.link l = some x) (hc : y.cls = x.cls) (sp : Span) :
    claimOffer l sp (s.setLink l y) = claimOffer l sp s := by
  have hcls := State.effectiveClass_setLink (y := y) hx hc l
  simp only [claimOffer, OwnEntry.announce, State.newOwn, hcls]
  rfl

theorem Searched.of_setLink (hx : s.link l = some x) (hc : y.cls = x.cls) (h : Searched k l sp r z (s.setLink l y) t) :
    Searched k l sp r z s t := by
  obtain ⟨e, hp, h1, h2, h3, h4, h5, h6⟩ := h.plan
  refine ⟨⟨e, hp, h1, h2, h3.trans (State.effectiveClass_setLink hx hc l), h4, h5, h6⟩, h.link, h.rport, h.task, fun hq => ?_⟩
  have hh := h.holds hq
  rw [State.claimOffer_setLink hx hc] at hh
  exact hh

theorem State.startReloc_claims {cause : Cause} {task override : Bool} (hx : s.link l = some x) (ha : s.phase = .active)
    (hr : x.reloc = none) (hc : cause ≠ .taskPin) (hs : s.searchStart x.desc x.pointer [] = .span sp)
    (hmine : ∀ (j : Fin 16) (e : OwnEntry), s.ownEntry j = some e → e.link = l → e.standing ≠ .tentative)
    (hlen : (s.owns.filter fun e => e.link == l).length ≤ 1) (hk : s.emptyOwn = some k) :
    Searched k l sp (started cause x none task override) (x.starting (started cause x none task override)) s
      (s.startReloc l cause none task override) := by
  rw [State.startReloc_eq hx ha hr]
  exact Searched.of_setLink (y := x.starting (started cause x none task override)) hx rfl
    (State.enterSearch_claims (State.link_setLink_self l _ s) rfl ha hc hs hmine hlen hk)

theorem Searched.waits (h : Searched k l sp r x s t) (hq : s.biu.queue.length < 16) :
    Says.waits true .planClaim (claimBody l sp s) s t :=
  (h.holds hq).waits rfl rfl rfl fun _ he => he

/-- Settles O42: a search's answer is claimed. -/
theorem searchAnswerIsClaimed : Obligations.SearchAnswerIsClaimed := by
  intro p x l y override sp i s hinv h hl hfl hy hlong hr hup hpin hair hs hown hlen hk hq
  have hl' : fin8 8 (task .moveLink x).params 0 = some l := hl
  have hfl' : flagAt (task .moveLink x).params 1 = some override := hfl
  obtain ⟨u, t, hu, ha, he⟩ := exec_task_after h
  obtain ⟨f1, f2, f3, f4, f5, f6, f7⟩ := hu.fields
  have hrun : u.runTask .moveLink (task .moveLink x) =
      u.startLong (task .moveLink x) .moveLink l .taskMove none override := by
    simp only [State.runTask, State.moveLink, hfl', State.taskLink_some hl' (hu.link hy)]
    rw [if_neg (by rw [hu.longTask, hlong, hr]; simp), if_neg]
    rw [f5, hup, hpin]
    rcases hair with h | h <;> simp [h]
  obtain ⟨v, hv⟩ : ∃ v : State, v = { u with mgmt := { u.mgmt with longTask := some (longSlot .moveLink x l u) } } :=
    ⟨_, rfl⟩
  have hst : u.startLong (task .moveLink x) .moveLink l .taskMove none override =
      v.startReloc l .taskMove none true override := by
    rw [hv]
    rfl
  rw [hrun, hst] at ha
  have huv : stationKept u v := by rw [hv]; exact ⟨rfl, rfl, rfl, rfl, rfl, rfl⟩
  have hvp : v.plan = s.plan := by rw [hv]; exact f3
  have hvc : v.cfg = s.cfg := by rw [hv]; exact f2
  have hvl : v.lsup = s.lsup := by rw [hv]; exact f4
  have hvt : v.tally = s.tally := by rw [hv]; exact f5
  have hve (j : Fin 16) : v.ownEntry j = s.ownEntry j := by simp only [State.ownEntry, hvp]
  have hcls : v.effectiveClass l = s.effectiveClass l := by simp only [State.effectiveClass, State.link, hvl, hvt]
  have hsearch : v.searchStart y.desc y.pointer [] = .span sp := by
    rw [← hs, hv, hu.eq]
    rfl
  have hsd := State.startReloc_claims (s := v) (cause := .taskMove) (task := true) (override := override) (k := i)
    (by rw [State.link, hvl]; exact hy) (by rw [hv]; exact f1.trans h.1) hr (by decide) hsearch
    (fun j e hj hjl hjt => by rw [hve] at hj; rw [hown j e hj hjl] at hjt; cases hjt)
    (by rw [State.owns, hvp]; exact hlen) (by rw [← hk, State.emptyOwn]; simp only [hve]; rfl)
  obtain ⟨e, hp, e1, e2, e3, e4, e5, e6⟩ := hsd.plan
  obtain ⟨b, hb⟩ := hsd.link
  have hev : Evolves Writes.moves v (v.startReloc l .taskMove none true override) :=
    State.startReloc_evolves rfl rfl (.refl _ v)
  obtain ⟨q, hqm, hqu, hqk, -, -, hqb⟩ := ha.waits (hsd.waits (by rw [hv]; exact hu.queue ▸ hq))
  refine ⟨t, he, ((hu.stationKept.trans huv).trans hev.stationKept).trans ha.station,
    ⟨e, ?_, e1, e2, e3.trans hcls, e4, ?_, e6⟩, ⟨_, by rw [ha.lsup]; exact hb, _, rfl, rfl, rfl, rfl, rfl⟩,
    ⟨q, hqm, hqu rfl, hqk, ?_⟩, ?_, ?_, ?_, ?_⟩
  · rw [ha.plan, hp]
    exact getFin_set_self _ _ _
  · rw [e5, State.image, hvc]
    rfl
  · rw [hqb, claimBody, hcls, State.image, hvc]
    rfl
  · rw [ha.plan, hp, hvp]
  · rw [ha.tally, hev.tally rfl, hvt]
  · exact (talkKept.of_eq (s := s) (by rw [hev.tbk rfl, hv]; exact f6)).trans ha.talk
  · rw [ha.radio.1, hsd.rport, hv]
    exact congrArg Rport.fe f7

end Sys2Proof.Machine
end

section
/-! SUPPORT. The evaluation of the tally map, and a publication received (R137, R144, R148 to R152). -/

namespace Sys2Proof.Machine

open Says

variable {k : Fin 8} {x : Source} {rx : Rx} {p : BusPort} {b : TallyBody} {s t u v w : State}

/-! ## The evaluation -/

/-- The marks' changes write the own entries and the queue. -/
def Writes.marks : Writes := { plan := true, replica := false, rport := false, tally := false, tbk := false }

theorem State.lamp_fe (a : Fin 8) (c : Colour) (s : State) : (s.lamp a c).rport.fe = s.rport.fe := by
  unfold State.lamp
  split
  · rfl
  · rfl

theorem State.handLamp_fe (v : Vector Colour 8) (l : Fin 8) (s : State) : (State.handLamp v s l).rport.fe = s.rport.fe := by
  unfold State.handLamp
  split
  · rfl
  · split
    · exact State.lamp_fe _ _ s
    · rfl

theorem State.handLamps_fe (v : Vector Colour 8) (ls : List (Fin 8)) : ∀ s : State,
    (ls.foldl (State.handLamp v) s).rport.fe = s.rport.fe := by
  induction ls with
  | nil => exact fun s => rfl
  | cons l ls ih => exact fun s => (ih _).trans (State.handLamp_fe v l s)

/-- What an evaluation leaves, beside the marks' holds and the lamps' commands. -/
structure Valued (s t : State) : Prop where
  station : stationKept s t
  now     : t.now = s.now
  tally   : t.tally = s.tally.evaluated s.image
  peers   : t.plan.peers = s.plan.peers
  fe      : t.rport.fe = s.rport.fe
  tbk     : t.tbk = s.tbk

theorem State.evaluate_valued (s : State) : Valued s s.evaluate := by
  obtain ⟨u, hu⟩ : ∃ u : State, u = { s with tally := s.tally.evaluated s.image } := ⟨_, rfl⟩
  obtain ⟨v, hv⟩ : ∃ v, v = (List.finRange 8).foldl (State.handMark s.tally.onAir) u := ⟨_, rfl⟩
  have he : s.evaluate = (List.finRange 8).foldl (State.handLamp s.tally.linkLamps) v := by rw [hv, hu]; rfl
  have hm : Evolves Writes.marks u v := by
    rw [hv]
    exact Evolves.foldl _ (fun u _ => State.handMark_evolves rfl (.refl _ u)) _ (.refl _ u)
  have hl : Evolves Writes.moves v s.evaluate := by
    rw [he]
    exact Evolves.foldl _ (fun u _ => State.handLamp_evolves rfl (.refl _ u)) _ (.refl _ v)
  have hfe : s.evaluate.rport.fe = v.rport.fe := by
    rw [he]
    exact State.handLamps_fe _ _ v
  obtain ⟨-, k2, k3, k4, -⟩ := hl.moves_kept
  obtain ⟨m1, -⟩ := hm.replica rfl
  refine ⟨(stationKept.trans (t := u) ?_ hm.stationKept).trans hl.stationKept, ?_, ?_, ?_, ?_, ?_⟩
  · rw [hu]; exact ⟨rfl, rfl, rfl, rfl, rfl, rfl⟩
  · rw [hl.now, hm.now, hu]
  · rw [k2, hm.tally rfl, hu]
  · rw [k4, m1, hu]
  · rw [hfe, hm.rport rfl, hu]
  · rw [k3, hm.tbk rfl, hu]

/-! ## A publication received -/

theorem State.standBy_frame (k : Fin 8) (n : Nat) (s : State) : s.standBy k n =
    { s with tally := { s.tally with sources := (s.standBy k n).tally.sources } } := by
  unfold State.standBy
  split
  · split
    · rfl
    · rfl
  · rfl

theorem State.standBy_ne {j : Fin 8} (h : j ≠ k) (n : Nat) (s : State) :
    (s.standBy k n).tally.sources[j] = s.tally.sources[j] := by
  unfold State.standBy
  split
  · split
    · exact getFin_set_ne _ h _
    · rfl
  · rfl

theorem State.standBy_self {n : Nat} (hx : s.source k = some x) (hn : n < s.station) :
    (s.standBy k n).tally.sources[k] = some { x with standby := true, refreshTimer := none } := by
  simp only [State.standBy, hx, if_pos hn]
  exact getFin_set_self _ _ _

theorem Layer.accepts_iff (y : Layer) (n : Nat) :
    y.accepts n = true ↔ y.state ≠ .live ∨ y.source.all (fun r => decide (n ≤ r)) = true := by
  unfold Layer.accepts
  split
  · rename_i h1 h2
    simp [h1, h2]
  · rename_i h
    cases hs : y.source with
    | none => simp
    | some r =>
      simp only [true_iff]
      exact .inl fun hl => h r hl hs

theorem Tally.evaluated_layers (y : Tally) (i : Image) : (y.evaluated i).layers = y.layers := by
  unfold Tally.evaluated
  dsimp only

theorem Tally.evaluated_sources (y : Tally) (i : Image) : (y.evaluated i).sources = y.sources := by
  unfold Tally.evaluated
  dsimp only

theorem Tally.evaluated_contacts (y : Tally) (i : Image) : (y.evaluated i).contacts = y.contacts := by
  unfold Tally.evaluated
  dsimp only

theorem Tally.onAirMark_congr {y z : Tally} (h : y.layers = z.layers) (rs : List MapRule) (l : Fin 8) :
    y.onAirMark rs l = z.onAirMark rs l := by
  unfold Tally.onAirMark Tally.matches Tally.matchIn
  rw [h]

theorem Tally.evaluated_onAir (y : Tally) (i : Image) (l : Fin 8) :
    (y.evaluated i).onAir[l] = (y.evaluated i).onAirMark i.rules.toList l := by
  rw [Tally.onAirMark_congr (Tally.evaluated_layers y i)]
  unfold Tally.evaluated
  simp only [Fin.getElem_fin, Vector.getElem_ofFn]

/-- The layer and the source record that an accepted publication gives (R137, R144). -/
def State.publishedBy (n : Nat) (b : TallyBody) (s : State) : State :=
  (s.setLayer b.layer (publishedLayer s.now n b)).standBy b.layer n

theorem State.publishedBy_frame (n : Nat) (b : TallyBody) (s : State) : s.publishedBy n b = { s with
    tally := { s.tally with
      layers := s.tally.layers.set b.layer (publishedLayer s.now n b)
      sources := (s.publishedBy n b).tally.sources } } :=
  State.standBy_frame b.layer n (s.setLayer b.layer (publishedLayer s.now n b))

/-- A publication has been accepted by a layer. -/
structure Published (n : Nat) (b : TallyBody) (s t : State) : Prop where
  station : stationKept s t
  now     : t.now = s.now
  layers  : t.tally.layers = s.tally.layers.set b.layer (publishedLayer s.now n b)
  standby : ∀ x : Source, s.source b.layer = some x → n < s.station →
    t.tally.sources[b.layer] = some { x with standby := true, refreshTimer := none }
  sources : ∀ k : Fin 8, k ≠ b.layer → t.tally.sources[k] = s.tally.sources[k]
  onAir   : ∀ l : Fin 8, t.tally.onAir[l] = t.tally.onAirMark s.image.rules.toList l
  contacts : t.tally.contacts = s.tally.contacts
  peers   : t.plan.peers = s.plan.peers
  tbk     : t.tbk = s.tbk
  fe      : t.rport.fe = s.rport.fe

theorem State.publishedBy_published (n : Nat) (b : TallyBody) (s : State) :
    Published n b s (s.publishedBy n b).evaluate := by
  obtain ⟨v, hv⟩ : ∃ v, v = s.publishedBy n b := ⟨_, rfl⟩
  have hf := State.publishedBy_frame n b s
  rw [← hv] at hf ⊢
  have hval := v.evaluate_valued
  have himg : v.image = s.image := by rw [hf]; rfl
  have hst : stationKept s v := by rw [hf]; exact ⟨rfl, rfl, rfl, rfl, rfl, rfl⟩
  refine ⟨hst.trans hval.station, ?_, ?_, fun x hx hn => ?_, fun k hk => ?_, fun l => ?_, ?_, ?_, ?_, ?_⟩
  · rw [hval.now, hf]
  · rw [hval.tally, Tally.evaluated_layers, hf]
  · rw [hval.tally, Tally.evaluated_sources, hv]
    exact State.standBy_self hx hn
  · rw [hval.tally, Tally.evaluated_sources, hv]
    exact State.standBy_ne hk n _
  · rw [hval.tally, himg, Tally.evaluated_onAir]
  · rw [hval.tally, Tally.evaluated_contacts, hf]
  · rw [hval.peers, hf]
  · rw [hval.tbk, hf]
  · rw [hval.fe, hf]

/-- Settles O31: publications fill the layers. -/
theorem publicationsFillTheLayers : Obligations.PublicationsFillTheLayers := by
  intro p rx b s hr hb
  obtain ⟨x, m, t, hm, he, ht⟩ := exec_block (arrives_arrival .tallyState p rx) hr
  obtain ⟨u, hu⟩ : ∃ u : State, u = { s with biu := x, mgmt := m } := ⟨_, rfl⟩
  rw [← hu] at hm ht
  have hdel : (u.deliver .tallyState (rx.bulletin .tallyState)).1 =
      (u.takeLayer rx.origin.toNat b (rx.bulletin .tallyState).length).1 := by
    simp [State.deliver, Rx.bulletin, hb]
  rw [hdel] at ht
  have hut : u.tally = s.tally ∧ u.plan = s.plan ∧ u.tbk = s.tbk ∧ u.rport = s.rport ∧ u.now = s.now ∧ u.cfg = s.cfg := by
    rw [hu]; exact ⟨rfl, rfl, rfl, rfl, rfl, rfl⟩
  obtain ⟨h1, h2, h3, h4, h5, h6⟩ := hut
  have hlayer : u.layer b.layer = s.layer b.layer := by rw [State.layer, h1, ← State.layer]
  have himg : u.image = s.image := by rw [State.image, h6, ← State.image]
  refine ⟨fun h => ?_, fun hl hs => ?_⟩
  · have htake : (u.takeLayer rx.origin.toNat b (rx.bulletin .tallyState).length).1 =
        (u.publishedBy rx.origin.toNat b).evaluate := by
      rw [State.takeLayer, if_pos (by rw [hlayer]; exact (Layer.accepts_iff _ _).2 h), State.publishedBy]
    rw [htake] at ht
    have hp := State.publishedBy_published rx.origin.toNat b u
    refine ⟨t, he, (hm.arrived.stationKept.trans hp.station).trans ht.station, ht.now.trans (hp.now.trans h5), ?_,
      fun y hy hn => ?_, fun k hk => ?_, fun l => ?_, ?_, ?_, ?_, ?_⟩
    · rw [ht.tally, hp.layers, h1, h5]
      rfl
    · rw [ht.tally]
      exact hp.standby y (by rw [State.source, h1]; exact hy) (by rw [State.station, himg]; exact hn)
    · rw [ht.tally, hp.sources k hk, h1]
    · rw [ht.tally, hp.onAir, himg]
    · rw [ht.tally, hp.contacts, h1]
    · rw [ht.plan, hp.peers, h2]
    · exact (talkKept.of_eq (s := s) (hp.tbk.trans h3)).trans ht.talk
    · rw [ht.radio.1, hp.fe, h4]
  · obtain ⟨r, hsr, hlt⟩ := hs
    have hno : ¬(u.layer b.layer).accepts rx.origin.toNat = true := by
      rw [hlayer, Layer.accepts_iff]
      simp [hl, hsr, hlt]
    rw [State.takeLayer, if_neg hno] at ht
    have hc : recordsKept u (u.count .rxSourceCheckFail (some (rx.bulletin .tallyState).length)) :=
      ⟨rfl, rfl, rfl, rfl, .of_eq rfl, .of_eq rfl⟩
    have hst : stationKept u (u.count .rxSourceCheckFail (some (rx.bulletin .tallyState).length)) :=
      ⟨rfl, rfl, rfl, rfl, rfl, rfl⟩
    exact ⟨t, he, (hm.arrived.stationKept.trans hst).trans ht.station,
      (hm.arrived.recordsKept.trans hc).trans ht.records⟩

end Sys2Proof.Machine
end

section
/-! SUPPORT. A claim that becomes HELD, and the tune that follows (R72, R73, R80, R122, R123). -/

namespace Sys2Proof.Machine

open Says

variable {l : Fin 8} {i j k : Fin 16} {e o : OwnEntry} {x y z : LinkRec} {r : Reloc} {sp : Span} {p : OwnEntry → Bool}
  {s t u v w : State}

/-! ## Becoming HELD -/

theorem State.announceHold_normal (he : s.ownEntry i = some e) : ∃ q n cs c,
    s.announceHold false i = { s with
      biu := { s.biu with queue := q, nextAge := n }
      plan := { s.plan with own := s.plan.own.set i (some { e with cls := c }) }
      mgmt := { s.mgmt with counters := cs } } ∧ q.length ≤ s.biu.queue.length + 1 ∧
    (s.phase = .active → s.biu.queue.length < 16 → c = s.effectiveClass e.link ∧
      Holds (e.announce .planHold false (s.effectiveClass e.link) .none) s (s.announceHold false i)) := by
  have hn := State.offer_normal (o := e.announce .planHold false (s.effectiveClass e.link) .none) rfl s
  have hh (ha : s.phase = .active) (hq : s.biu.queue.length < 16) :=
    State.offer_holds (o := e.announce .planHold false (s.effectiveClass e.link) .none) (State.takesOffers_of_active ha) hq
  have hlen := State.offer_length (e.announce .planHold false (s.effectiveClass e.link) .none) s
  have ha : s.announceHold false i = (fun r : State × Option Nat =>
      if r.2.isSome then r.1.setOwn i (some { e with cls := s.effectiveClass e.link }) else r.1)
      (s.offer (e.announce .planHold false (s.effectiveClass e.link) .none)) := by
    simp only [State.announceHold, he]
  rw [ha]
  generalize s.offer (e.announce .planHold false (s.effectiveClass e.link) .none) = r at hn hh hlen
  obtain ⟨u, g⟩ := r
  dsimp only at hn hh hlen ⊢
  generalize u.biu.queue = q, u.biu.nextAge = n, u.mgmt.counters = cs at hn hlen
  subst hn
  split
  · exact ⟨q, n, cs, s.effectiveClass e.link, rfl, hlen, fun ha hq => ⟨rfl, (hh ha hq).1⟩⟩
  · rename_i hg
    refine ⟨q, n, cs, e.cls, ?_, hlen, fun ha hq => absurd (hh ha hq).2 hg⟩
    have he' : s.plan.own[i] = some e := he
    have hset : s.plan.own.set i (some e) = s.plan.own := by
      rw [← he']
      exact Vector.set_getElem_self _
    have heta : ({ e with cls := e.cls } : OwnEntry) = e := rfl
    rw [heta, hset]

/-- An entry that has become HELD at a class (R72). -/
def OwnEntry.heldAt (c now : Nat) (e : OwnEntry) : OwnEntry :=
  { e with standing := .held, window := none, allowance := none, pendingYield := [], cls := c,
           refresh := some (now + e.hold * 100000) }

/-- An own entry has become HELD, its hold having been offered. -/
structure Held (i : Fin 16) (e : OwnEntry) (c : Nat) (s t : State) : Prop where
  eq : ∃ q n cs, t = { s with
    biu := { s.biu with queue := q, nextAge := n }
    plan := { s.plan with own := s.plan.own.set i (some (e.heldAt c s.now)) }
    mgmt := { s.mgmt with counters := cs } }
  length : t.biu.queue.length ≤ s.biu.queue.length + 1
  room : s.phase = .active → s.biu.queue.length < 16 → c = s.effectiveClass e.link ∧
    Holds (e.announce .planHold false (s.effectiveClass e.link) .none) s t

theorem State.becomeHeld_held (he : s.ownEntry i = some e) : ∃ c,
    (s.becomeHeld i).2 = [{ report := .held, link := e.link, span := e.span }] ∧ Held i e c s (s.becomeHeld i).1 := by
  obtain ⟨u, hu⟩ : ∃ u, u = s.setOwn i (some { e with
    standing := .held, window := none, allowance := none, pendingYield := [] }) := ⟨_, rfl⟩
  have hue : u.ownEntry i = some { e with standing := .held, window := none, allowance := none, pendingYield := [] } := by
    rw [hu]; exact State.ownEntry_setOwn_self i _ s
  obtain ⟨q, n, cs, c, heq, hlen, hroom⟩ := State.announceHold_normal hue
  obtain ⟨v, hv⟩ : ∃ v, v = u.announceHold false i := ⟨_, rfl⟩
  rw [← hv] at heq hroom
  have hve : v.ownEntry i = some { e with
      standing := .held, window := none, allowance := none, pendingYield := [], cls := c } := by
    rw [heq]
    exact getFin_set_self _ _ _
  have hb : s.becomeHeld i = (v.setOwn i (some { e with
      standing := .held, window := none, allowance := none, pendingYield := [], cls := c,
      refresh := some (v.after (tenths e.hold)) }), [{ report := .held, link := e.link, span := e.span }]) := by
    simp only [State.becomeHeld, he]
    rw [← hu, ← hv, State.modOwn_of_some hve]
  rw [hb]
  refine ⟨c, rfl, ⟨q, n, cs, ?_⟩, ?_, fun ha hq => ?_⟩
  · rw [heq, hu]
    simp [State.setOwn, OwnEntry.heldAt, State.after, tenths]
  · rw [heq]
    rw [hu] at hlen
    exact hlen
  · obtain ⟨h1, h2⟩ := hroom (by rw [hu]; exact ha) (by rw [hu]; exact hq)
    have hcls : u.effectiveClass e.link = s.effectiveClass e.link := by rw [hu]; rfl
    refine ⟨h1.trans hcls, ?_⟩
    have h3 : Holds (e.announce .planHold false (u.effectiveClass e.link) .none) u v := h2
    rw [hcls, hu] at h3
    exact h3

/-! ## The tune -/

theorem State.tune_taken {a : Fin 8} (ha : s.phase = .active)
    (hst : (s.fe a).state = .muted ∨ ∃ sp, (s.fe a).state = .tuned sp) : s.tune a sp = ({ s with
      rport := { s.rport with
        fe := s.rport.fe.set a { s.fe a with
          state := .tuning sp, sent := false, tuneNo := ((s.fe a).tuneNo + 1) % 256 }
        fresh := s.rport.fresh ++ [{ addr := a, kind := .tune sp (((s.fe a).tuneNo + 1) % 256) }] } }, true) := by
  unfold State.tune
  rw [if_pos ha]
  rcases hst with h | ⟨q, h⟩
  · rw [h]
    rfl
  · rw [h]
    rfl

theorem State.hearHeld_tunes (hx : s.link l = some x) (hr : x.reloc = some r) (hp : r.phase = .claiming)
    (hc : r.cand = some sp) (hf : x.tuneInFlight = false) (ha : s.phase = .active)
    (hst : (s.fe x.desc.frontEnd).state = .muted ∨ ∃ q, (s.fe x.desc.frontEnd).state = .tuned q) :
    s.hearHeld l sp = { s with
      rport := { s.rport with
        fe := s.rport.fe.set x.desc.frontEnd { s.fe x.desc.frontEnd with
          state := .tuning sp, sent := false, tuneNo := ((s.fe x.desc.frontEnd).tuneNo + 1) % 256 }
        fresh := s.rport.fresh ++ [{
          addr := x.desc.frontEnd, kind := .tune sp (((s.fe x.desc.frontEnd).tuneNo + 1) % 256) }] }
      lsup := { s.lsup with
        links := s.lsup.links.set l (some { x with
          tuneInFlight := true, reloc := some { r with phase := .tuning } }) } } := by
  have hrel : s.reloc l = some r := (State.reloc_eq hx).trans hr
  obtain ⟨u, hu⟩ : ∃ u, u = s.setLink l { x with reloc := some { r with phase := .tuning } } := ⟨_, rfl⟩
  have hux : u.link l = some { x with reloc := some { r with phase := .tuning } } := by
    rw [hu]; exact State.link_setLink_self l _ s
  have htune := State.tune_taken (s := u) (a := x.desc.frontEnd) (sp := sp) (by rw [hu]; exact ha) (by rw [hu]; exact hst)
  have hcand : s.hearHeld l sp = s.tuneCandidate l := by
    simp only [State.hearHeld, hrel, if_pos (And.intro hp hc)]
  have hissue : s.tuneCandidate l = if (u.issueTune l sp).2 then (u.issueTune l sp).1
      else (u.issueTune l sp).1.tuneFailed l := by
    simp only [State.tuneCandidate, hrel, Option.bind_some, hc]
    rw [State.modReloc_of_some hx hr, ← hu]
  have hi : u.issueTune l sp = ((u.tune x.desc.frontEnd sp).1.modLink l fun x => { x with tuneInFlight := true }, true) := by
    simp only [State.issueTune, hux, hf, Bool.false_eq_true, if_false, htune, if_true]
  rw [hcand, hissue, hi, if_pos rfl, State.modLink_of_some (by rw [State.tune_link]; exact hux), htune, hu]
  simp [State.setLink, State.fe]

/-! ## A claim that stands -/

/-- How the state in which a claim becomes HELD stands to the one in which its event began. -/
structure Before (i : Fin 16) (e : OwnEntry) (d : Nat) (s u : State) : Prop where
  station : stationKept s u
  now     : u.now = max s.now d
  active  : s.phase = .active
  own     : u.ownEntry i = some e
  others  : ∀ j : Fin 16, j ≠ i → u.plan.own[j] = s.plan.own[j]
  lsup    : u.lsup = s.lsup
  rport   : u.rport = s.rport
  tally   : u.tally = s.tally
  tbk     : u.tbk = s.tbk
  queue   : u.biu.queue = s.biu.queue

theorem withNews_held (hn : (u.becomeHeld i).2 = [{ report := .held, link := e.link, span := e.span }]) :
    State.withNews (u.becomeHeld i) = (u.becomeHeld i).1.hearHeld e.link e.span := by
  rw [State.withNews, hn]
  rfl

/-- A claim becomes HELD, and the front-end of its link is tuned (R72, R122, R123). -/
theorem Before.heldAndTuned {d : Nat} (h : Before i e d s u) (hx : s.link e.link = some x) (hr : x.reloc = some r)
    (hp : r.phase = .claiming) (hc : r.cand = some e.span) (hf : x.tuneInFlight = false)
    (hst : s.rport.fe[x.desc.frontEnd].state = .muted ∨ ∃ sp, s.rport.fe[x.desc.frontEnd].state = .tuned sp)
    (ht : After (State.withNews (u.becomeHeld i)) t) :
    Says.heldAndTuned i e x r d s t ∧ t.plan.peers = u.plan.peers := by
  obtain ⟨c, hn, hheld⟩ := State.becomeHeld_held h.own
  rw [withNews_held hn] at ht
  obtain ⟨v, hv⟩ : ∃ v, v = (u.becomeHeld i).1 := ⟨_, rfl⟩
  rw [← hv] at hheld ht
  obtain ⟨⟨q, n, cs, heq⟩, hlen, hroom⟩ := hheld
  have hvl : v.lsup = s.lsup := by rw [heq]; exact h.lsup
  have hvr : v.rport = s.rport := by rw [heq]; exact h.rport
  have hvp : v.phase = .active := by rw [heq]; exact (stationKept.phase h.station).trans h.active
  have hvs : stationKept s v := by
    refine h.station.trans (t := u) ?_
    rw [heq]; exact ⟨rfl, rfl, rfl, rfl, rfl, rfl⟩
  have hhear := State.hearHeld_tunes (s := v) (l := e.link) (sp := e.span) (by rw [State.link, hvl]; exact hx) hr hp hc hf
    hvp (by rw [State.fe, hvr]; exact hst)
  rw [hhear] at ht
  have hcls : u.effectiveClass e.link = s.effectiveClass e.link := by
    simp only [State.effectiveClass, State.link, h.lsup, h.tally]
  have hcfg : u.station = s.station := State.station_congr (stationKept.cfg h.station)
  refine ⟨⟨?_, ?_, ⟨e.heldAt c u.now, ?_, rfl, rfl, rfl, rfl, rfl, rfl, ?_, fun hq => ?_⟩, fun j hj => ?_, ?_, ?_, ?_, ?_,
    ?_⟩, ?_⟩
  · exact (stationKept.trans hvs ⟨rfl, rfl, rfl, rfl, rfl, rfl⟩).trans ht.station
  · rw [ht.now]
    show v.now = _
    rw [heq]
    exact h.now
  · rw [ht.plan]
    show v.plan.own[i] = _
    rw [heq]
    exact getFin_set_self _ _ _
  · rw [← h.now]
    rfl
  · obtain ⟨h1, h2⟩ := hroom ((stationKept.phase h.station).trans h.active) (by rw [h.queue]; exact hq)
    refine ⟨h1.trans hcls, ?_⟩
    rw [← hcls]
    exact ht.waits (h2.waits rfl rfl hcfg fun _ he => he)
  · rw [ht.plan]
    show v.plan.own[j] = _
    rw [heq]
    exact (getFin_set_ne _ hj _).trans (h.others j hj)
  · rw [ht.lsup, ← hvl]
  · rw [ht.radio.1, ← hvr]
    rfl
  · rw [ht.radio.2, commands]
    refine List.mem_append_right _ (mem_byAddress.2 (List.mem_append_right _ ?_))
    rw [← hvr]
    exact List.mem_singleton_self _
  · rw [ht.tally]
    show v.tally = _
    rw [heq]
    exact h.tally
  · refine (talkKept.of_eq (s := s) ?_).trans ht.talk
    show v.tbk = _
    rw [heq]
    exact h.tbk
  · rw [ht.plan]
    show v.plan.peers = _
    rw [heq]

/-! ## One YIELDING entry -/

theorem State.yieldSlot_idle (h : ∀ a, s.ownEntry i = some a → ¬(a.link = l ∧ p a = true)) : s.yieldSlot l p i = s := by
  unfold State.yieldSlot
  split
  · rename_i a ha
    exact if_neg (h a ha)
  · rfl

theorem State.yieldSlots_idle (is : List (Fin 16)) (h : ∀ i ∈ is, ∀ a, s.ownEntry i = some a → ¬(a.link = l ∧ p a = true)) :
    is.foldl (State.yieldSlot l p) s = s := by
  induction is with
  | nil => rfl
  | cons i is ih =>
    rw [List.foldl_cons, State.yieldSlot_idle (h i List.mem_cons_self)]
    exact ih fun k hk => h k (List.mem_cons_of_mem _ hk)

theorem State.yieldSlots_single (is : List (Fin 16)) (hd : is.Nodup) (hj : j ∈ is) (ho : s.ownEntry j = some o)
    (hp : o.link = l ∧ p o = true) (h : ∀ i a, s.ownEntry i = some a → a.link = l ∧ p a = true → i = j) :
    is.foldl (State.yieldSlot l p) s = s.removeOwn j := by
  induction is with
  | nil => cases hj
  | cons i is ih =>
    obtain ⟨hni, hd⟩ := List.nodup_cons.1 hd
    rw [List.foldl_cons]
    by_cases hij : i = j
    · subst hij
      have hstep : s.yieldSlot l p i = s.removeOwn i := by
        simp only [State.yieldSlot, ho]
        exact if_pos hp
      rw [hstep]
      refine State.yieldSlots_idle is fun k hk a ha hpa => ?_
      have hki : k ≠ i := fun hki => hni (hki ▸ hk)
      rw [State.removeOwn_ne hki] at ha
      exact hki (h k a ha hpa)
    · rw [State.yieldSlot_idle fun a ha hpa => hij (h i a ha hpa)]
      exact ih hd ((List.mem_cons.1 hj).resolve_left fun h => hij h.symm)

/-- Only one own entry of a link passes the test: its yield is that entry's. -/
theorem State.yieldWhere_single (ho : s.ownEntry j = some o) (hp : o.link = l ∧ p o = true)
    (h : ∀ i a, s.ownEntry i = some a → a.link = l ∧ p a = true → i = j) : s.yieldWhere l p = s.removeOwn j := by
  rw [State.yieldWhere_eq]
  exact State.yieldSlots_single _ (List.nodup_finRange 16) (List.mem_finRange j) ho hp h

theorem State.leaveSpan_leaveSpan (l : Fin 8) (sp : Span) (s : State) :
    (s.leaveSpan l sp).leaveSpan l sp = s.leaveSpan l sp := by
  unfold State.leaveSpan
  cases hx : s.link l with
  | none => rw [State.modLink_of_none hx, State.modLink_of_none hx]
  | some x =>
    rw [State.modLink_of_some hx, State.modLink_setLink]
    congr 1
    by_cases hc : x.current = some sp
    · simp [hc]
    · simp [hc]

theorem State.leaveSpans_same (l : Fin 8) (sp : Span) (ls : List Span) (h : ∀ a ∈ ls, a = sp) : ∀ s : State,
    ls.foldl (fun s sp => s.leaveSpan l sp) (s.leaveSpan l sp) = s.leaveSpan l sp := by
  induction ls with
  | nil => exact fun s => rfl
  | cons a ls ih =>
    intro s
    rw [List.foldl_cons, h a List.mem_cons_self, State.leaveSpan_leaveSpan]
    exact ih (fun b hb => h b (List.mem_cons_of_mem _ hb)) s

/-- The link's one YIELDING entry is yielded, and its span left (R80). -/
theorem State.leaveYielding_single (h : yieldingAt j o l s) :
    s.leaveYielding l = (s.removeOwn j).leaveSpan l o.span := by
  obtain ⟨ho, hl, hst, hno⟩ := h
  have honly (i : Fin 16) (a : OwnEntry) (ha : s.ownEntry i = some a) (hpa : a.link = l ∧ (a.standing == .yielding) = true) :
      i = j := by
    by_contra hij
    exact hno i a hij ha hpa.1 (by simpa using hpa.2)
  have hw := State.yieldWhere_single (p := fun e => e.standing == .yielding) ho ⟨hl, by simp [hst]⟩ honly
  have hspans : ∀ a ∈ (s.owns.filter fun e => e.link == l && e.standing == .yielding).map (·.span), a = o.span := by
    intro a ha
    obtain ⟨e, he, rfl⟩ := List.mem_map.1 ha
    obtain ⟨he, hp⟩ := List.mem_filter.1 he
    obtain ⟨i, hi⟩ := State.mem_owns.1 he
    have hij := honly i e hi (by simpa using hp)
    rw [hij, ho] at hi
    rw [Option.some.inj hi]
  have hmem : o.span ∈ (s.owns.filter fun e => e.link == l && e.standing == .yielding).map (·.span) :=
    List.mem_map_of_mem (List.mem_filter.2 ⟨State.mem_owns.2 ⟨j, ho⟩, by simp [hl, hst]⟩)
  unfold State.leaveYielding
  dsimp only
  rw [hw]
  generalize (s.owns.filter fun e => e.link == l && e.standing == .yielding).map (·.span) = ls at hspans hmem
  cases ls with
  | nil => cases hmem
  | cons a ls =>
    rw [List.foldl_cons, hspans a List.mem_cons_self]
    exact State.leaveSpans_same l o.span ls (fun b hb => hspans b (List.mem_cons_of_mem _ hb)) _

theorem State.muteLink_fe (hx : s.link l = some x) :
    (s.muteLink l).fe x.desc.frontEnd = (s.fe x.desc.frontEnd).muted := by
  have h : s.muteLink l = (s.mute x.desc.frontEnd).setLink l { x with tuneInFlight := false } := by
    simp only [State.muteLink, hx]
    exact State.modLink_of_some (by rw [State.mute_link]; exact hx)
  rw [h]
  exact getFin_set_self _ _ _

theorem FrontEnd.muted_tuning {f : FrontEnd} (h : ∃ q, f.state = .tuning q) : f.muted.state = .muted := by
  obtain ⟨q, hq⟩ := h
  simp only [FrontEnd.muted, hq]

/-- A HELD candidate of a link whose front-end is on its way to another span: the mute of that tune takes it off the span of
the link's YIELDING entry (R80, R123). -/
theorem State.hearHeld_retunes (hx : s.link l = some x) (hr : x.reloc = some r) (hp : r.phase = .claiming)
    (hc : r.cand = some sp) (hf : x.tuneInFlight = true) (ha : s.phase = .active) (hy : yieldingAt j o l s)
    (hst : ∃ q, (s.fe x.desc.frontEnd).state = .tuning q) :
    (s.hearHeld l sp).plan = { s.plan with own := s.plan.own.set j none } ∧
      (∃ z, (s.hearHeld l sp).link l = some z ∧ z.tuneInFlight = true ∧ z.state = x.state ∧
        z.current = currentLess x o.span ∧ z.reloc = some { r with phase := .tuning }) ∧
      ((s.hearHeld l sp).fe x.desc.frontEnd).state = .tuning sp ∧
      (s.biu.queue.length < 16 → Holds o.yieldOffer s (s.hearHeld l sp)) := by
  have hrel : s.reloc l = some r := (State.reloc_eq hx).trans hr
  obtain ⟨u, hu⟩ : ∃ u, u = s.setLink l { x with reloc := some { r with phase := .tuning } } := ⟨_, rfl⟩
  have hux : u.link l = some { x with reloc := some { r with phase := .tuning } } := by
    rw [hu]; exact State.link_setLink_self l _ s
  have hue (i : Fin 16) : u.ownEntry i = s.ownEntry i := by rw [hu]; rfl
  obtain ⟨ho, hl, hys, hno⟩ := hy
  have hym : yieldingAt j o l (u.muteLink l) := by
    refine ⟨?_, hl, hys, fun i a hij hi => ?_⟩
    · rw [State.muteLink_own, hue, ho]
    · rw [State.muteLink_own, hue] at hi
      exact hno i a hij hi
  have hoff : (u.muteLink l).leaveYielding l = u.mutedOff l j o.span := State.leaveYielding_single hym
  obtain ⟨h1, h2, ⟨b, h3⟩, h4⟩ := State.mutedOff_effect o.span hux ((hue j).trans ho)
  have hev : Evolves Writes.moves u (u.mutedOff l j o.span) := by
    rw [← hoff]
    exact State.leaveYielding_evolves rfl (State.muteLink_evolves rfl (.refl _ u))
  have hua : u.phase = .active := by rw [hu]; exact ha
  have hstm : ((u.mutedOff l j o.span).fe x.desc.frontEnd).state = .muted := by
    have hm := State.muteLink_fe hux
    dsimp only at h2 hm
    rw [h2, hm]
    exact FrontEnd.muted_tuning (by rw [hu]; exact hst)
  obtain ⟨m, hm⟩ : ∃ m, m = u.mutedOff l j o.span := ⟨_, rfl⟩
  rw [← hm] at hoff h1 h3 h4 hev hstm
  have htune := State.tune_taken (s := m) (a := x.desc.frontEnd) (sp := sp) (hev.phase.trans hua) (.inl hstm)
  have hissue : s.hearHeld l sp = if (u.issueTune l sp).2 then (u.issueTune l sp).1
      else (u.issueTune l sp).1.tuneFailed l := by
    have hcand : s.hearHeld l sp = s.tuneCandidate l := by
      simp only [State.hearHeld, hrel, if_pos (And.intro hp hc)]
    rw [hcand]
    simp only [State.tuneCandidate, hrel, Option.bind_some, hc]
    rw [State.modReloc_of_some hx hr, ← hu]
  have hi : u.issueTune l sp = ((m.tune x.desc.frontEnd sp).1.modLink l fun x => { x with tuneInFlight := true }, true) := by
    simp only [State.issueTune, hux, hf, if_true, hoff, htune]
  rw [hissue, hi, if_pos rfl]
  dsimp only
  have hlink := State.link_modLink_self (f := fun x => { x with tuneInFlight := true })
    ((State.tune_link x.desc.frontEnd l sp m).trans h3)
  have hframe := State.modLink_frame l (fun x => { x with tuneInFlight := true }) (m.tune x.desc.frontEnd sp).1
  refine ⟨?_, ⟨_, hlink, rfl, rfl, rfl, rfl⟩, ?_, fun hq => ?_⟩
  · rw [State.modLink_plan, State.tune_plan, h1, hu]
    rfl
  · rw [hframe, htune]
    exact congrArg FrontEnd.state (getFin_set_self _ _ _)
  · rw [hframe, htune]
    have hh := h4 hua (by rw [hu]; exact hq)
    rw [hu] at hh
    exact hh

/-- Settles O51: a HELD claim is tuned. -/
theorem heldClaimIsTuned : Obligations.HeldClaimIsTuned := by
  refine ⟨fun i e d x r s ha he hten hx hr hp hc hf hst => ⟨fun hs hw hy => ?_, fun hal => ?_⟩,
    fun i j e o d x r s ha he hten hx hr hp hc hf hyield hst hs hw hy => ?_⟩
  · have hex := exec_expiry (c := .claimWindowExpiry i) (s := s) (f := fun s => State.withNews (s.closeWindow i)) rfl
      (State.ownTimer_of he hten hs hw)
    have he' : (s.reach d).ownEntry i = some e := he
    have hclose : (s.reach d).closeWindow i = (s.reach d).becomeHeld i := by
      simp only [State.closeWindow, he', if_pos hy]
    have hb : Before i e d s (s.reach d) := ⟨State.reach_stationKept d s, rfl, ha, he, fun _ _ => rfl, rfl, rfl, rfl, rfl, rfl⟩
    rw [hclose] at hex
    exact ⟨_, hex, hb.heldAndTuned hx hr hp hc hf hst (State.finish_after _)⟩
  · have hex := exec_expiry (c := .tentativeAllowanceExpiry i) (s := s) (f := fun s => State.withNews (s.endAllowance i)) rfl
      (State.ownTimer_of he hten rfl hal)
    have he' : (s.reach d).ownEntry i = some e := he
    have hend : (s.reach d).endAllowance i = ((s.reach d).removeRivals e.pendingYield e.span).becomeHeld i := by
      simp only [State.endAllowance, he']
    have hb : Before i e d s ((s.reach d).removeRivals e.pendingYield e.span) :=
      ⟨⟨rfl, rfl, rfl, rfl, rfl, rfl⟩, rfl, ha, he, fun _ _ => rfl, rfl, rfl, rfl, rfl, rfl⟩
    rw [hend] at hex
    obtain ⟨h1, h2⟩ := hb.heldAndTuned hx hr hp hc hf hst (State.finish_after _)
    refine ⟨_, hex, h1, fun k => ?_⟩
    rw [h2]
    have hpeer : ((s.reach d).removeRivals e.pendingYield e.span).plan.peers[k] =
        (s.plan.peers[k]).bind fun p =>
          if e.pendingYield.contains (p.holder, p.link) && s.conflicts p.span e.span then none else some p := by
      simp only [State.removeRivals, Fin.getElem_fin, Vector.getElem_map]
      cases hk : s.plan.peers[k.val] with
      | none => simp [State.reach, hk]
      | some p => simp [State.reach, hk, State.conflicts, State.guard, State.image]
    rw [hpeer]
    cases s.plan.peers[k] with
    | none => rfl
    | some p => simp
  · have hex := exec_expiry (c := .claimWindowExpiry i) (s := s) (f := fun s => State.withNews (s.closeWindow i)) rfl
      (State.ownTimer_of he hten hs hw)
    have he' : (s.reach d).ownEntry i = some e := he
    obtain ⟨c, hn, hheld⟩ := State.becomeHeld_held he'
    have hclose : (s.reach d).closeWindow i = (s.reach d).becomeHeld i := by
      simp only [State.closeWindow, he', if_pos hy]
    rw [hclose, withNews_held hn] at hex
    obtain ⟨ho, hol, hoy, hono⟩ := hyield
    have hij : j ≠ i := by
      rintro rfl
      rw [he] at ho
      rw [← Option.some.inj ho, hten] at hoy
      cases hoy
    obtain ⟨v, hv⟩ : ∃ v, v = ((s.reach d).becomeHeld i).1 := ⟨_, rfl⟩
    rw [← hv] at hheld hex
    obtain ⟨⟨q, n, cs, heq⟩, hlen, hroom⟩ := hheld
    have hvs : stationKept s v := by rw [heq]; exact ⟨rfl, rfl, rfl, rfl, rfl, rfl⟩
    have hvo (k : Fin 16) (hk : k ≠ i) : v.ownEntry k = s.ownEntry k := by
      rw [heq]
      exact getFin_set_ne _ hk _
    have hvy : yieldingAt j o e.link v := by
      refine ⟨(hvo j hij).trans ho, hol, hoy, fun k a hk ha' => ?_⟩
      by_cases hki : k = i
      · subst hki
        have hvi : v.ownEntry k = some (e.heldAt c (s.reach d).now) := by
          rw [heq]
          exact getFin_set_self _ _ _
        rw [hvi] at ha'
        intro _ hay
        rw [← Option.some.inj ha'] at hay
        cases hay
      · rw [hvo k hki] at ha'
        exact hono k a hk ha'
    have hvx : v.link e.link = some x := by rw [heq]; exact hx
    obtain ⟨h1, ⟨z, hz, hz1, hz2, hz3, hz4⟩, h3, h4⟩ := State.hearHeld_retunes hvx hr hp hc hf
      ((stationKept.phase hvs).trans ha) hvy (by rw [heq]; exact hst)
    have hev : Evolves Writes.moves v (v.hearHeld e.link e.span) := State.hearHeld_evolves rfl rfl (.refl _ v)
    obtain ⟨w, hw'⟩ : ∃ w, w = v.hearHeld e.link e.span := ⟨_, rfl⟩
    rw [← hw'] at h1 hz h3 h4 hev hex
    have hfin := w.finish_after
    have hplan : w.finish.plan = { s.plan with
        own := (s.plan.own.set i (some (e.heldAt c (s.reach d).now))).set j none } := by
      rw [hfin.plan, h1, heq]
      rfl
    refine ⟨_, hex, (hvs.trans hev.stationKept).trans hfin.station, ?_, ⟨e.heldAt c (s.reach d).now, ?_, rfl, rfl, rfl⟩, ?_,
      fun k hki hkj => ?_, ?_, ⟨z, by rw [hfin.lsup]; exact hz, hz1, hz2, hz3, hz4⟩, ?_, fun hq => ?_, ?_, ?_⟩
    · rw [hfin.now, hev.now, heq]
      rfl
    · rw [hplan]
      exact (getFin_set_ne _ hij.symm _).trans (getFin_set_self _ _ _)
    · rw [hplan]
      exact getFin_set_self _ _ _
    · rw [hplan]
      exact (getFin_set_ne _ hkj _).trans (getFin_set_ne _ hki _)
    · rw [hplan]
    · rw [hfin.radio.1]
      exact h3
    · have hlt : v.biu.queue.length < 16 := Nat.lt_of_le_of_lt hlen (by
        have hreach : (s.reach d).biu = s.biu := rfl
        rw [hreach]
        omega)
      exact hfin.waits ((h4 hlt).waits rfl rfl (State.station_congr (stationKept.cfg hvs)) fun _ he => he)
    · rw [hfin.tally, hev.tally rfl, heq]
      rfl
    · exact (talkKept.of_eq (s := s) (by rw [hev.tbk rfl, heq]; rfl)).trans hfin.talk

end Sys2Proof.Machine
end

section
/-! SUPPORT. The samples of a link (R99 to R104, R107 to R109, R111 to R114). -/

namespace Sys2Proof.Machine

open Says

variable {l : Fin 8} {x y z : LinkRec} {r : Reloc} {sp : Span} {m : Sample} {s t u v w : State}

/-! ## The tables -/

theorem entryAt_nudgeAt (t : Table) (i j : BitVec 8) (up : Bool) :
    entryAt (nudgeAt t i up) j = if j = i then nudge up (entryAt t i) else entryAt t j := by
  unfold entryAt nudgeAt
  rw [Vector.getElem_set]
  by_cases h : j = i
  · rw [if_pos h, if_pos (by rw [h])]
    rfl
  · rw [if_neg h, if_neg fun hn => h (BitVec.eq_of_toNat_eq hn.symm)]

theorem nudge_down (c : Fin 4) : (nudge false c).val = c.val - 1 := rfl

theorem entryAt_nudgeAt_down (t : Table) (i j : BitVec 8) :
    (entryAt (nudgeAt t i false) j).val = (entryAt t j).val - if j = i then 1 else 0 := by
  rw [entryAt_nudgeAt]
  split
  · rename_i h
    rw [nudge_down, h]
  · rfl

/-- The tables once a pending prediction is resolved (R108). -/
def Lsup.resolved (p : Option Prediction) (bad : Bool) (y : Lsup) : Lsup :=
  match p with
  | some p => y.resolve p bad
  | none => y

theorem Lsup.resolved_frame (p : Option Prediction) (bad : Bool) (y : Lsup) :
    (y.resolved p bad).links = y.links ∧ (y.resolved p bad).histories = y.histories ∧
      (y.resolved p bad).filters = y.filters := by
  cases p with
  | none => exact ⟨rfl, rfl, rfl⟩
  | some p => exact ⟨rfl, rfl, rfl⟩

theorem Lsup.resolved_links (p : Option Prediction) (bad : Bool) (y : Lsup) (ls : Vector (Option LinkRec) 8) :
    ({ y with links := ls } : Lsup).resolved p bad = { y.resolved p bad with links := ls } := by
  cases p with
  | none => rfl
  | some p => rfl

/-! ## The steps of a counted sample -/

/-- The tables of LSUP, its links but one's record as they were. -/
def State.setLsup (y : Lsup) (l : Fin 8) (x : LinkRec) (s : State) : State :=
  { s with lsup := { y with links := s.lsup.links.set l (some x) } }

theorem State.resolveStep_eq (hx : s.link l = some x) (m : Sample) :
    s.resolveStep l m = s.setLsup (s.lsup.resolved x.prediction m.bad) l { x with prediction := none } := by
  cases hp : x.prediction with
  | none =>
    have hx' : s.lsup.links[l] = some x := hx
    have hset : s.lsup.links.set l (some x) = s.lsup.links := by
      rw [← hx']
      exact Vector.set_getElem_self _
    have heta : ({ x with prediction := none } : LinkRec) = x := by rw [← hp]
    simp only [State.resolveStep, hx, Option.bind_some, hp, State.setLsup, heta, hset, Lsup.resolved]
  | some p =>
    simp only [State.resolveStep, hx, Option.bind_some, hp]
    rw [State.modLink_of_some (x := x) (by exact hx)]
    rfl

/-- The record once the outcome is counted, before the tests (R102 steps 2 to 4). -/
def LinkRec.counted (m : Sample) (x : LinkRec) : LinkRec := LinkRec.tick m { x with prediction := none }

theorem State.tickStep_eq (hx : s.link l = some x) (m : Sample) :
    (s.resolveStep l m).modLink l (LinkRec.tick m) =
      s.setLsup (s.lsup.resolved x.prediction m.bad) l (x.counted m) := by
  rw [State.resolveStep_eq hx, State.modLink_of_some (x := { x with prediction := none }) (getFin_set_self _ _ _)]
  simp [State.setLsup, State.setLink, LinkRec.counted]

/-- A link's record and the counters have been written, and nothing else. -/
structure Noted (l : Fin 8) (z : LinkRec) (s t : State) : Prop where
  eq : ∃ c, t = { s with
    lsup := { s.lsup with links := s.lsup.links.set l (some z) }
    mgmt := { s.mgmt with counters := c } }

theorem Noted.of_setLink (l : Fin 8) (z : LinkRec) (s : State) : Noted l z s (s.setLink l z) := ⟨s.mgmt.counters, rfl⟩

theorem Noted.link (h : Noted l z s t) : t.link l = some z := by
  obtain ⟨c, rfl⟩ := h.eq
  exact getFin_set_self _ _ _

theorem Noted.trans (a : Noted l y s t) (b : Noted l z t u) : Noted l z s u := by
  obtain ⟨c, rfl⟩ := a.eq
  obtain ⟨d, rfl⟩ := b.eq
  exact ⟨d, by simp⟩

/-! ### The loss test and the recovery test -/

theorem State.startReloc_busy {cause : Cause} {cand : Option Span} {task override : Bool} (hx : s.link l = some x)
    (hr : x.reloc ≠ none) : s.startReloc l cause cand task override = s := by
  simp only [State.startReloc, hx]
  exact if_neg fun h => hr h.2

theorem State.lossReloc_still (hx : s.link l = some x) (h : x.pinned = true ∨ x.reloc ≠ none) : s.lossReloc l = s := by
  rcases h with h | h
  · exact State.lossReloc_idle hx (.inr h)
  · simp only [State.lossReloc, hx]
    split
    · exact State.startReloc_busy hx h
    · rfl

/-- The state of a link once a sample is counted (R103, R104). -/
def LinkRec.tested (m : Sample) (x : LinkRec) : LinkState :=
  if x.state = .up ∧ x.desc.lossSamples ≤ x.unlocked then .lost
  else if x.state = .lost ∧ m.bad = false then .up else x.state

theorem State.lossStep_still (hx : s.link l = some x) (hs : x.state = .up ∨ x.state = .lost)
    (hno : x.state = .up → x.desc.lossSamples ≤ x.unlocked → x.pinned = true ∨ x.reloc ≠ none) :
    Noted l { x with state := x.tested m } s (s.lossStep l m) := by
  have hx' : s.lsup.links[l] = some x := hx
  have hset : s.lsup.links.set l (some x) = s.lsup.links := by
    rw [← hx']
    exact Vector.set_getElem_self _
  rcases hs with hs | hs
  · by_cases hc : x.desc.lossSamples ≤ x.unlocked
    · have htest : x.tested m = .lost := if_pos ⟨hs, hc⟩
      simp only [State.lossStep, hx, hs, if_pos hc, htest, State.loseLink, if_true]
      rw [State.lossReloc_still (x := { x with state := .lost })
        (s := (s.setLink l { x with state := .lost }).count .linkLost none) (State.link_setLink_self l _ s) (hno hs hc)]
      exact ⟨_, rfl⟩
    · have htest : x.tested m = x.state := by simp [LinkRec.tested, hs, hc]
      simp only [State.lossStep, hx, hs, if_neg hc]
      exact ⟨s.mgmt.counters, by rw [htest, hset]⟩
  · by_cases hb : m.bad = true
    · have htest : x.tested m = x.state := by simp [LinkRec.tested, hs, hb]
      simp only [State.lossStep, hx, hs, if_pos hb]
      exact ⟨s.mgmt.counters, by rw [htest, hset]⟩
    · have htest : x.tested m = .up := by simp [LinkRec.tested, hs, hb]
      simp only [State.lossStep, hx, hs, if_neg hb, htest]
      exact .of_setLink l _ s

theorem State.lossStep_starts (hx : s.link l = some x) (hs : x.state = .up) (hc : x.desc.lossSamples ≤ x.unlocked)
    (hp : x.pinned = false) : ∃ u, Noted l { x with state := .lost } s u ∧
      s.lossStep l m = u.startReloc l .lost none false false := by
  refine ⟨(s.setLink l { x with state := .lost }).count .linkLost none, ⟨_, rfl⟩, ?_⟩
  simp only [State.lossStep, hx, hs, if_pos hc, State.loseLink, if_true]
  exact State.lossReloc_starts (x := { x with state := .lost }) (State.link_setLink_self l _ s) rfl hp

/-! ### The sighting test -/

/-- The record with the outcome noted (R102 step 5). -/
def LinkRec.outcome (m : Sample) (x : LinkRec) : LinkRec := { x with previousBad := m.bad, lastSeverity := m.severity }

/-- The span that a link's sighting test issues a sighting for (R111, R112). -/
def LinkRec.sighting (m : Sample) (x : LinkRec) : Option Span :=
  if x.sightingHoldOff = none then x.sights m.bad else none

theorem LinkRec.outcome_sights (m : Sample) (x : LinkRec) (bad : Bool) : (x.outcome m).sights bad = x.sights bad := rfl

theorem State.sightStep_none (hx : s.link l = some x) (h : x.sighting m = none) :
    s.sightStep l m = s.setLink l (x.outcome m) := by
  have hm : s.modLink l (fun x => { x with previousBad := m.bad, lastSeverity := m.severity }) =
      s.setLink l (x.outcome m) := State.modLink_of_some hx
  simp only [State.sightStep, hm, State.link_setLink_self, LinkRec.outcome_sights]
  cases hs : x.sights m.bad with
  | none => rfl
  | some sp =>
    have hold : x.sightingHoldOff ≠ none := fun hn => by
      rw [LinkRec.sighting, if_pos hn, hs] at h
      cases h
    exact if_pos (Option.isSome_iff_ne_none.2 hold)

theorem State.sightStep_some (hx : s.link l = some x) (h : x.sighting m = some sp) :
    s.sightStep l m = (s.setLink l (x.outcome m)).issueSighting l sp m.bad m.severity := by
  have hm : s.modLink l (fun x => { x with previousBad := m.bad, lastSeverity := m.severity }) =
      s.setLink l (x.outcome m) := State.modLink_of_some hx
  have hold : x.sightingHoldOff = none := by
    by_contra hn
    rw [LinkRec.sighting, if_neg hn] at h
    cases h
  rw [LinkRec.sighting, if_pos hold] at h
  simp only [State.sightStep, hm, State.link_setLink_self, LinkRec.outcome_sights, h]
  exact if_neg (by simp [LinkRec.outcome, hold])

/-! ### The prediction and the trigger -/

/-- The record with its next prediction (R102 step 6). -/
def LinkRec.predicted (n : Prediction) (x : LinkRec) : LinkRec :=
  { x with prediction := some n, fades := if n.fade then min 255 (x.fades + 1) else 0 }

theorem State.predictStep_eq (hx : s.link l = some x) : s.predictStep l =
    s.setLink l (x.predicted (s.lsup.predict x.history s.lsup.histories[x.desc.band.index])) :=
  State.modLink_of_some hx

theorem State.triggerStep_still (hx : s.link l = some x) (h : x.state ≠ .up ∨ x.pinned = true ∨ s.tally.onAir[l] = true ∨
    x.reloc ≠ none ∨ x.relocHoldOff ≠ none ∨ x.fades < x.desc.fadeRun) : s.triggerStep l = s := by
  simp only [State.triggerStep, hx]
  refine if_neg fun ⟨h1, h2, h3, h4, h5, h6⟩ => ?_
  rcases h with h | h | h | h | h | h
  · exact h h1
  · rw [h3] at h
    cases h
  · rw [h4] at h
    cases h
  · exact h h5
  · exact h h6
  · omega

theorem State.triggerStep_starts (hx : s.link l = some x) (hs : x.state = .up) (hp : x.pinned = false)
    (ho : s.tally.onAir[l] = false) (hr : x.reloc = none) (hh : x.relocHoldOff = none) (hf : x.desc.fadeRun ≤ x.fades) :
    s.triggerStep l = (s.setLink l { x with fades := 0 }).startReloc l .predicted none false false := by
  simp only [State.triggerStep, hx]
  exact if_pos ⟨hs, hf, hp, ho, hr, hh⟩

/-! ## The sample -/

/-- The sample timer restarts and the mailbox is taken (R99, R100, R101). -/
structure Mailed (l : Fin 8) (x : LinkRec) (s u : State) : Prop where
  eq : ∃ c, u = { s with
    lsup := { s.lsup with links := s.lsup.links.set l (some { x with
      sampleTimer := some (s.now + x.sampleMs * 1000) }) }
    rport := { s.rport with
      fe := s.rport.fe.set x.desc.frontEnd { s.rport.fe[x.desc.frontEnd] with fresh := false } }
    mgmt := { s.mgmt with counters := c } }

theorem State.sample_held (hx : s.link l = some x) (hf : x.tuneInFlight = true) : s.sample l = { s with
    lsup := { s.lsup with links := s.lsup.links.set l (some { x with
      sampleTimer := some (s.now + x.sampleMs * 1000), prediction := none, fades := 0 }) }
    rport := { s.rport with
      fe := s.rport.fe.set x.desc.frontEnd { s.rport.fe[x.desc.frontEnd] with fresh := false } } } := by
  simp only [State.sample, hx]
  rw [if_pos hf, State.modLink_of_some (x := { x with sampleTimer := some (s.after (ms x.sampleMs)) })
    (by exact State.link_setLink_self l _ s)]
  simp [State.setLink, State.takeMailbox, State.setFe, State.fe, State.after, ms]

theorem State.sample_counted (hx : s.link l = some x) (hf : x.tuneInFlight = false) : ∃ u, Mailed l x s u ∧
    s.sample l = u.countedSample l (classify x.desc.badThreshold s.rport.fe[x.desc.frontEnd].mailbox
      s.rport.fe[x.desc.frontEnd].fresh) := by
  obtain ⟨w, hw⟩ : ∃ w, w = s.setLink l { x with sampleTimer := some (s.after (ms x.sampleMs)) } := ⟨_, rfl⟩
  refine ⟨if (w.takeMailbox x.desc.frontEnd).2.1.isSome && (w.takeMailbox x.desc.frontEnd).2.2
    then (w.takeMailbox x.desc.frontEnd).1 else (w.takeMailbox x.desc.frontEnd).1.count .reportMissed none, ⟨?_⟩, ?_⟩
  · rw [hw]
    split
    · exact ⟨s.mgmt.counters, rfl⟩
    · exact ⟨_, rfl⟩
  · simp only [State.sample, hx]
    rw [if_neg (by simp [hf]), ← hw]
    have hrp : w.rport = s.rport := by rw [hw]; rfl
    have hmail : (w.takeMailbox x.desc.frontEnd).2 =
        (s.rport.fe[x.desc.frontEnd].mailbox, s.rport.fe[x.desc.frontEnd].fresh) := by
      rw [← hrp]
      rfl
    rw [hmail]

theorem State.countedSample_eq (hx : s.link l = some x) (m : Sample) : s.countedSample l m =
    (((((s.setLsup (s.lsup.resolved x.prediction m.bad) l (x.counted m)).lossStep l m).sightStep l m).predictStep
      l).triggerStep l) := by
  rw [← State.tickStep_eq hx]
  rfl

/-- The record of a link with a counted sample (R101 to R104, R111, R112); `a` is the state announced, `h` the sighting
hold-off, `n` the next prediction. -/
def LinkRec.sampled (m : Sample) (a : Bool) (h : Timer) (n : Prediction) (now : Nat) (x : LinkRec) : LinkRec :=
  { x with
    sampleTimer := some (now + x.sampleMs * 1000), history := shiftIn m.bad x.history
    unlocked := unlockedAfter x m.unlocked, state := stateAfter x m.bad m.unlocked, previousBad := m.bad
    lastSeverity := m.severity, announcedBad := a, sightingHoldOff := h, prediction := some n
    fades := if n.fade then min 255 (x.fades + 1) else 0 }

theorem LinkRec.counted_tested (m : Sample) (x : LinkRec) (d : Timer) :
    (LinkRec.counted m { x with sampleTimer := d }).tested m = stateAfter x m.bad m.unlocked := rfl

theorem stateAfter_supervised (hs : x.state = .up ∨ x.state = .lost) (bad unlocked : Bool) :
    stateAfter x bad unlocked = .up ∨ stateAfter x bad unlocked = .lost := by
  unfold stateAfter
  split
  · exact .inr rfl
  · split
    · exact .inl rfl
    · exact hs

theorem LinkRec.sighting_eq (hy : y.state = .up ∨ y.state = .lost) (ha : y.announcedBad = x.announcedBad)
    (hh : y.sightingHoldOff = x.sightingHoldOff) (hc : y.current = x.current) :
    y.sighting m = Says.sighted x m.bad := by
  unfold LinkRec.sighting LinkRec.sights Says.sighted
  rw [ha, hh, hc]
  by_cases h1 : x.sightingHoldOff = none
  · by_cases h2 : m.bad = x.announcedBad
    · simp [h1, h2]
    · simp [h1, h2, hy]
  · simp [h1]

/-- A counted sample up to its trigger (R102 steps 1 to 6), the loss test having started no relocation. -/
structure Supervised (l : Fin 8) (x : LinkRec) (m : Sample) (s w : State) : Prop where
  unsighted : Says.sighted x m.bad = none → ∃ c n, n = (s.lsup.resolved x.prediction m.bad).predict (shiftIn m.bad x.history)
      s.lsup.histories[x.desc.band.index] ∧ w = { s with
    lsup := { s.lsup.resolved x.prediction m.bad with
      links := s.lsup.links.set l (some (x.sampled m x.announcedBad x.sightingHoldOff n s.now)) }
    rport := { s.rport with
      fe := s.rport.fe.set x.desc.frontEnd { s.rport.fe[x.desc.frontEnd] with fresh := false } }
    mgmt := { s.mgmt with counters := c } }
  sighted : ∀ sp, Says.sighted x m.bad = some sp → ∃ q g c a h n,
    h = s.lsup.histories.set sp.band.index (shiftIn (decide (1 ≤ m.severity)) s.lsup.histories[sp.band.index]) ∧
    n = (s.lsup.resolved x.prediction m.bad).predict (shiftIn m.bad x.history) h[x.desc.band.index] ∧ w = { s with
      biu := { s.biu with queue := q, nextAge := g }
      plan := (s.takeSighting sp m.severity).plan
      lsup := { s.lsup.resolved x.prediction m.bad with
        links := s.lsup.links.set l (some (x.sampled m a (some (s.now + 500000)) n s.now)), histories := h }
      rport := { s.rport with
        fe := s.rport.fe.set x.desc.frontEnd { s.rport.fe[x.desc.frontEnd] with fresh := false } }
      mgmt := { s.mgmt with counters := c } } ∧
    (s.phase = .active → s.biu.queue.length < 16 → a = m.bad ∧ Holds (sightingOffer l sp m.bad m.severity) s w)

theorem State.takeSighting_plan {n : Nat} (hp : t.plan = s.plan) (hn : t.now = s.now) (hc : t.cfg = s.cfg) :
    (t.takeSighting sp n).plan = (s.takeSighting sp n).plan := by
  have hi : t.image = s.image := State.image_congr hc
  rcases Nat.lt_or_ge n s.image.quarThreshold with h | h
  · rw [State.takeSighting_below (by rw [hi]; exact h), State.takeSighting_below h, hp]
  · rw [State.takeSighting_reaching (by rw [hi]; exact h), State.takeSighting_reaching h]
    simp only [State.quarantine, State.after, hp, hn, hi]

theorem Sighted.link {a : Bool} {n : Nat} (h : Sighted l x sp a n s t) : t.link l = some (x.announcing a s.now) := by
  rw [h.eq]
  exact getFin_set_self _ _ _

theorem State.sample_supervised (hx : s.link l = some x) (hf : x.tuneInFlight = false)
    (hm : classify x.desc.badThreshold s.rport.fe[x.desc.frontEnd].mailbox s.rport.fe[x.desc.frontEnd].fresh = m)
    (hs : x.state = .up ∨ x.state = .lost)
    (hno : x.state = .up → x.desc.lossSamples ≤ unlockedAfter x m.unlocked → x.pinned = true ∨ x.reloc ≠ none) :
    ∃ w, Supervised l x m s w ∧ s.sample l = w.triggerStep l := by
  obtain ⟨u, ⟨c, hu⟩, hsample⟩ := State.sample_counted hx hf
  have hux : u.link l = some { x with sampleTimer := some (s.now + x.sampleMs * 1000) } := by
    rw [hu]
    exact getFin_set_self _ _ _
  rw [hm, State.countedSample_eq hux] at hsample
  obtain ⟨y, hy⟩ : ∃ y, y = LinkRec.counted m { x with sampleTimer := some (s.now + x.sampleMs * 1000) } := ⟨_, rfl⟩
  rw [← hy] at hsample
  obtain ⟨v, hv⟩ : ∃ v, v = u.setLsup (u.lsup.resolved x.prediction m.bad) l y := ⟨_, rfl⟩
  have hvx : v.link l = some y := by
    rw [hv]
    exact getFin_set_self _ _ _
  dsimp only at hsample
  rw [← hv] at hsample
  obtain ⟨-, hhist, -⟩ := s.lsup.resolved_frame x.prediction m.bad
  have hvs : v = { s with
      lsup := { s.lsup.resolved x.prediction m.bad with links := s.lsup.links.set l (some y) }
      rport := { s.rport with
        fe := s.rport.fe.set x.desc.frontEnd { s.rport.fe[x.desc.frontEnd] with fresh := false } }
      mgmt := { s.mgmt with counters := c } } := by
    rw [hv, hu, State.setLsup, Lsup.resolved_links]
    simp
  have hloss := State.lossStep_still (m := m) hvx (by rw [hy]; exact hs) (by rw [hy]; exact hno)
  have htest : y.tested m = stateAfter x m.bad m.unlocked := by rw [hy]; rfl
  obtain ⟨y1, hy1⟩ : ∃ y1 : LinkRec, y1 = { y with state := y.tested m } := ⟨_, rfl⟩
  rw [← hy1] at hloss
  obtain ⟨w1, hw1⟩ : ∃ w1, w1 = v.lossStep l m := ⟨_, rfl⟩
  rw [← hw1] at hloss hsample
  have hsg : y1.sighting m = Says.sighted x m.bad := by
    refine LinkRec.sighting_eq ?_ ?_ ?_ ?_
    · rw [hy1, htest]
      exact stateAfter_supervised hs _ _
    · rw [hy1, hy]
      rfl
    · rw [hy1, hy]
      rfl
    · rw [hy1, hy]
      rfl
  refine ⟨(w1.sightStep l m).predictStep l, ⟨fun hsn => ?_, fun sp hsp => ?_⟩, hsample⟩
  · rw [State.sightStep_none hloss.link (hsg.trans hsn), State.predictStep_eq (State.link_setLink_self l _ _)]
    obtain ⟨d, hd⟩ := hloss.eq
    refine ⟨d, _, rfl, ?_⟩
    rw [hd, hvs, hy1, htest, hy]
    simp only [State.setLink, Vector.set_set, hhist]
    rfl
  · rw [State.sightStep_some hloss.link (hsg.trans hsp)]
    obtain ⟨a, hsi, hh⟩ := State.issueSighting_sighted (State.link_setLink_self l (y1.outcome m) w1) (sp := sp) m.bad m.severity
    obtain ⟨d, hd⟩ := hloss.eq
    rw [State.predictStep_eq hsi.link]
    obtain ⟨w2, hw2⟩ : ∃ w2, w2 = State.issueSighting l sp m.bad m.severity (w1.setLink l (y1.outcome m)) := ⟨_, rfl⟩
    rw [← hw2] at hsi hh ⊢
    obtain ⟨q, hq⟩ : ∃ q, q = w2.biu.queue := ⟨_, rfl⟩
    obtain ⟨g, hg⟩ : ∃ g, g = w2.biu.nextAge := ⟨_, rfl⟩
    obtain ⟨c2, hc2⟩ : ∃ c2, c2 = w2.mgmt.counters := ⟨_, rfl⟩
    have hpl : ((w1.setLink l (y1.outcome m)).takeSighting sp m.severity).plan = (s.takeSighting sp m.severity).plan :=
      State.takeSighting_plan (by rw [hd, hvs]; rfl) (by rw [hd, hvs]; rfl) (by rw [hd, hvs]; rfl)
    have heq := hsi.eq
    rw [← hq, ← hg, ← hc2, hpl] at heq
    clear hpl hq hg hc2
    refine ⟨q, g, c2, a, _, _, rfl, rfl, ?_, fun ha hr => ?_⟩
    · rw [heq, hd, hvs, hy1, htest, hy]
      simp only [State.setLink, Vector.set_set, Lsup.sighted, hhist]
      rfl
    · obtain ⟨h1, h2⟩ := hh (by rw [hd, hvs]; exact ha) (by rw [hd, hvs]; exact hr)
      refine ⟨h1, ?_⟩
      obtain ⟨e, he, h3, h4, h5⟩ := h2
      refine ⟨e, he, h3, h4, h5.trans ?_⟩
      rw [hd, hvs]
      rfl

end Sys2Proof.Machine
end

section
/-! SUPPORT. SAMPLE_TIMER_EXPIRY (R99 to R104, R107 to R109, R111 to R114). -/

namespace Sys2Proof.Machine

open Says

variable {l : Fin 8} {x y z : LinkRec} {r : Reloc} {sp : Span} {m : Sample} {s t u v w : State}

/-! ## What the specification's sample says -/

theorem classify_of_samples {bad unlocked : Bool} {severity : Nat} (h : samples x bad unlocked severity s) :
    classify x.desc.badThreshold s.rport.fe[x.desc.frontEnd].mailbox s.rport.fe[x.desc.frontEnd].fresh =
      ⟨bad, unlocked, severity⟩ := by
  rcases h with ⟨m, hm, hf, hl, hq⟩ | ⟨hm, rfl, rfl, rfl⟩
  · rw [hm, hf]
    rcases hq with ⟨hq, rfl, rfl, rfl⟩ | ⟨hq, rfl, rfl, rfl⟩
    · simp [classify, hl, hq]
    · simp [classify, hl, hq]
  · generalize s.rport.fe[x.desc.frontEnd].mailbox = b at hm ⊢
    generalize s.rport.fe[x.desc.frontEnd].fresh = f at hm ⊢
    cases b with
    | none => rfl
    | some m =>
      cases f with
      | false => rfl
      | true => simp [classify, show m.lock = false by simpa using hm]

theorem fadesAfter_unsighted {bad : Bool} {n : Nat} (h : sighted x bad = none) : fadesAfter x bad n s =
    if ((s.lsup.resolved x.prediction bad).predict (shiftIn bad x.history) s.lsup.histories[x.desc.band.index]).fade
    then min 255 (x.fades + 1) else 0 := by
  unfold fadesAfter
  rw [h]
  cases x.prediction with
  | none => rfl
  | some p => rfl

theorem fadesAfter_sighted {bad : Bool} {n : Nat} (h : sighted x bad = some sp) : fadesAfter x bad n s =
    if ((s.lsup.resolved x.prediction bad).predict (shiftIn bad x.history)
      (s.lsup.histories.set sp.band.index (shiftIn (decide (1 ≤ n)) s.lsup.histories[sp.band.index]))[x.desc.band.index]).fade
    then min 255 (x.fades + 1) else 0 := by
  unfold fadesAfter
  rw [h, shiftIn_severity]
  cases x.prediction with
  | none => rfl
  | some p => rfl

/-- A sample that is not lost starts no relocation before its trigger. -/
theorem loss_still_of_startsNone {bad unlocked : Bool} {n : Nat} (h : startsNone l x bad unlocked n s) (hs : x.state = .up)
    (hc : x.desc.lossSamples ≤ unlockedAfter x unlocked) : x.pinned = true ∨ x.reloc ≠ none := by
  have hl : stateAfter x bad unlocked = .lost := if_pos ⟨hs, hc⟩
  rcases h with h | h | ⟨-, h⟩ | ⟨h, -⟩
  · exact .inl h
  · exact .inr h
  · rw [hs] at h
    cases h
  · rw [hl] at h
    cases h

theorem stateAfter_of_up {bad unlocked : Bool} (h : stateAfter x bad unlocked = .up) (hs : x.state = .up) :
    ¬ x.desc.lossSamples ≤ unlockedAfter x unlocked := fun hc => by
  rw [stateAfter, if_pos ⟨hs, hc⟩] at h
  cases h

theorem stateAfter_lost_iff {bad unlocked : Bool} (hs : x.state = .up) :
    stateAfter x bad unlocked = .lost ↔ x.desc.lossSamples ≤ unlockedAfter x unlocked := by
  simp [stateAfter, hs]

/-! ## A sample that starts no relocation -/

/-- What a counted sample up to its trigger does, the loss test having started no relocation. -/
structure Sampled (l : Fin 8) (x : LinkRec) (m : Sample) (s w : State) : Prop where
  station : stationKept s w
  now     : w.now = s.now
  fresh   : w.rport.fe[x.desc.frontEnd].fresh = false
  own     : w.plan.own = s.plan.own
  peers   : w.plan.peers = s.plan.peers
  tally   : w.tally = s.tally
  tbk     : w.tbk = s.tbk
  tables  : w.lsup.localTable = (s.lsup.resolved x.prediction m.bad).localTable ∧
    w.lsup.globalTable = (s.lsup.resolved x.prediction m.bad).globalTable ∧
    w.lsup.choiceTable = (s.lsup.resolved x.prediction m.bad).choiceTable
  link    : ∃ a h n, w.link l = some (x.sampled m a h n s.now) ∧
    n = (s.lsup.resolved x.prediction m.bad).predict (shiftIn m.bad x.history) w.lsup.histories[x.desc.band.index] ∧
    (if n.fade then min 255 (x.fades + 1) else 0) = fadesAfter x m.bad m.severity s ∧
    (Says.sighted x m.bad = none → h = x.sightingHoldOff ∧ a = x.announcedBad) ∧
    (∀ sp, Says.sighted x m.bad = some sp → h = some (s.now + 500000) ∧
      (s.phase = .active → s.biu.queue.length < 16 → a = m.bad))
  unsighted : Says.sighted x m.bad = none → w.lsup.histories = s.lsup.histories ∧ w.plan = s.plan ∧
    w.biu.queue = s.biu.queue
  sighted : ∀ sp, Says.sighted x m.bad = some sp →
    w.lsup.histories = s.lsup.histories.set sp.band.index (shiftIn (decide (1 ≤ m.severity)) s.lsup.histories[sp.band.index]) ∧
    w.plan = (s.takeSighting sp m.severity).plan ∧
    (s.phase = .active → s.biu.queue.length < 16 → Holds (sightingOffer l sp m.bad m.severity) s w)

theorem Supervised.sampled (h : Supervised l x m s w) : Sampled l x m s w := by
  cases hsg : Says.sighted x m.bad with
  | none =>
    obtain ⟨c, n, hn, rfl⟩ := h.unsighted hsg
    obtain ⟨-, hh, -⟩ := s.lsup.resolved_frame x.prediction m.bad
    refine ⟨⟨rfl, rfl, rfl, rfl, rfl, rfl⟩, rfl, ?_, rfl, rfl, rfl, rfl, ⟨rfl, rfl, rfl⟩,
      ⟨_, _, n, getFin_set_self _ _ _, ?_, ?_, fun _ => ⟨rfl, rfl⟩, fun sp hsp => ?_⟩, fun _ => ⟨hh, rfl, rfl⟩,
      fun sp hsp => ?_⟩
    · exact congrArg FrontEnd.fresh (getFin_set_self _ _ _)
    · rw [hn]
      exact congrArg (fun a : Vector (BitVec 8) 3 => (s.lsup.resolved x.prediction m.bad).predict (shiftIn m.bad x.history)
        a[x.desc.band.index]) hh.symm
    · rw [fadesAfter_unsighted hsg, hn]
    · rw [hsg] at hsp
      cases hsp
    · rw [hsg] at hsp
      cases hsp
  | some sp =>
    obtain ⟨q, g, c, a, k, n, hk, hn, hw, hq⟩ := h.sighted sp hsg
    have hlink : w.link l = some (x.sampled m a (some (s.now + 500000)) n s.now) := by
      rw [hw]
      exact getFin_set_self _ _ _
    have hplan : w.plan = (s.takeSighting sp m.severity).plan := by rw [hw]
    have hhist : w.lsup.histories = k := by rw [hw]
    refine ⟨by rw [hw]; exact ⟨rfl, rfl, rfl, rfl, rfl, rfl⟩, by rw [hw], ?_, ?_, ?_, by rw [hw], by rw [hw],
      by rw [hw]; exact ⟨rfl, rfl, rfl⟩, ⟨_, _, n, hlink, by rw [hhist, hn], ?_, fun hsn => ?_, fun sp' hsp => ?_⟩,
      fun hsn => ?_, fun sp' hsp => ?_⟩
    · rw [hw]
      exact congrArg FrontEnd.fresh (getFin_set_self _ _ _)
    · rw [hplan, State.takeSighting_frame]
    · rw [hplan, State.takeSighting_frame]
    · rw [fadesAfter_sighted hsg, hn, hk]
    · rw [hsg] at hsn
      cases hsn
    · exact ⟨rfl, fun ha hl => (hq ha hl).1⟩
    · rw [hsg] at hsn
      cases hsn
    · rw [hsg] at hsp
      cases hsp
      exact ⟨hhist.trans hk, hplan, fun ha hl => (hq ha hl).2⟩

theorem exec_sampleTimer (hx : s.link l = some x) {d : Nat} (hd : x.sampleTimer = some d) :
    exec (.sampleTimerExpiry l) s = .next ((s.reach d).sample l).finish :=
  exec_expiry (d := d) (f := State.sample l) rfl (by simp [State.linkTimer, hx, hd])

/-- A counted sample that starts no relocation (R102 to R104, R114). -/
theorem State.sample_still {bad unlocked : Bool} {n : Nat} (hx : s.link l = some x) (hf : x.tuneInFlight = false)
    (hm : samples x bad unlocked n s) (hs : x.state = .up ∨ x.state = .lost) (hno : startsNone l x bad unlocked n s) :
    Sampled l x ⟨bad, unlocked, n⟩ s (s.sample l) := by
  obtain ⟨w, hw, heq⟩ := State.sample_supervised hx hf (classify_of_samples hm) hs
    (loss_still_of_startsNone hno)
  have hsam := hw.sampled
  obtain ⟨a, h, p, hl, -, hp, -⟩ := hsam.link
  rw [heq, State.triggerStep_still hl]
  · exact hsam
  · rcases hno with h | h | ⟨h, -⟩ | ⟨-, h | h | h⟩
    · exact .inr (.inl h)
    · exact .inr (.inr (.inr (.inl h)))
    · exact .inl fun hup => by
        rw [show stateAfter x bad unlocked = .up from hup] at h
        cases h
    · exact .inr (.inr (.inl (hsam.tally ▸ h)))
    · exact .inr (.inr (.inr (.inr (.inl h))))
    · exact .inr (.inr (.inr (.inr (.inr (lt_of_eq_of_lt hp h)))))

/-! ## A sample that starts a relocation -/

/-- What the sighting test and the next prediction keep of a link's record. -/
structure LinkRec.Seen (y z : LinkRec) : Prop where
  state   : z.state = y.state
  reloc   : z.reloc = y.reloc
  outcome : z.lastOutcome = y.lastOutcome

theorem State.sightStep_seen (hy : s.link l = some y) (m : Sample) :
    ∃ z, (s.sightStep l m).link l = some z ∧ y.Seen z := by
  cases h : y.sighting m with
  | none =>
    rw [State.sightStep_none hy h]
    exact ⟨_, State.link_setLink_self l _ _, rfl, rfl, rfl⟩
  | some sp =>
    rw [State.sightStep_some hy h]
    obtain ⟨a, hs, -⟩ := State.issueSighting_sighted (State.link_setLink_self l (y.outcome m) s) (sp := sp) m.bad m.severity
    exact ⟨_, hs.link, rfl, rfl, rfl⟩

theorem State.predictStep_seen (hy : s.link l = some y) : ∃ z, (s.predictStep l).link l = some z ∧ y.Seen z := by
  rw [State.predictStep_eq hy]
  exact ⟨_, State.link_setLink_self l _ _, rfl, rfl, rfl⟩

theorem LinkRec.Seen.trans (a : x.Seen y) (b : y.Seen z) : x.Seen z :=
  ⟨b.state.trans a.state, b.reloc.trans a.reloc, b.outcome.trans a.outcome⟩

/-- The record at the start of a relocation for a loss (R103). -/
def LinkRec.losing (m : Sample) (now : Nat) (x : LinkRec) : LinkRec :=
  { LinkRec.counted m { x with sampleTimer := some (now + x.sampleMs * 1000) } with state := .lost }

/-- A loss starts a relocation, which the rest of the sample leaves as it is. -/
theorem State.sample_loses (hx : s.link l = some x) (hf : x.tuneInFlight = false)
    (hm : classify x.desc.badThreshold s.rport.fe[x.desc.frontEnd].mailbox s.rport.fe[x.desc.frontEnd].fresh = m)
    (hs : x.state = .up) (hc : x.desc.lossSamples ≤ unlockedAfter x m.unlocked) (hp : x.pinned = false) :
    ∃ u : State, u.link l = some (x.losing m s.now) ∧ u.phase = s.phase ∧ u.plan = s.plan ∧
      ∀ y : LinkRec, (u.startReloc l .lost none false false).link l = some y → y.state ≠ .up →
        ∃ z, (s.sample l).link l = some z ∧ y.Seen z := by
  obtain ⟨u, ⟨c, hu⟩, hsample⟩ := State.sample_counted hx hf
  have hux : u.link l = some { x with sampleTimer := some (s.now + x.sampleMs * 1000) } := by
    rw [hu]
    exact getFin_set_self _ _ _
  rw [hm, State.countedSample_eq hux] at hsample
  obtain ⟨y, hy⟩ : ∃ y, y = LinkRec.counted m { x with sampleTimer := some (s.now + x.sampleMs * 1000) } := ⟨_, rfl⟩
  rw [← hy] at hsample
  dsimp only at hsample
  obtain ⟨v, hv⟩ : ∃ v, v = u.setLsup (u.lsup.resolved x.prediction m.bad) l y := ⟨_, rfl⟩
  rw [← hv] at hsample
  have hvy : v.link l = some y := by
    rw [hv]
    exact getFin_set_self _ _ _
  obtain ⟨w, hw, hloss⟩ := State.lossStep_starts (m := m) hvy (by rw [hy]; exact hs) (by rw [hy]; exact hc)
    (by rw [hy]; exact hp)
  refine ⟨w, by rw [hw.link, hy]; rfl, ?_, ?_, fun a ha hna => ?_⟩
  · obtain ⟨c, hw⟩ := hw.eq
    rw [hw, hv, hu]
    rfl
  · obtain ⟨c, hw⟩ := hw.eq
    rw [hw, hv, hu]
    rfl
  · rw [hsample, hloss]
    obtain ⟨b, hb, hab⟩ := State.sightStep_seen ha m
    obtain ⟨z, hz, hbz⟩ := State.predictStep_seen hb
    have hn := (hab.trans hbz).state
    rw [State.triggerStep_still hz (.inl (by rw [hn]; exact hna))]
    exact ⟨z, hz, hab.trans hbz⟩

theorem starting_stands {cause : Cause} {full : Bool} (hs : LinkRec.Stands full r (y.starting (started cause y none false false)) z)
    (hr : r = started cause y none false false) (hc : cause ≠ .taskPin) :
    (∃ a, z.reloc = some a ∧ a.cause = cause) ∨
      (z.reloc = none ∧ ∃ why, z.lastOutcome = some (cause, .failed why)) := by
  subst hr
  rcases hs with ⟨a, b, rfl, ha, -⟩ | h
  · exact .inl ⟨a, rfl, ha.cause⟩
  · obtain ⟨e, he, hw⟩ := h.outcome
    obtain ⟨why, rfl⟩ := hw hc
    exact .inr ⟨h.reloc, why, he⟩

/-- What a start for a loss comes to, once the sample is over (R103). -/
theorem State.sample_lost {bad unlocked : Bool} {n : Nat} (ha : s.phase = .active) (hx : s.link l = some x)
    (hf : x.tuneInFlight = false) (hm : samples x bad unlocked n s) (hs : x.state = .up)
    (hl : stateAfter x bad unlocked = .lost) (hp : x.pinned = false) (hr : x.reloc = none) :
    ∃ z, (s.sample l).link l = some z ∧
      ((∃ a, z.reloc = some a ∧ a.cause = .lost) ∨
        (z.reloc = none ∧ ∃ why, z.lastOutcome = some (.lost, .failed why))) ∧
      (s.plan.overfull = true → z.state = .lost ∧ z.reloc = some (waiting .lost x none false false)) := by
  obtain ⟨u, hu, hph, hpl, hrest⟩ := State.sample_loses hx hf (classify_of_samples hm) hs ((stateAfter_lost_iff hs).1 hl) hp
  obtain ⟨y, hy, hst⟩ := State.startReloc_stands (cause := .lost) (cand := none) (task := false) (override := false) hu
    (hph.trans ha) hr
  have hys : y.state ≠ .up := by
    rcases hst with ⟨a, b, rfl, -⟩ | h
    · simp [LinkRec.starting, LinkRec.losing]
    · rcases h.state with h | h
      · rw [h]
        simp [LinkRec.starting, LinkRec.losing]
      · rw [h]
        simp
  obtain ⟨z, hz, hseen⟩ := hrest y hy hys
  refine ⟨z, hz, ?_, fun ho => ?_⟩
  · rw [hseen.reloc, hseen.outcome]
    exact starting_stands hst rfl (by decide)
  · rw [State.startReloc_full hu (hph.trans ha) hr (hpl ▸ ho) (by simp), State.link_setLink_self] at hy
    cases hy
    exact ⟨hseen.state, hseen.reloc⟩

/-- What the predictive trigger comes to (R114). -/
theorem State.sample_triggers {bad unlocked : Bool} {n : Nat} (ha : s.phase = .active) (hx : s.link l = some x)
    (hf : x.tuneInFlight = false) (hm : samples x bad unlocked n s) (hs : x.state = .up ∨ x.state = .lost)
    (hup : stateAfter x bad unlocked = .up) (hp : x.pinned = false) (hr : x.reloc = none)
    (ho : s.tally.onAir[l] = false) (hh : x.relocHoldOff = none) (hfade : x.desc.fadeRun ≤ fadesAfter x bad n s) :
    ∃ z, (s.sample l).link l = some z ∧ z.fades = 0 ∧
      ((∃ a, z.reloc = some a ∧ a.cause = .predicted) ∨
        (z.reloc = none ∧ ∃ why, z.lastOutcome = some (.predicted, .failed why))) ∧
      (s.plan.overfull = true → z.state = .up ∧ z.reloc = some (waiting .predicted x none false false)) := by
  obtain ⟨w, hw, heq⟩ := State.sample_supervised hx hf (classify_of_samples hm) hs
    fun hs hc => absurd hc (stateAfter_of_up hup hs)
  have hsam := hw.sampled
  obtain ⟨a, h, p, hl, -, hpf, -⟩ := hsam.link
  obtain ⟨y, hy⟩ : ∃ y : LinkRec, y = { x.sampled ⟨bad, unlocked, n⟩ a h p s.now with fades := 0 } := ⟨_, rfl⟩
  have hov : w.plan.overfull = s.plan.overfull := by
    cases hsg : sighted x bad with
    | none => rw [(hsam.unsighted hsg).2.1]
    | some sp => rw [(hsam.sighted sp hsg).2.1, State.takeSighting_frame]
  have hact : (w.setLink l y).phase = .active := (stationKept.phase hsam.station).trans ha
  have hyl : (w.setLink l y).link l = some y := State.link_setLink_self l y w
  have hyr : y.reloc = none := by
    rw [hy]
    exact hr
  rw [heq, State.triggerStep_starts hl hup hp (hsam.tally ▸ ho) hr hh (hfade.trans_eq hpf.symm), ← hy]
  obtain ⟨z, hz, hst⟩ := State.startReloc_stands (cause := .predicted) (cand := none) (task := false) (override := false) hyl
    hact hyr
  have hyf : y.fades = 0 := by rw [hy]
  refine ⟨z, hz, ?_, starting_stands hst rfl (by decide), fun hfull => ?_⟩
  · rcases hst with ⟨a, b, rfl, -⟩ | h
    · exact hyf
    · exact h.fades hyf
  · rw [State.startReloc_full hyl hact hyr (hov.trans hfull) (by simp), State.link_setLink_self] at hz
    cases hz
    rw [hy]
    exact ⟨hup, rfl⟩

end Sys2Proof.Machine
end

section
/-! SUPPORT. SAMPLE_TIMER_EXPIRY settled. -/

namespace Sys2Proof.Machine

open Says

variable {l : Fin 8} {x y z : LinkRec} {r : Reloc} {sp : Span} {m : Sample} {s t u v w : State}

theorem Lsup.resolved_good {p : Prediction} (y : Lsup) :
    (∀ i : BitVec 8, (entryAt (y.resolved (some p) false).localTable i).val =
        (entryAt y.localTable i).val - if i = p.localIx then 1 else 0) ∧
      (∀ i : BitVec 8, (entryAt (y.resolved (some p) false).globalTable i).val =
        (entryAt y.globalTable i).val - if i = p.globalIx then 1 else 0) ∧
      (p.localFade = p.globalFade → (y.resolved (some p) false).choiceTable = y.choiceTable) :=
  ⟨fun i => entryAt_nudgeAt_down _ _ i, fun i => entryAt_nudgeAt_down _ _ i, fun h => if_pos h⟩

/-- The next prediction reads the tables of the state it is made in (R107). -/
theorem Sampled.predicts (h : Sampled l x m s w) (a g : BitVec 8) :
    (s.lsup.resolved x.prediction m.bad).predict a g = w.lsup.predict a g := by
  obtain ⟨h1, h2, h3⟩ := h.tables
  simp only [Lsup.predict, h1, h2, h3]

theorem Sampled.quarantined (h : Sampled l x m s w) (hsg : Says.sighted x m.bad = some sp) :
    (m.severity < s.image.quarThreshold → w.plan = s.plan) ∧
      (s.image.quarThreshold ≤ m.severity → ∃ q ∈ w.plan.quarantine, q.span = sp ∧
        q.expiry = s.now + s.image.quarTimeS * 1000000) := by
  rw [(h.sighted sp hsg).2.1]
  refine ⟨fun hn => by rw [State.takeSighting_below hn], fun hn => ?_⟩
  rw [State.takeSighting_reaching hn]
  exact ⟨_, List.mem_append_right _ (List.mem_singleton_self _), rfl, rfl⟩

theorem State.sample_held_finish {d : Nat} (hx : s.link l = some x) (hd : x.sampleTimer = some d)
    (hf : x.tuneInFlight = true) : exec (.sampleTimerExpiry l) s = .next { s with
      now := max s.now d
      lsup := { s.lsup with links := s.lsup.links.set l (some { x with
        sampleTimer := some (max s.now d + x.sampleMs * 1000), prediction := none, fades := 0 }) }
      rport := { s.rport with
        fe := s.rport.fe.set x.desc.frontEnd { s.rport.fe[x.desc.frontEnd] with fresh := false } } }.finish := by
  rw [exec_sampleTimer hx hd, State.sample_held (s := s.reach d) hx hf]
  rfl

/-- A good sample of an UP link with nothing to start or to announce (R102). -/
theorem State.sample_good {d : Nat} {n : Report} (hx : s.link l = some x) (hd : x.sampleTimer = some d)
    (hf : x.tuneInFlight = false) (hs : x.state = .up) (hb : x.announcedBad = false) (h1 : 1 ≤ x.desc.lossSamples)
    (hno : x.pinned = true ∨ s.tally.onAir[l] = true ∨ x.reloc ≠ none ∨ x.relocHoldOff ≠ none)
    (hm : s.rport.fe[x.desc.frontEnd].mailbox = some n) (hfr : s.rport.fe[x.desc.frontEnd].fresh = true)
    (hl : n.lock = true) (hq : x.desc.badThreshold ≤ n.quality) :
    ∃ w, exec (.sampleTimerExpiry l) s = .next w.finish ∧ Sampled l x ⟨false, false, 0⟩ (s.reach d) w ∧
      Says.sighted x false = none ∧ stateAfter x false false = .up := by
  have hup : stateAfter x false false = .up := by
    have hl : ¬ x.desc.lossSamples ≤ unlockedAfter x false := by
      simp only [unlockedAfter, Bool.false_eq_true, if_false]
      omega
    simp [stateAfter, hs, hl]
  refine ⟨_, exec_sampleTimer hx hd, State.sample_still (s := s.reach d) hx hf (.inl ⟨n, hm, hfr, hl, .inl ⟨hq, rfl, rfl, rfl⟩⟩)
    (.inl hs) ?_, by simp [Says.sighted, hb], hup⟩
  rcases hno with h | h | h | h
  · exact .inl h
  · exact .inr (.inr (.inr ⟨hup, .inl h⟩))
  · exact .inr (.inl h)
  · exact .inr (.inr (.inr ⟨hup, .inr (.inl h)⟩))

/-- What every counted sample that starts no relocation comes to. -/
theorem Sampled.finished {d : Nat} (h : Sampled l x m (s.reach d) w) :
    stationKept s w.finish ∧ w.finish.now = max s.now d ∧ w.finish.rport.fe[x.desc.frontEnd].fresh = false ∧
      w.finish.plan.own = s.plan.own ∧ w.finish.plan.peers = s.plan.peers ∧ w.finish.tally = s.tally ∧
      talkKept s w.finish := by
  have hw := w.finish_after
  refine ⟨stationKept.trans (t := w) h.station hw.station, hw.now.trans h.now, ?_, ?_, ?_, hw.tally.trans h.tally,
    talkKept.trans (t := w) (.of_eq h.tbk) hw.talk⟩
  · rw [hw.radio.1]
    exact h.fresh
  · rw [hw.plan]
    exact h.own
  · rw [hw.plan]
    exact h.peers

theorem sample_keeps {d : Nat} (hx : s.link l = some x) (hd : x.sampleTimer = some d) :
    ∃ t : State, exec (.sampleTimerExpiry l) s = .next t ∧ stationKept s t ∧ t.now = max s.now d ∧
      t.tally = s.tally ∧ talkKept s t ∧ t.lsup.links[l] = ((s.reach d).sample l).link l := by
  have e : Evolves Writes.replicaNews (s.reach d) ((s.reach d).sample l) :=
    State.sample_evolves rfl rfl rfl (.refl _ _)
  rw [exec_sampleTimer hx hd]
  obtain ⟨w, hwe⟩ : ∃ w, w = (s.reach d).sample l := ⟨_, rfl⟩
  rw [← hwe] at e ⊢
  have hw' := w.finish_after
  exact ⟨_, rfl, stationKept.trans (t := w) e.stationKept hw'.station, hw'.now.trans e.now, hw'.tally.trans (e.tally rfl),
    talkKept.trans (t := w) (.of_eq (e.tbk rfl)) hw'.talk, by rw [hw'.lsup]; rfl⟩

/-- Settles O55: the samples of a link follow its outcome, its loss and its trigger. -/
theorem samplesFollowTheLink : Obligations.SamplesFollowTheLink := by
  refine ⟨fun l x d s hx hd hf => State.sample_held_finish hx hd hf,
    fun l x m d s hx hd hf hs hb h1 hno hm hfr hl hq => ?_, fun l x d s hx hd hf hs hp hl hm => ?_,
    fun l x bad unlocked n d s hx hd hf hm hs hno => ?_,
    fun l x bad unlocked n d s ha hx hd hf hm hs hp hr => ⟨fun hl hup => ?_, fun hup ho hh hfade => ?_⟩⟩
  · obtain ⟨w, he, hw, hsg, hup⟩ := State.sample_good hx hd hf hs hb h1 hno hm hfr hl hq
    obtain ⟨hh, hp, hqu⟩ := hw.unsighted hsg
    obtain ⟨t1, t2, t3⟩ := hw.tables
    obtain ⟨a, k, p, hz, hpred, -⟩ := hw.link
    obtain ⟨k1, k2, k3, -, -, k4, k5⟩ := hw.finished
    rw [hw.predicts] at hpred
    have hw' := w.finish_after
    refine ⟨_, he, k1, k2, k3, ?_, fun hn => ?_, fun p hp => ?_,
      ⟨_, p, (congrArg (fun y : Lsup => y.links[l]) hw'.lsup).trans hz, hup, BitVec.or_zero, rfl, rfl, rfl, rfl, rfl,
        rfl, rfl, ?_, ?_, ?_, ?_, ?_, rfl⟩, hw'.plan.trans hp, k4, k5, (congrArg Biu.queue (State.finish_biu w)).trans hqu⟩
    · rw [hw'.lsup]
      exact hh
    · rw [hw'.lsup, t1, t2, t3, hn]
      exact ⟨rfl, rfl, rfl⟩
    · rw [hw'.lsup, t1, t2, t3, hp]
      exact s.lsup.resolved_good
    · rw [hpred]
      rfl
    · rw [hpred]
      exact congrArg (fun v : Vector (BitVec 8) 3 => v[x.desc.band.index]) hh
    · rw [hw'.lsup, hpred]
      rfl
    · rw [hw'.lsup, hpred]
      rfl
    · rw [hw'.lsup, hpred]
      simp [Lsup.predict, high]
  · have hw := State.sample_still (s := s.reach d) (l := l) (bad := true) (unlocked := true) (n := 15) hx hf
      (.inr ⟨hm, rfl, rfl, rfl⟩) (.inl hs) (.inl hp)
    rw [exec_sampleTimer hx hd]
    generalize (s.reach d).sample l = w at hw ⊢
    obtain ⟨a, k, p, hz, -⟩ := hw.link
    obtain ⟨k1, k2, k3, k4⟩ := hw.finished
    exact ⟨_, rfl, k1, k2, k3, ⟨_, (congrArg (fun y : Lsup => y.links[l]) w.finish_after.lsup).trans hz,
      (stateAfter_lost_iff (unlocked := true) hs).2 hl, rfl, rfl, rfl, rfl, rfl, rfl, rfl⟩, k4⟩
  · have hw := State.sample_still (s := s.reach d) (l := l) hx hf hm hs hno
    rw [exec_sampleTimer hx hd]
    generalize (s.reach d).sample l = w at hw ⊢
    obtain ⟨a, k, p, hz, hpred, hfade, hsame, hsight⟩ := hw.link
    obtain ⟨k1, k2, k3, k4⟩ := hw.finished
    have hw' := w.finish_after
    refine ⟨_, rfl, k1, k2, k3, ⟨_, p, (congrArg (fun y : Lsup => y.links[l]) hw'.lsup).trans hz, rfl, rfl, rfl, rfl, rfl,
      rfl, rfl, rfl, rfl, ?_, ?_, rfl, hfade, fun sp hsp => ⟨(hsight sp hsp).1, fun ha hq => ⟨(hsight sp hsp).2 ha hq, ?_⟩⟩,
      hsame⟩, fun sp hsp => ⟨?_, ?_, ?_⟩, fun hn => ?_, k4⟩
    · rw [hpred]
      rfl
    · rw [hw'.lsup, hpred]
      rfl
    · exact hw'.waits (((hw.sighted sp hsp).2.2 ha hq).waits rfl rfl rfl fun e he => he)
    · rw [hw'.lsup, (hw.sighted sp hsp).1, ← shiftIn_severity]
      rfl
    · rw [hw'.plan]
      exact (hw.quarantined hsp).1
    · rw [hw'.plan]
      exact (hw.quarantined hsp).2
    · obtain ⟨hh, hp, hq⟩ := hw.unsighted hn
      rw [hw'.lsup, hw'.plan, State.finish_biu]
      exact ⟨hh, hp, hq⟩
  · obtain ⟨t, he, h1, h2, h3, h4, h5⟩ := sample_keeps hx hd
    obtain ⟨z, hz, h6, h7⟩ := State.sample_lost (s := s.reach d) ha hx hf hm hup hl hp hr
    exact ⟨t, he, h1, h2, h3, h4, z, h5.trans hz, h6, h7⟩
  · obtain ⟨t, he, h1, h2, h3, h4, h5⟩ := sample_keeps hx hd
    obtain ⟨z, hz, h6, h7, h8⟩ := State.sample_triggers (s := s.reach d) ha hx hf hm hs hup hp hr ho hh hfade
    exact ⟨t, he, h1, h2, h3, h4, z, h5.trans hz, h6, h7, h8⟩

end Sys2Proof.Machine
end

section
/-! SUPPORT. The end of LOADING with a valid image (R26, R29, R91, R176). -/

namespace Sys2Proof.Machine

open Says

variable {l : Fin 8} {x : LinkRec} {img : Image} {s t u v w : State}

/-! ## The lamps of the links -/

theorem State.lamp_frame (a : Fin 8) (c : Colour) (s : State) : s.lamp a c = { s with rport := (s.lamp a c).rport } := by
  unfold State.lamp
  split
  · rfl
  · rfl

/-- Once a lamp is requested a command for it waits (R91). -/
theorem State.lamp_waits (a : Fin 8) (c : Colour) (s : State) :
    { addr := a, kind := .lamp c } ∈ (s.lamp a c).rport.pending ++ (s.lamp a c).rport.fresh := by
  unfold State.lamp
  split
  · rename_i h
    obtain ⟨y, hy, hk⟩ := List.any_eq_true.1 h
    have hk : y.addr = a ∧ y.isLamp = true := by simpa using hk
    simp only [State.mapCmds]
    rw [← List.map_append]
    exact List.mem_map.2 ⟨y, hy, by rw [if_pos hk, ← hk.1]⟩
  · exact List.mem_append_right _ (List.mem_append_right _ (List.mem_singleton_self _))

/-- A lamp request of the same colour leaves a waiting lamp command as it is. -/
theorem State.lamp_keeps {a b : Fin 8} {c : Colour}
    (h : { addr := a, kind := .lamp c } ∈ s.rport.pending ++ s.rport.fresh) :
    { addr := a, kind := .lamp c } ∈ (s.lamp b c).rport.pending ++ (s.lamp b c).rport.fresh := by
  unfold State.lamp
  split
  · simp only [State.mapCmds]
    rw [← List.map_append]
    refine List.mem_map.2 ⟨_, h, ?_⟩
    split
    · rfl
    · rfl
  · simp only [State.queueCmd]
    rw [← List.append_assoc]
    exact List.mem_append_left _ h

/-- The lamps of the links' front-ends have been requested OFF. -/
structure Darkened (as : List (Fin 8)) (s t : State) : Prop where
  eq    : t = { s with rport := t.rport }
  fe    : t.rport.fe = s.rport.fe
  lamps : ∀ a ∈ as, (s.linkOf a).isSome = true →
    { addr := a, kind := .lamp .off } ∈ t.rport.pending ++ t.rport.fresh

/-- A link's lamp goes dark where the front-end has a link (R91). -/
def State.darken (a : Fin 8) (s : State) : State := if (s.linkOf a).isSome then s.lamp a .off else s

theorem State.linkOf_congr {a : Fin 8} (h : t.lsup = s.lsup) : t.linkOf a = s.linkOf a := by
  simp only [State.linkOf, State.link, h]

theorem State.darken_frame (a : Fin 8) (s : State) :
    s.darken a = { s with rport := (s.darken a).rport } ∧ (s.darken a).rport.fe = s.rport.fe := by
  unfold State.darken
  split
  · exact ⟨s.lamp_frame a .off, s.lamp_fe a .off⟩
  · exact ⟨rfl, rfl⟩

theorem State.darken_keeps {a b : Fin 8} (h : { addr := a, kind := .lamp .off } ∈ s.rport.pending ++ s.rport.fresh) :
    { addr := a, kind := .lamp .off } ∈ (s.darken b).rport.pending ++ (s.darken b).rport.fresh := by
  unfold State.darken
  split
  · exact State.lamp_keeps h
  · exact h

theorem State.foldl_darken (as : List (Fin 8)) :
    ∀ s : State, Darkened as s (as.foldl (fun s a => s.darken a) s) ∧
      ∀ b : Fin 8, { addr := b, kind := .lamp .off } ∈ s.rport.pending ++ s.rport.fresh →
        { addr := b, kind := .lamp .off } ∈ (as.foldl (fun s a => s.darken a) s).rport.pending ++
          (as.foldl (fun s a => s.darken a) s).rport.fresh := by
  induction as with
  | nil => exact fun s => ⟨⟨rfl, rfl, fun a ha => absurd ha (by simp)⟩, fun b hb => hb⟩
  | cons a as ih =>
    intro s
    obtain ⟨hd, hk⟩ := ih (s.darken a)
    obtain ⟨heq, hfe⟩ := State.darken_frame a s
    have hls : (s.darken a).lsup = s.lsup := by rw [heq]
    rw [List.foldl_cons]
    refine ⟨⟨?_, hd.fe.trans hfe, fun b hb hl => ?_⟩, fun b hb => hk b (State.darken_keeps hb)⟩
    · refine hd.eq.trans ?_
      generalize (as.foldl (fun s a => s.darken a) (s.darken a)).rport = r
      rw [heq]
    · rcases List.mem_cons.1 hb with rfl | hb
      · refine hk b ?_
        rw [State.darken, if_pos hl]
        exact State.lamp_waits b .off s
      · exact hd.lamps b hb (by rw [State.linkOf_congr hls]; exact hl)

theorem State.darkenLinks_darkened (s : State) : Darkened (List.finRange 8) s s.darkenLinks :=
  (State.foldl_darken (List.finRange 8) s).1

theorem State.linkOf_isSome (hx : s.link l = some x) : (s.linkOf x.desc.frontEnd).isSome = true := by
  rw [State.linkOf, List.find?_isSome]
  exact ⟨l, List.mem_finRange l, by simp [hx]⟩

/-! ## The blocks' sections -/

/-- The state with an image's sections taken, before the lamps are requested (R29). -/
def State.taking (img : Image) (s : State) : State := ((({ s with cfg := some img } : State).loadRest).loadTally).loadTbk

/-- The state that ends LOADING, from the lamps' requests on (R29). -/
def State.joinFrom (img : Image) (s : State) : State :=
  ({ s with phase := .joining, biu := { s.biu with joinTimer := some (s.after (sec img.joinListenS)) } } : State).loadXp

theorem State.loadingEnd_eq (img : Image) (s : State) : s.loadingEnd img = ((s.taking img).darkenLinks).joinFrom img := by
  unfold State.loadingEnd State.taking State.joinFrom
  dsimp only

theorem State.taking_image (img : Image) (s : State) : ({ s with cfg := some img } : State).image = img := rfl

/-- What the sections change: the links, the masks and modes of the counters, the tally map and talkback (R29). -/
theorem State.taking_eq (img : Image) (s : State) : ∃ p k n, s.taking img = { s with
    cfg := some img
    lsup := { s.lsup with links := img.links.map fun d => d.map newLink }
    mgmt := { s.mgmt with counters := Vector.ofFn fun k : Fin 8 =>
      { s.mgmt.counters[k] with mask := img.counters[k].mask, bytes := img.counters[k].bytes } }
    tally := { s.tally with
      contacts := Vector.ofFn fun c : Fin 32 => DebouncedLine.accept (s.pins.contacts.getLsbD c)
      sources := img.sourceCounts.map fun n => n.map fun _ => { standby := false, refreshTimer := none, published := none } }
    tbk := { s.tbk with ports := Vector.ofFn p, keys := Vector.ofFn k, lines := n } } ∧
    (∀ q, p q = if portExists img.links q then some (newPort img.ports[q]) else none) ∧
    ∀ q, k q = DebouncedLine.accept (s.pins.keys.getLsbD q) := by
  unfold State.taking State.loadTbk State.loadTally State.loadRest
  dsimp only
  simp only [State.taking_image]
  exact ⟨_, _, _, rfl, fun q => rfl, fun q => rfl⟩

theorem State.taking_links (img : Image) (s : State) :
    (s.taking img).lsup = { s.lsup with links := img.links.map fun d => d.map newLink } := by
  obtain ⟨p, k, n, h, -⟩ := State.taking_eq img s
  rw [h]

theorem State.taking_link {d : LinkDesc} (h : img.links[l] = some d) : (s.taking img).link l = some (newLink d) := by
  rw [State.link, State.taking_links]
  simp only [Fin.getElem_fin, Vector.getElem_map] at h ⊢
  rw [h]
  rfl

theorem pendingEntries_of_all (h : u.tbk.xp.pending = List.finRange 20) : pendingEntries u = List.finRange 20 := by
  unfold pendingEntries
  rw [h]
  simp

/-- LOADING has ended with a valid image; the event is not over yet (R29, R91, R176). -/
structure Joined (img : Image) (s u : State) : Prop where
  phase    : u.phase = .joining
  cfg      : u.cfg = some img
  now      : u.now = s.now
  fault    : u.faultLine = s.faultLine
  reset    : u.resetHeld = s.resetHeld
  pins     : u.pins = s.pins
  pending  : u.pending = s.pending
  biu      : u.biu = { s.biu with joinTimer := some (s.now + img.joinListenS * 1000000) }
  plan     : u.plan = s.plan
  lsup     : u.lsup = { s.lsup with links := img.links.map fun d => d.map newLink }
  rules    : u.mgmt.rules = s.mgmt.rules
  counters : ∀ k : Fin 8, u.mgmt.counters[k] =
    { value := s.mgmt.counters[k].value, mask := img.counters[k].mask, bytes := img.counters[k].bytes }
  contacts : ∀ c : Fin 32, u.tally.contacts[c] = { accepted := s.pins.contacts.getLsbD c, timer := none }
  sources  : ∀ k : Fin 8, u.tally.sources[k] = (img.sourceCounts[k]).map fun _ =>
    { standby := false, refreshTimer := none, published := none }
  keys     : ∀ k : Fin 16, u.tbk.keys[k] = { accepted := s.pins.keys.getLsbD k, timer := none }
  ports    : ∀ q : Fin 12, u.tbk.ports[q] = if portExists img.links q then some (newPort img.ports[q]) else none
  fe       : u.rport.fe = s.rport.fe
  lamps    : ∀ (l : Fin 8) (d : LinkDesc), img.links[l] = some d →
    { addr := d.frontEnd, kind := .lamp .off } ∈ u.rport.pending ++ u.rport.fresh
  sending  : u.tbk.xp.sending = s.tbk.xp.sending
  entries  : u.tbk.xp.pending = List.finRange 20

theorem State.loadingEnd_joined (img : Image) (s : State) : Joined img s (s.loadingEnd img) := by
  have hd := State.darkenLinks_darkened (s.taking img)
  rw [State.loadingEnd_eq]
  have hlamps (l : Fin 8) (d : LinkDesc) (hl : img.links[l] = some d) :=
    hd.lamps d.frontEnd (List.mem_finRange _) (State.linkOf_isSome (State.taking_link (s := s) hl))
  generalize (s.taking img).darkenLinks = v at hd hlamps
  obtain ⟨p, ky, n, htak, hports, hkeys⟩ := State.taking_eq img s
  have hv := hd.eq
  have hfe := hd.fe
  rw [htak] at hv hfe
  generalize v.rport = r at hv hfe hlamps
  subst hv
  exact
    { phase := rfl, cfg := rfl, now := rfl, fault := rfl, reset := rfl, pins := rfl, pending := rfl, biu := rfl, plan := rfl,
      lsup := rfl, rules := rfl, counters := fun k => Vector.getElem_ofFn .., contacts := fun c => Vector.getElem_ofFn ..,
      sources := fun k => Vector.getElem_map .., keys := fun k => (Vector.getElem_ofFn ..).trans (hkeys k),
      ports := fun q => (Vector.getElem_ofFn ..).trans (hports q), fe := hfe, lamps := hlamps,
      sending := by simp only [State.joinFrom, State.loadXp], entries := by simp only [State.joinFrom, State.loadXp] }

/-- Settles O10: a valid image begins JOINING. -/
theorem validImageBeginsJoining : Obligations.ValidImageBeginsJoining := by
  intro m img s hp hr hm hx
  have he : exec (.configurationRead m) s = .next (s.loadingEnd img).finish := by
    have hc : s.configurationRead m = s.loadingEnd img := by
      rw [State.configurationRead, if_pos ⟨hp, hr⟩, hm]
    rw [← hc]
    rfl
  have hj := State.loadingEnd_joined img s
  generalize s.loadingEnd img = u at he hj
  have hfin := u.finish_after
  obtain ⟨hports, hkeys, -⟩ := hfin.talk
  obtain ⟨hfe, hcmd⟩ := hfin.radio
  obtain ⟨h1, h2, h3, h4, h5, h6⟩ := hfin.station
  have hxp := State.finish_xp_of_cons (u := u) (n := 0) (rest := (List.finRange 20).tail) (hj.sending.trans hx)
    (pendingEntries_of_all hj.entries)
  refine ⟨_, he, h1.trans hj.phase, h5.trans hj.cfg, hfin.now.trans hj.now, h3.trans hj.fault, h2.trans (hj.reset.trans hr),
    h4.trans hj.pins, h6.trans hj.pending, (State.finish_biu u).trans hj.biu, hfin.plan.trans hj.plan,
    hfin.lsup.trans hj.lsup, ?_, fun k => ?_, fun c => ?_, fun k => ?_, fun q => ?_, fun k => ?_, hfe.trans hj.fe,
    fun l d hl => ?_, ?_, ?_⟩
  · rw [State.finish_mgmt, hj.rules]
  · rw [State.finish_mgmt, hj.counters]
  · rw [hfin.tally, hj.contacts]
  · rw [hkeys, hj.keys]
  · rw [hports, hj.ports]
    split
    · rfl
    · rfl
  · rw [hfin.tally, hj.sources, Option.isSome_map]
  · rw [hcmd]
    rcases List.mem_append.1 (hj.lamps l d hl) with h | h
    · exact List.mem_append_left _ (List.mem_append_right _ h)
    · exact List.mem_append_right _ (mem_byAddress.2 h)
  · rw [hxp]
  · rw [hxp]

end Sys2Proof.Machine
end

section
/-! SUPPORT. A PRESENCE with the station's own number (R20, R192). -/

namespace Sys2Proof.Machine

open Says

variable {l : Fin 8} {x : LinkRec} {b : Bulletin} {p : BusPort} {s t u v w : State}

/-! ## The entry into SILENT -/

theorem CmdState.off_iff {c : CmdState} : c.off = true ↔ c = .muted ∨ c = .fault := by
  cases c <;> simp [CmdState.off]

theorem foldl_mute_frame (as : List (Fin 8)) : ∀ s : State,
    as.foldl (fun s a => s.mute a) s = { s with rport := (as.foldl (fun s a => s.mute a) s).rport } := by
  induction as with
  | nil => exact fun s => rfl
  | cons a as ih =>
    intro s
    refine (ih (s.mute a)).trans ?_
    rw [List.foldl_cons]
    generalize (as.foldl (fun s a => s.mute a) (s.mute a)).rport = r
    rw [State.mute_frame]

theorem State.muteAll_frame (s : State) : s.muteAll = { s with rport := s.muteAll.rport } :=
  foldl_mute_frame _ s

/-- The entry into SILENT, before its blocks act (R20). -/
def State.silentStart (s : State) : State :=
  { s with
    phase := .silent, faultLine := true
    biu := { s.biu with queue := [], portA := s.biu.portA.silenced, portB := s.biu.portB.silenced
                        presenceTimer := none, joinTimer := none, leaveTimer := none }
    plan := { s.plan with own := Vector.replicate 16 none }
    mgmt := { s.mgmt with longTask := none } }

theorem State.enterSilent_eq (s : State) : ∃ r : Rport, (∀ a : Fin 8, r.fe[a].state.off = true) ∧
    s.enterSilent = { s with
      phase := .silent, faultLine := true
      biu := { s.biu with queue := [], portA := s.biu.portA.silenced, portB := s.biu.portB.silenced
                          presenceTimer := none, joinTimer := none, leaveTimer := none }
      plan := { s.plan with own := Vector.replicate 16 none }
      rport := r
      lsup := { s.lsup with links := s.lsup.links.map fun x => x.map LinkRec.disabled }
      tally := { s.tally with sources := s.tally.sources.map fun x => x.map fun y => { y with refreshTimer := none } }
      tbk := { s.tbk with
        calls := Vector.replicate 4 none, ports := s.tbk.ports.map fun p => p.map TbPort.quiet
        lines := s.tbk.lines.map fun x => { x with talkers := x.talkers.filter fun t => t.station != s.station } }
      mgmt := { s.mgmt with longTask := none } } := by
  refine ⟨_, State.muteAll_off s.silentStart, ?_⟩
  have h : s.enterSilent = ((s.silentStart.muteAll).disableLinks.stopSources).quietTbk := rfl
  rw [h, State.muteAll_frame]
  rfl

theorem BusKept.port (h : BusKept s t) (p : BusPort) : t.biu.port p = s.biu.port p := by
  cases p
  · exact h.portA
  · exact h.portB

theorem PortState.silenced_forward {c : PortState} {x : Tx} (h : c.silenced = .sending x) : x.source = .forward := by
  unfold PortState.silenced at h
  split at h
  · split at h
    · cases h
    · rename_i hx
      cases h
      exact hx
  · cases h
  · cases h
  · cases h

/-! ## The path of a PRESENCE of the station itself -/

theorem State.detectDuplicate_cfg (b : Bulletin) (s : State) : (s.detectDuplicate b).cfg = s.cfg := by
  unfold State.detectDuplicate
  repeat' split
  · obtain ⟨r, -, h⟩ := s.enterSilent_eq
    rw [h]
  all_goals rfl

theorem State.isOwn_of_cfg (h : t.cfg = s.cfg) (b : Bulletin) : t.isOwn b = s.isOwn b := by
  simp [State.isOwn, State.station, State.image, h]

/-- The state in which the captures of an own bulletin are made: counted twice, and SILENT where it shows a duplicate. -/
def State.ownMet (p : BusPort) (b : Bulletin) (s : State) : State :=
  (((s.accepted p b).detectDuplicate b).captureHook b).count .rxOriginMismatch (some b.length)

theorem State.heardRun_own {n : Nat} (hp : s.hears p = true) (ho : s.isOwn b = true) :
    ∃ k : List (Fin 4), s.heardRun p n (some b) = k.foldl (State.makeCapture b .ownOrigin) (s.ownMet p b) := by
  have hlearn : (s.accepted p b).learn p b = s.accepted p b := by
    unfold State.learn
    rw [State.accepted_isOwn, ho, if_neg (by simp)]
  have hown := State.isOwn_of_cfg (State.detectDuplicate_cfg b (s.accepted p b)) b
  rw [State.accepted_isOwn, ho] at hown
  have hfwd : ((s.accepted p b).detectDuplicate b).forward p b = (s.accepted p b).detectDuplicate b := by
    unfold State.forward
    rw [hown, if_neg (by simp)]
  have hdis : (((s.accepted p b).detectDuplicate b).captureHook b).dispatch b = (s.ownMet p b, .ownOrigin) := by
    unfold State.dispatch
    exact if_pos hown
  refine ⟨((s.accepted p b).detectDuplicate b).onceHits b, ?_⟩
  unfold State.heardRun
  rw [if_pos hp]
  change (s.accepted p b).receivePath p b = _
  unfold State.receivePath
  rw [hlearn, hfwd]
  dsimp only
  rw [hdis]

theorem exec_presence_own {rx : Rx} (hp : s.hears p = true) (ha : rx.acceptable = true)
    (ho : rx.origin.toNat = s.station) : ∃ k : List (Fin 4), exec (.presence p rx) s =
      .next (k.foldl (State.makeCapture (rx.bulletin .presence) .ownOrigin) (s.ownMet p (rx.bulletin .presence))).finish := by
  obtain ⟨k, hk⟩ := State.heardRun_own (n := 7 + rx.body.length) (b := rx.bulletin .presence) hp
    (by simp [State.isOwn, Rx.bulletin, ho])
  refine ⟨k, ?_⟩
  rw [exec_arrives (c := .presence p rx) (k := .presence) (.inl rfl) s, State.receive, Rx.accept_of_acceptable ha, hk]
  rfl

theorem State.detectDuplicate_shown {serial : Nat} {records : List PresenceRecord} (ho : s.isOwn b = true)
    (hk : b.kind = Kind.presence.code) (hb : readPresenceBody b.body = some (serial, records)) :
    s.detectDuplicate b = if serial ≠ s.image.serial ∧ s.phase ≠ .silent then s.enterSilent else s := by
  unfold State.detectDuplicate
  rw [ho, hk, hb]
  simp

theorem captures_shut {k : List (Fin 4)} {d : Disposition} (h : w.takesOffers = false) (hq : w.biu.queue = []) :
    (k.foldl (State.makeCapture b d) w).biu.queue = [] := by
  have e : Evolves Writes.all w (k.foldl (State.makeCapture b d) w) :=
    Evolves.foldl _ (fun u _ => State.makeCapture_evolves (.refl _ u)) _ (.refl _ w)
  have := e.shut h
  rw [hq] at this
  exact List.eq_nil_of_length_eq_zero (Nat.le_zero.1 this)

/-- Settles O24: a duplicate station silences the part; any other PRESENCE of its own number is only counted. -/
theorem duplicateStationGoesSilent : Obligations.DuplicateStationGoesSilent := by
  refine ⟨fun p rx serial records s hp ha ho hb hne hph => ?_, fun p rx serial records s hp ha ho hb hsame => ?_⟩
  · obtain ⟨k, he⟩ := exec_presence_own hp ha ho
    have hown : s.isOwn (rx.bulletin .presence) = true := by simp [State.isOwn, Rx.bulletin, ho]
    have hd := State.detectDuplicate_shown (s := s.accepted p (rx.bulletin .presence)) (b := rx.bulletin .presence) hown rfl hb
    rw [if_pos ⟨hne, hph⟩] at hd
    obtain ⟨r, hr, hs⟩ := (s.accepted p (rx.bulletin .presence)).enterSilent_eq
    rw [State.ownMet, hd, hs] at he
    generalize hw : State.count _ _ _ = w at he
    have hc := State.captures_captured (rx.bulletin .presence) .ownOrigin k w
    have hq := captures_shut (b := rx.bulletin .presence) (k := k) (d := .ownOrigin) (w := w) (by rw [← hw]; rfl) (by rw [← hw]; rfl)
    generalize k.foldl (State.makeCapture (rx.bulletin .presence) .ownOrigin) w = v at he hc hq
    have hfin := hc.after
    obtain ⟨hports, -, -, -, hcalls, -⟩ := hfin.talk
    obtain ⟨hfe, -⟩ := hfin.radio
    obtain ⟨h1, h2, h3, h4, h5, h6⟩ := hfin.station
    have hlinks (l : Fin 8) : v.finish.lsup.links[l] = (s.lsup.links[l]).map LinkRec.disabled := by
      rw [hfin.lsup, ← hw]
      exact Vector.getElem_map ..
    refine ⟨_, he, ?_, ?_, ?_, ?_, ?_, ?_, (congrArg Biu.queue (State.finish_biu v)).trans hq, fun q tx hq => ?_, ?_, ?_, ?_, ?_,
      ?_, ?_, fun a => ?_, fun l => ?_, fun l y hy => ?_, fun i => ?_, ?_, ?_, fun k => ?_, fun q r hr => ?_, ?_, fun k y hy => ?_⟩
    · rw [h1, ← hw]; rfl
    · rw [h3, ← hw]; rfl
    · rw [hfin.now, ← hw]; rfl
    · rw [h5, ← hw]; rfl
    · rw [h4, ← hw]; rfl
    · rw [h6, ← hw]; rfl
    · rw [hfin.bus.port, ← hw] at hq
      cases q
      · exact PortState.silenced_forward hq
      · exact PortState.silenced_forward hq
    · rw [hfin.presenceTimer, ← hw]; rfl
    · rw [hfin.joinTimer, ← hw]; rfl
    · rw [hfin.leaveTimer, ← hw]; rfl
    · rw [hfin.roster, ← hw]; cases p <;> rfl
    · rw [hfin.bus.fwdA, ← hw]; cases p <;> rfl
    · rw [hfin.bus.fwdB, ← hw]; cases p <;> rfl
    · rw [hfe, ← hw]
      exact CmdState.off_iff.1 (hr a)
    · rw [hlinks, Option.isSome_map]
    · rw [hlinks] at hy
      obtain ⟨x, -, rfl⟩ := Option.map_eq_some_iff.1 hy
      exact ⟨rfl, rfl⟩
    · rw [hfin.plan, ← hw]
      exact Vector.getElem_replicate ..
    · rw [hfin.plan, ← hw]; rfl
    · rw [hfin.longTask, ← hw]; rfl
    · rw [hcalls, ← hw]
      exact Vector.getElem_replicate ..
    · rw [hports, ← hw] at hr
      obtain ⟨x, -, rfl⟩ := Option.map_eq_some_iff.1 ((Vector.getElem_map ..).symm.trans hr)
      exact ⟨rfl, rfl⟩
    · rw [hfin.tally, ← hw]; rfl
    · rw [hfin.tally, ← hw] at hy
      obtain ⟨x, -, rfl⟩ := Option.map_eq_some_iff.1 ((Vector.getElem_map ..).symm.trans hy)
      rfl
  · obtain ⟨k, he⟩ := exec_presence_own hp ha ho
    have hown : s.isOwn (rx.bulletin .presence) = true := by simp [State.isOwn, Rx.bulletin, ho]
    have hd := State.detectDuplicate_shown (s := s.accepted p (rx.bulletin .presence)) (b := rx.bulletin .presence) hown rfl hb
    rw [if_neg (by rintro ⟨h1, h2⟩; exact hsame.elim h1 h2)] at hd
    rw [State.ownMet, hd] at he
    generalize hw : State.count _ _ _ = w at he
    have hfin := (State.captures_captured (rx.bulletin .presence) .ownOrigin k w).after
    have hst : stationKept s w := by rw [← hw]; exact ⟨rfl, rfl, rfl, rfl, rfl, rfl⟩
    have hrec : recordsKept s w := by
      rw [← hw]
      cases p <;> exact ⟨rfl, rfl, rfl, rfl, ⟨rfl, rfl, rfl, rfl, rfl, rfl⟩, rfl, rfl⟩
    exact ⟨_, he, hst.trans hfin.station, hrec.trans hfin.records⟩

end Sys2Proof.Machine
end

section
/-! SUPPORT. What stays in the transmit queue while an event makes several offers (R8, R9, R11). -/

namespace Sys2Proof.Machine

open Says

variable {o a b : Offer} {os ps L : List Offer} {e v : QueueEntry} {s t u w : State}

/-! ## One offer -/

theorem State.mem_removeQueued {n : Nat} (he : e ∈ s.biu.queue) (hn : e.age ≠ n) : e ∈ (s.removeQueued n).biu.queue :=
  List.mem_filter.2 ⟨he, by simpa using hn⟩

/-- A new entry leaves another in the queue where there is room, or where that one is URGENT (R11). -/
theorem State.mem_addEntry (hl : s.biu.LineRight) (he : e ∈ s.biu.queue) (hr : s.biu.queue.length < 16 ∨ e.urgent = true) :
    e ∈ (s.addEntry o).1.biu.queue := by
  by_cases hq : s.biu.queue.length < 16
  · rw [State.addEntry_of_room hq]
    exact List.mem_append_left _ he
  · have hq' : 16 ≤ s.biu.queue.length := by omega
    have hu := hr.resolve_left hq
    cases ho : o.urgent with
    | false =>
      rw [State.addEntry_refused hq' (.inl ho)]
      exact he
    | true =>
      cases hv : youngestNormal s with
      | none =>
        rw [State.addEntry_refused hq' (.inr hv)]
        exact he
      | some v =>
        have hvm := List.mem_filter.1 (List.mem_of_getLast? hv)
        have hne : e.age ≠ v.age := fun h => by
          have hn : v.urgent = false := by
            have h := hvm.2
            simp only [Bool.and_eq_true, Bool.not_eq_true'] at h
            exact h.1.1
          rw [hl.age_inj he hvm.1 h, hn] at hu
          cases hu
        rw [State.addEntry_evicting hq' ho hv, State.appendEntry_eq]
        refine List.mem_append_left _ ?_
        rw [State.evict_queue]
        exact List.mem_filter.2 ⟨he, by simpa using hne⟩

/-- An offer leaves an entry of another subject in the queue. -/
theorem State.mem_offer (hl : s.biu.LineRight) (he : e ∈ s.biu.queue) (hs : o.supersedes e = false)
    (hk : e.key = none ∨ e.key ≠ o.key) (hr : s.biu.queue.length < 16 ∨ e.urgent = true) :
    e ∈ (s.offer o).1.biu.queue := by
  have hd : e ∈ (s.dropSuperseded o).biu.queue := List.mem_filter.2 ⟨he, by simp [hs]⟩
  have hdl : (s.dropSuperseded o).biu.LineRight := hl.filter _
  have hle : (s.dropSuperseded o).biu.queue.length ≤ s.biu.queue.length := List.length_filter_le _ _
  unfold State.offer
  split
  · dsimp only
    split
    · rename_i f hf
      have hfm := List.mem_of_find?_eq_some hf
      have hfk := List.find?_some hf
      simp only [Bool.and_eq_true, beq_iff_eq] at hfk
      have hne : e.age ≠ f.age := fun h => by
        have := hdl.age_inj hd hfm h
        subst this
        rcases hk with hk | hk
        · rw [← hfk.2, hk] at hfk
          exact absurd hfk.1 (by simp)
        · exact hk hfk.2
      split
      · refine State.mem_addEntry (hdl.filter _) (State.mem_removeQueued hd hne) (hr.imp_left fun h => ?_)
        exact Nat.lt_of_le_of_lt (Nat.le_trans (List.length_filter_le _ _) hle) h
      · exact List.mem_map.2 ⟨e, hd, if_neg hne⟩
    · exact State.mem_addEntry hdl hd (hr.imp_left fun h => Nat.lt_of_le_of_lt hle h)
  · exact he

theorem State.offer_line (o : Offer) (h : s.biu.LineRight) : (s.offer o).1.biu.LineRight :=
  (State.offer_evolves (w := Writes.none) (.refl _ s)).line h

theorem Offer.supersedes_keyless (h : e.key = none) (o : Offer) : o.supersedes e = false := by
  unfold Offer.supersedes
  split
  · simp [h]
  · rfl

/-- Through the operations of an event an URGENT entry with no subject stays. -/
theorem Moves.keeps (h : Moves s t) (hl : s.biu.LineRight) (he : e ∈ s.biu.queue) (hu : e.urgent = true)
    (hk : e.key = none) : t.biu.LineRight ∧ e ∈ t.biu.queue := by
  induction h with
  | refl => exact ⟨hl, he⟩
  | offer o _ ih =>
    obtain ⟨hl, he⟩ := ih
    exact ⟨State.offer_line o hl, State.mem_offer hl he (Offer.supersedes_keyless hk o) (.inl hk) (.inr hu)⟩
  | link l f hf _ ih =>
    rw [State.modLink_frame]
    exact ih
  | refused l sp bad _ ih =>
    rw [State.sightingRefused_frame]
    exact ih
  | count ev n _ ih => exact ih
  | plan x _ ih => exact ih
  | rport x _ ih => exact ih
  | tables x hx _ ih => exact ih
  | tally x _ ih => exact ih
  | tbk x _ ih => exact ih
  | longTask x _ ih => exact ih

/-! ## Offers with room for all of them -/

/-- Among some offers this one is not undone: one of its subject has its content, and none supersedes it. -/
def Firm (L : List Offer) (a : Offer) : Prop :=
  ∀ b ∈ L, (a.key = b.key → a.key ≠ none → a.urgent = b.urgent ∧ a.kind = b.kind ∧ a.target = b.target ∧
    a.body = b.body) ∧ ∀ e : QueueEntry, e.key = a.key → b.supersedes e = false

/-- Some of the offers `L` have been made: the firm ones are in the queue, and they have taken no more room than theirs. -/
structure Queued (L os : List Offer) (s t : State) : Prop where
  takes : t.takesOffers = true
  cfg   : t.cfg = s.cfg
  line  : t.biu.LineRight
  room  : t.biu.queue.length ≤ s.biu.queue.length + os.length
  holds : ∀ o ∈ os, Firm L o → Holds o s t

theorem Queued.refl (ht : s.takesOffers = true) (hl : s.biu.LineRight) : Queued L [] s s :=
  ⟨ht, rfl, hl, Nat.le_refl _, fun _ h => absurd h (by simp)⟩

theorem Holds.congr (h : Holds o s t) (hb : u.biu.queue = t.biu.queue) : Holds o s u := by
  obtain ⟨e, he, h⟩ := h
  exact ⟨e, hb ▸ he, h⟩

theorem Queued.congr (h : Queued L os s t) (hq : u.biu.queue = t.biu.queue) (hn : u.biu.nextAge = t.biu.nextAge)
    (ht : u.takesOffers = true) (hc : u.cfg = t.cfg) : Queued L os s u where
  takes := ht
  cfg := hc.trans h.cfg
  line := by
    have hl := h.line
    unfold Biu.LineRight at hl ⊢
    rw [hq, hn]
    exact hl
  room := hq ▸ h.room
  holds o ho hf := (h.holds o ho hf).congr hq

theorem State.build_congr (h : t.cfg = s.cfg) (o : Offer) (x : Bool) : t.build o x = s.build o x := by
  simp only [State.build, State.station, State.image, h]

theorem State.build_content (hk : a.kind = b.kind) (ht : a.target = b.target) (hb : a.body = b.body) (x : Bool) :
    s.build a x = s.build b x := by
  simp only [State.build, hk, ht, hb]

theorem Queued.offer (h : Queued L os s t) (ho : o ∈ L) (hq : s.biu.queue.length + os.length < 16) :
    Queued L (os ++ [o]) s (t.offered o) := by
  have hroom : t.biu.queue.length < 16 := Nat.lt_of_le_of_lt h.room hq
  have ho' := State.offer_offered o t
  have hnew : Holds o s (t.offered o) := by
    obtain ⟨e, he, h1, h2, h3⟩ := (State.offer_holds (o := o) h.takes hroom).1
    exact ⟨e, he, h1, h2, h3.trans (State.build_congr h.cfg o e.urgent)⟩
  refine ⟨?_, ?_, State.offer_line o h.line, ?_, fun a ha hf => ?_⟩
  · rw [← h.takes, State.offered, ho'.eq]
    rfl
  · rw [← h.cfg, State.offered, ho'.eq]
  · rw [List.length_append, List.length_singleton, ← Nat.add_assoc]
    exact Nat.le_trans (State.offer_length o t) (Nat.succ_le_succ h.room)
  · rcases List.mem_append.1 ha with ha | ha
    · obtain ⟨hsame, hsup⟩ := hf o ho
      obtain ⟨e, he, h1, h2, h3⟩ := h.holds a ha hf
      by_cases hk : a.key = o.key ∧ a.key ≠ none
      · obtain ⟨e', he', h1', h2', h3'⟩ := hnew
        obtain ⟨hu, hkind, htar, hbody⟩ := hsame hk.1 hk.2
        exact ⟨e', he', fun hau => h1' (hu ▸ hau), h2'.trans hk.1.symm,
          h3'.trans (State.build_content hkind htar hbody _).symm⟩
      · refine ⟨e, State.mem_offer h.line he (hsup e h2) ?_ (.inl hroom), h1, h2, h3⟩
        rw [h2]
        by_cases hn : a.key = none
        · exact .inl hn
        · exact .inr fun hk' => hk ⟨hk', hn⟩
    · rw [List.mem_singleton.1 ha]
      exact hnew

/-- Offers made one after another. -/
def State.offers (os : List Offer) (s : State) : State := os.foldl (fun s o => s.offered o) s

theorem Queued.offers : ∀ (ps : List Offer) {os : List Offer} {t : State}, Queued L os s t → (∀ a ∈ ps, a ∈ L) →
    s.biu.queue.length + (os ++ ps).length ≤ 16 → Queued L (os ++ ps) s (t.offers ps) := by
  intro ps
  induction ps with
  | nil =>
    intro os t h _ _
    rw [List.append_nil]
    exact h
  | cons p ps ih =>
    intro os t h hmem hq
    rw [List.append_cons] at hq ⊢
    refine ih (h.offer (hmem p (by simp)) ?_) (fun a ha => hmem a (by simp [ha])) hq
    simp only [List.length_append, List.length_cons, List.length_nil] at hq
    omega

/-! ## Offers slot by slot -/

/-- The offers that the occupied slots of a table make, in slot order. -/
def slotOffers {α : Type} {n : Nat} (v : Vector (Option α) n) (g : Fin n → α → List Offer) (is : List (Fin n)) : List Offer :=
  is.flatMap fun i => (v[i]).elim [] (g i)

theorem mem_slotOffers {α : Type} {n : Nat} {v : Vector (Option α) n} {g : Fin n → α → List Offer} {is : List (Fin n)} :
    o ∈ slotOffers v g is ↔ ∃ i ∈ is, ∃ x, v[i] = some x ∧ o ∈ g i x := by
  unfold slotOffers
  rw [List.mem_flatMap]
  refine exists_congr fun i => and_congr_right fun _ => ?_
  cases h : v[i] with
  | none => simp
  | some x => simp

theorem finRange_map_getElem {α : Type} {n : Nat} (v : Vector α n) : (List.finRange n).map (fun i => v[i]) = v.toList := by
  apply List.ext_getElem
  · simp
  · intro k h1 h2
    simp

theorem slotOffers_length {α : Type} {n : Nat} (v : Vector (Option α) n) (g : Fin n → α → List Offer) (c : α → Nat)
    (hc : ∀ i x, (g i x).length = c x) :
    (slotOffers v g (List.finRange n)).length = ((v.toList.filterMap id).map c).sum := by
  have hl (is : List (Fin n)) : (slotOffers v g is).length = (((is.map fun i => v[i]).filterMap id).map c).sum := by
    induction is with
    | nil => rfl
    | cons i is ih =>
      rw [slotOffers, List.flatMap_cons, List.length_append]
      rw [slotOffers] at ih
      rw [ih, List.map_cons]
      cases h : v[i] with
      | none => simp
      | some x => simp [hc]
  rw [hl, finRange_map_getElem]

end Sys2Proof.Machine
end

section
/-! SUPPORT. The offers of the entry into LEAVING (R33). -/

namespace Sys2Proof.Machine

open Says

variable {o a b : Offer} {os ps L : List Offer} {s t u w : State}

/-! ## What they are -/

/-- The yield of an own entry (R33 step 5). -/
def yieldOff (_ : Fin 16) (e : OwnEntry) : List Offer := [e.yieldOffer]

/-- The CALL_END of a call (R33 step 6). -/
def endOff (station : Nat) (k : Fin 4) (c : CallRec) : List Offer :=
  [callOffer .callEnd true k (c.callerOf station) (c.calleeOf station) c.circuit EndReason.cleared.code]

/-- The TALK off of a talking port. -/
def talkOff (q : Fin 12) (r : TbPort) : List Offer :=
  match r.talk with
  | .talking n _ => [{ kind := .talk, urgent := true, target := 0, body := [byte n, byte q, byte r.talkClass, flagByte false],
                       key := some (.linePort .talk n q), block := .tbk, ticket := .none }]
  | .idle | .bumped _ _ => []

/-- The FOLLOW_TALK off of a port that follows. -/
def followOff (q : Fin 12) (r : TbPort) : List Offer :=
  match r.follow with
  | some f => [{ kind := .followTalk, urgent := true, target := 0,
                 body := [byte (layerNumber f.layer), byte f.input, byte q, flagByte false], key := some (.follow q),
                 block := .tbk, ticket := .none }]
  | none => []

/-- The LINE_LEAVE of every membership of a port. -/
def leaveOffs (q : Fin 12) (r : TbPort) : List Offer := r.members.map fun m => leaveOffer q m.line

/-- The offers of the entry into LEAVING, in their order (R33). -/
def State.partingOffers (s : State) : List Offer :=
  slotOffers s.plan.own yieldOff (List.finRange 16) ++ slotOffers s.tbk.calls (endOff s.station) (List.finRange 4) ++
    slotOffers s.tbk.ports talkOff (List.finRange 12) ++ slotOffers s.tbk.ports followOff (List.finRange 12) ++
    slotOffers s.tbk.ports leaveOffs (List.finRange 12)

theorem leaveCount_eq (s : State) : leaveCount s = 1 + s.owns.length + (s.tbk.calls.toList.filterMap id).length +
    ((s.tbk.ports.toList.filterMap id).map fun r =>
      (talkOff 0 r).length + (followOff 0 r).length + r.members.length).sum := by
  unfold leaveCount
  refine congrArg (fun l : List Nat => 1 + s.owns.length + (s.tbk.calls.toList.filterMap id).length + l.sum)
    (List.map_congr_left fun r _ => ?_)
  unfold talkOff followOff
  cases r.talk <;> cases r.follow <;> rfl

theorem State.partingOffers_length (s : State) : s.partingOffers.length + 1 = leaveCount s := by
  have htalk (q : Fin 12) (r : TbPort) : (talkOff q r).length = (talkOff 0 r).length := by
    unfold talkOff
    cases r.talk <;> rfl
  have hfollow (q : Fin 12) (r : TbPort) : (followOff q r).length = (followOff 0 r).length := by
    unfold followOff
    cases r.follow <;> rfl
  have hown := slotOffers_length s.plan.own yieldOff (fun _ => 1) fun _ _ => rfl
  have hcall := slotOffers_length s.tbk.calls (endOff s.station) (fun _ => 1) fun _ _ => rfl
  rw [List.map_const', List.sum_replicate, smul_eq_mul, mul_one] at hown hcall
  rw [leaveCount_eq, List.sum_map_add, List.sum_map_add, State.partingOffers, List.length_append, List.length_append,
    List.length_append, List.length_append, hown, hcall, slotOffers_length s.tbk.ports talkOff _ htalk,
    slotOffers_length s.tbk.ports followOff _ hfollow,
    slotOffers_length s.tbk.ports leaveOffs (fun r => r.members.length) fun q r => List.length_map ..]
  simp only [State.owns]
  omega

/-! ## They can stand together -/

/-- The kind that an offer's subject names, or that the offer is of. -/
theorem State.mem_partingOffers : o ∈ s.partingOffers ↔
    (∃ i e, s.ownEntry i = some e ∧ o ∈ yieldOff i e) ∨ (∃ k c, s.call k = some c ∧ o ∈ endOff s.station k c) ∨
      ∃ q r, s.tbPort q = some r ∧ (o ∈ talkOff q r ∨ o ∈ followOff q r ∨ o ∈ leaveOffs q r) := by
  simp only [State.partingOffers, List.mem_append, mem_slotOffers, List.mem_finRange, true_and, State.ownEntry, State.call,
    State.tbPort]
  constructor
  · rintro ((((h | h) | ⟨q, r, hr, h⟩) | ⟨q, r, hr, h⟩) | ⟨q, r, hr, h⟩)
    · exact .inl h
    · exact .inr (.inl h)
    · exact .inr (.inr ⟨q, r, hr, .inl h⟩)
    · exact .inr (.inr ⟨q, r, hr, .inr (.inl h)⟩)
    · exact .inr (.inr ⟨q, r, hr, .inr (.inr h)⟩)
  · rintro (h | h | ⟨q, r, hr, h | h | h⟩)
    · exact .inl (.inl (.inl (.inl h)))
    · exact .inl (.inl (.inl (.inr h)))
    · exact .inl (.inl (.inr ⟨q, r, hr, h⟩))
    · exact .inl (.inr ⟨q, r, hr, h⟩)
    · exact .inr ⟨q, r, hr, h⟩

theorem mem_yieldOff {i : Fin 16} {e : OwnEntry} (h : o ∈ yieldOff i e) : o = e.yieldOffer := List.mem_singleton.1 h

theorem mem_endOff {n : Nat} {k : Fin 4} {c : CallRec} (h : o ∈ endOff n k c) :
    o = callOffer .callEnd true k (c.callerOf n) (c.calleeOf n) c.circuit EndReason.cleared.code := List.mem_singleton.1 h

theorem mem_talkOff {q : Fin 12} {r : TbPort} (h : o ∈ talkOff q r) : ∃ n key, r.talk = .talking n key ∧
    o = { kind := .talk, urgent := true, target := 0, body := [byte n, byte q, byte r.talkClass, flagByte false],
          key := some (.linePort .talk n q), block := .tbk, ticket := .none } := by
  unfold talkOff at h
  split at h
  · rename_i n key hr
    exact ⟨n, key, hr, List.mem_singleton.1 h⟩
  · cases h
  · cases h

theorem mem_followOff {q : Fin 12} {r : TbPort} (h : o ∈ followOff q r) : ∃ f, r.follow = some f ∧
    o = { kind := .followTalk, urgent := true, target := 0,
          body := [byte (layerNumber f.layer), byte f.input, byte q, flagByte false], key := some (.follow q),
          block := .tbk, ticket := .none } := by
  unfold followOff at h
  split at h
  · rename_i f hr
    exact ⟨f, hr, List.mem_singleton.1 h⟩
  · cases h

theorem mem_leaveOffs {q : Fin 12} {r : TbPort} (h : o ∈ leaveOffs q r) : ∃ m ∈ r.members, o = leaveOffer q m.line := by
  obtain ⟨m, hm, rfl⟩ := List.mem_map.1 h
  exact ⟨m, hm, rfl⟩

/-- The offer of the entry into LEAVING that a subject has. -/
def State.partingAt (s : State) : SubjectKey → Option Offer
  | .plan _ l sp => some { kind := .planYield, urgent := true, target := 0, body := Span.bytes sp ++ [byte l],
                           key := some (.plan .planYield l sp), block := .plan, ticket := .none }
  | .call _ n => ((finOf 4 n).bind fun k => (s.call k).map (endOff s.station k)).bind List.head?
  | .linePort .talk _ q => ((s.tbPort q).map (talkOff q)).bind List.head?
  | .linePort _ n q => some (leaveOffer q n)
  | .follow q => ((s.tbPort q).map (followOff q)).bind List.head?
  | .presence | .sighting _ | .tally _ => none

theorem State.partingAt_of_mem (h : o ∈ s.partingOffers) : ∃ k, o.key = some k ∧ s.partingAt k = some o ∧
    ∀ kind l sp, k = .plan kind l sp → kind = .planYield := by
  rcases State.mem_partingOffers.1 h with ⟨i, e, he, h⟩ | ⟨k, c, hc, h⟩ | ⟨q, r, hr, h | h | h⟩
  · obtain rfl := mem_yieldOff h
    exact ⟨_, rfl, rfl, fun _ _ _ h => by cases h; rfl⟩
  · obtain rfl := mem_endOff h
    refine ⟨_, rfl, ?_, fun _ _ _ h => by cases h⟩
    simp only [State.partingAt, finOf_val, Option.bind_some, hc, Option.map_some]
    rfl
  · obtain ⟨n, key, hn, rfl⟩ := mem_talkOff h
    refine ⟨_, rfl, ?_, fun _ _ _ h => by cases h⟩
    simp only [State.partingAt, hr, Option.map_some, Option.bind_some, talkOff, hn]
    rfl
  · obtain ⟨f, hf, rfl⟩ := mem_followOff h
    refine ⟨_, rfl, ?_, fun _ _ _ h => by cases h⟩
    simp only [State.partingAt, hr, Option.map_some, Option.bind_some, followOff, hf]
    rfl
  · obtain ⟨m, -, rfl⟩ := mem_leaveOffs h
    exact ⟨_, rfl, rfl, fun _ _ _ h => by cases h⟩

theorem Offer.supersedes_other {e : QueueEntry} {k : SubjectKey} (he : e.key = some k)
    (hk : ∀ kind l sp, k = .plan kind l sp → kind = .planYield) (o : Offer) : o.supersedes e = false := by
  refine Offer.supersedes_eq_false fun l sp _ => ⟨fun h => ?_, fun h => ?_⟩
  · have := hk _ _ _ (Option.some.inj (he.symm.trans h))
    cases this
  · have := hk _ _ _ (Option.some.inj (he.symm.trans h))
    cases this

theorem State.partingOffers_firm (s : State) (ha : a ∈ s.partingOffers) : Firm s.partingOffers a := by
  intro b hb
  obtain ⟨k, hk, hka, hkind⟩ := State.partingAt_of_mem ha
  obtain ⟨j, hj, hjb, -⟩ := State.partingAt_of_mem hb
  refine ⟨fun h _ => ?_, fun e he => Offer.supersedes_other (he.trans hk) hkind b⟩
  obtain rfl : k = j := Option.some.inj (hk.symm.trans (h.trans hj))
  obtain rfl : a = b := Option.some.inj (hka.symm.trans hjb)
  exact ⟨rfl, rfl, rfl, rfl⟩

/-! ## They are made -/

theorem Queued.removeOwn {i : Fin 16} (h : Queued L os s t) (hmem : ∀ a ∈ (t.plan.own[i]).elim [] (yieldOff i), a ∈ L)
    (hq : s.biu.queue.length + (os ++ (t.plan.own[i]).elim [] (yieldOff i)).length ≤ 16) :
    Queued L (os ++ (t.plan.own[i]).elim [] (yieldOff i)) s (t.removeOwn i) := by
  cases he : t.plan.own[i] with
  | none =>
    have hr : t.removeOwn i = t := by simp only [State.removeOwn, State.ownEntry, he]
    rw [hr, Option.elim_none, List.append_nil]
    exact h
  | some e =>
    have hr : t.removeOwn i = (t.setOwn i none).offers [e.yieldOffer] := by
      simp only [State.removeOwn, State.ownEntry, he]
      rfl
    rw [he] at hmem hq
    rw [hr]
    exact Queued.offers _ (h.congr (u := t.setOwn i none) rfl rfl h.takes rfl) hmem hq

theorem slotOffers_cons {α : Type} {n : Nat} (v : Vector (Option α) n) (g : Fin n → α → List Offer) (i : Fin n)
    (is : List (Fin n)) : slotOffers v g (i :: is) = (v[i]).elim [] (g i) ++ slotOffers v g is := rfl

theorem Queued.yields (v : Vector (Option OwnEntry) 16) : ∀ (is : List (Fin 16)) {os : List Offer} {t : State},
    is.Nodup → Queued L os s t → (∀ i ∈ is, t.plan.own[i] = v[i]) → (∀ a ∈ slotOffers v yieldOff is, a ∈ L) →
    s.biu.queue.length + (os ++ slotOffers v yieldOff is).length ≤ 16 →
    Queued L (os ++ slotOffers v yieldOff is) s (is.foldl (fun s i => s.removeOwn i) t) := by
  intro is
  induction is with
  | nil =>
    intro os t _ h _ _ _
    rw [slotOffers, List.flatMap_nil, List.append_nil]
    exact h
  | cons i is ih =>
    intro os t hn h hv hmem hq
    obtain ⟨hi, hn⟩ := List.nodup_cons.1 hn
    rw [slotOffers_cons] at hmem hq ⊢
    rw [← List.append_assoc] at hq ⊢
    have hvi := hv i List.mem_cons_self
    rw [← hvi] at hmem hq ⊢
    refine ih hn (h.removeOwn (fun a ha => hmem a (List.mem_append_left _ ha)) ?_) (fun j hj => ?_)
      (fun a ha => hmem a (List.mem_append_right _ ha)) hq
    · rw [List.length_append] at hq
      omega
    · rw [State.removeOwn_plan]
      refine (getFin_set_ne _ ?_ _).trans (hv j (List.mem_cons_of_mem _ hj))
      rintro rfl
      exact hi hj

end Sys2Proof.Machine
end

section
/-! SUPPORT. The entry into LEAVING (R33, R35). -/

namespace Sys2Proof.Machine

open Says

variable {o a b : Offer} {os ps L : List Offer} {x : TaskRx} {p : BusPort} {s t u v w : State}

/-! ## The offers of talkback -/

theorem State.offers_tbk (os : List Offer) : ∀ s : State, (s.offers os).tbk = s.tbk := by
  induction os with
  | nil => exact fun s => rfl
  | cons o os ih => exact fun s => (ih (s.offered o)).trans (State.offered_tbk o s)

/-- The CALL_END of the call in a slot. -/
def State.partCall (s : State) (k : Fin 4) : State :=
  (s.call k).elim s fun c => s.offerFor .callEnd true k c EndReason.cleared.code

theorem State.partCall_some {k : Fin 4} {c : CallRec} (h : s.call k = some c) : s.partCall k =
    (s.offers (endOff s.station k c)).freeCircuit c.circuit (c.callerOf s.station) := by
  simp only [State.partCall, h]
  rfl

theorem State.partCall_none {k : Fin 4} (h : s.call k = none) : s.partCall k = s := by
  simp only [State.partCall, h, Option.elim_none]

theorem Queued.partCall {k : Fin 4} (h : Queued L os s t) (hmem : ∀ a ∈ (t.tbk.calls[k]).elim [] (endOff t.station k), a ∈ L)
    (hq : s.biu.queue.length + (os ++ (t.tbk.calls[k]).elim [] (endOff t.station k)).length ≤ 16) :
    Queued L (os ++ (t.tbk.calls[k]).elim [] (endOff t.station k)) s (t.partCall k) := by
  cases hc : t.tbk.calls[k] with
  | none =>
    rw [State.partCall_none hc, Option.elim_none, List.append_nil]
    exact h
  | some c =>
    rw [hc] at hmem hq
    rw [State.partCall_some hc, State.freeCircuit_frame]
    have ho := Queued.offers _ h hmem hq
    exact ho.congr rfl rfl ho.takes rfl

theorem State.partCall_calls (k : Fin 4) (s : State) : (s.partCall k).tbk.calls = s.tbk.calls ∧ (s.partCall k).cfg = s.cfg := by
  cases h : s.call k with
  | none => rw [State.partCall_none h]; exact ⟨rfl, rfl⟩
  | some c =>
    rw [State.partCall_some h, State.freeCircuit_frame]
    refine ⟨?_, (State.offer_offered _ s).cfg⟩
    dsimp only
    rw [State.offers_tbk]

theorem Queued.ends (v : Vector (Option CallRec) 4) (n : Nat) : ∀ (ks : List (Fin 4)) {os : List Offer} {t : State},
    Queued L os s t → t.tbk.calls = v → t.station = n → (∀ a ∈ slotOffers v (endOff n) ks, a ∈ L) →
    s.biu.queue.length + (os ++ slotOffers v (endOff n) ks).length ≤ 16 →
    Queued L (os ++ slotOffers v (endOff n) ks) s (ks.foldl State.partCall t) := by
  intro ks
  induction ks with
  | nil =>
    intro os t h _ _ _ _
    rw [slotOffers, List.flatMap_nil, List.append_nil]
    exact h
  | cons k ks ih =>
    intro os t h hv hn hmem hq
    rw [slotOffers_cons] at hmem hq ⊢
    rw [← List.append_assoc] at hq ⊢
    obtain ⟨hcalls, hcfg⟩ := State.partCall_calls k t
    refine ih ?_ (hcalls.trans hv) ((State.station_congr hcfg).trans hn) (fun a ha => hmem a (List.mem_append_right _ ha)) hq
    subst hv hn
    refine h.partCall (fun a ha => hmem a (List.mem_append_left _ ha)) ?_
    rw [List.length_append] at hq
    omega

/-- A step over one port, where it exists. -/
def State.overPort (f : Fin 12 → TbPort → State → State) (s : State) (q : Fin 12) : State :=
  (s.tbPort q).elim s fun r => f q r s

theorem State.overPorts_eq (f : Fin 12 → TbPort → State → State) (s : State) :
    s.overPorts f = (List.finRange 12).foldl (State.overPort f) s := by
  unfold State.overPorts
  refine List.foldl_ext _ _ s fun u q _ => ?_
  unfold State.overPort
  cases u.tbPort q <;> rfl

/-- Going through the ports with offers alone makes the ports' offers. -/
theorem State.overPorts_offers {f : Fin 12 → TbPort → State → State} {g : Fin 12 → TbPort → List Offer}
    (hf : ∀ q r u, f q r u = u.offers (g q r)) (s : State) :
    s.overPorts f = s.offers (slotOffers s.tbk.ports g (List.finRange 12)) := by
  have key (qs : List (Fin 12)) (v : Vector (Option TbPort) 12) : ∀ u : State, u.tbk.ports = v →
      qs.foldl (State.overPort f) u = u.offers (slotOffers v g qs) := by
    induction qs with
    | nil => exact fun u _ => rfl
    | cons q qs ih =>
      intro u hu
      have hcons : slotOffers v g (q :: qs) = (v[q]).elim [] (g q) ++ slotOffers v g qs := rfl
      have hu' : State.overPort f u q = u.offers ((v[q]).elim [] (g q)) := by
        rw [State.overPort, State.tbPort, hu]
        cases v[q] with
        | none => rfl
        | some r => exact hf q r u
      rw [List.foldl_cons, hcons, State.offers, List.foldl_append, hu']
      exact ih _ ((congrArg Tbk.ports (State.offers_tbk _ u)).trans hu)
  rw [State.overPorts_eq]
  exact key (List.finRange 12) s.tbk.ports s rfl

/-- The offers of talkback, before its records go to idle (R33 step 6). -/
def State.leaveOffersMade (s : State) : State :=
  (((((List.finRange 4).foldl State.partCall s).offers (slotOffers s.tbk.ports talkOff (List.finRange 12))).offers
    (slotOffers s.tbk.ports followOff (List.finRange 12))).offers (slotOffers s.tbk.ports leaveOffs (List.finRange 12)))

theorem State.endCalls_ports (ks : List (Fin 4)) : ∀ s : State, (ks.foldl State.partCall s).tbk.ports = s.tbk.ports := by
  induction ks with
  | nil => exact fun s => rfl
  | cons k ks ih =>
    intro s
    refine (ih _).trans ?_
    cases h : s.call k with
    | none => rw [State.partCall_none h]
    | some c =>
      rw [State.partCall_some h, State.freeCircuit_frame]
      dsimp only
      rw [State.offers_tbk]

theorem State.leaveTbk_eq (s : State) : s.leaveTbk = s.leaveOffersMade.quietTbk := by
  unfold State.leaveTbk
  dsimp only
  rw [List.foldl_ext _ State.partCall s fun u k _ => ?_]
  have hp := State.endCalls_ports (List.finRange 4) s
  generalize he : (List.finRange 4).foldl State.partCall s = u at hp
  rw [State.overPorts_offers (g := leaveOffs), State.overPorts_offers (g := followOff), State.overPorts_offers (g := talkOff),
    State.leaveOffersMade, he]
  · simp only [State.offers_tbk, hp]
  · intro q r u
    unfold talkOff
    cases r.talk <;> rfl
  · intro q r u
    unfold followOff
    cases r.follow <;> rfl
  · intro q r u
    exact (List.foldl_map (f := fun m : Membership => leaveOffer q m.line) (g := fun (s : State) o => s.offered o)).symm
  · unfold State.partCall
    cases u.call k <;> rfl

/-! ## What the offers leave -/

/-- Some offers, the own entries they yield, and the circuits of the calls they end. -/
structure Parting (s t : State) : Prop where
  eq : t = { s with
    biu := { s.biu with queue := t.biu.queue, nextAge := t.biu.nextAge }
    plan := { s.plan with own := t.plan.own }
    lsup := { s.lsup with links := t.lsup.links }
    tbk := { s.tbk with circuits := t.tbk.circuits }
    mgmt := { s.mgmt with rules := t.mgmt.rules, counters := t.mgmt.counters } }
  own   : ∀ i : Fin 16, s.plan.own[i] = none → t.plan.own[i] = none
  links : ∀ l : Fin 8, (s.link l = none → t.link l = none) ∧
    ∀ x, s.link l = some x → ∃ b, t.link l = some { x with announcedBad := b }

theorem Parting.refl (s : State) : Parting s s := ⟨rfl, fun _ => id, fun _ => ⟨id, fun x hx => ⟨x.announcedBad, hx⟩⟩⟩

theorem Parting.trans (a : Parting s t) (b : Parting t u) : Parting s u := by
  refine ⟨?_, fun i h => b.own i (a.own i h), fun l => ⟨fun h => (b.links l).1 ((a.links l).1 h), fun x hx => ?_⟩⟩
  · have ha := a.eq
    have hb := b.eq
    generalize t.biu.queue = q, t.biu.nextAge = n, t.plan.own = p, t.lsup.links = l, t.tbk.circuits = c, t.mgmt.rules = r,
      t.mgmt.counters = k at ha
    subst ha
    exact hb
  · obtain ⟨c, hc⟩ := (a.links l).2 x hx
    exact (b.links l).2 { x with announcedBad := c } hc

theorem Offered.parting (h : Offered s t) : Parting s t := by
  refine ⟨?_, fun i hi => ?_, fun l => ?_⟩
  · have := h.eq
    generalize t.biu.queue = q, t.biu.nextAge = n, t.lsup.links = l, t.mgmt.rules = r, t.mgmt.counters = k at this
    subst this
    rfl
  · rw [h.eq]
    exact hi
  · rcases h.links l with h | ⟨x, hx, ht⟩
    · exact ⟨fun hn => h.trans hn, fun x hx => ⟨x.announcedBad, h.trans hx⟩⟩
    · refine ⟨fun hn => absurd (hx.symm.trans hn) (by simp), fun y hy => ?_⟩
      obtain rfl : x = y := Option.some.inj (hx.symm.trans hy)
      exact ⟨_, ht⟩

theorem Parting.foldl {α : Type} {f : State → α → State} (hf : ∀ u a, Parting u (f u a)) (as : List α) :
    ∀ s : State, Parting s (as.foldl f s) := by
  induction as with
  | nil => exact Parting.refl
  | cons a as ih => exact fun s => (hf s a).trans (ih _)

theorem State.offers_parting (os : List Offer) (s : State) : Parting s (s.offers os) :=
  Parting.foldl (fun u o => (State.offer_offered o u).parting) os s

theorem State.removeOwn_parting (i : Fin 16) (s : State) : Parting s (s.removeOwn i) := by
  unfold State.removeOwn
  split
  · refine Parting.trans (t := s.setOwn i none) ⟨rfl, fun j hj => ?_, fun l => ⟨id, fun x hx => ⟨x.announcedBad, hx⟩⟩⟩
      (State.offer_offered _ _).parting
    by_cases h : j = i
    · subst h
      exact getFin_set_self _ _ _
    · exact (getFin_set_ne _ h _).trans hj
  · exact .refl s

theorem State.partCall_parting (k : Fin 4) (s : State) : Parting s (s.partCall k) := by
  cases h : s.call k with
  | none =>
    rw [State.partCall_none h]
    exact .refl s
  | some c =>
    rw [State.partCall_some h, State.freeCircuit_frame]
    exact (State.offers_parting _ s).trans ⟨rfl, fun _ => id, fun l => ⟨id, fun x hx => ⟨x.announcedBad, hx⟩⟩⟩

theorem State.leaveOffersMade_parting (s : State) : Parting s s.leaveOffersMade :=
  (((Parting.foldl (fun u k => State.partCall_parting k u) _ s).trans (State.offers_parting _ _)).trans
    (State.offers_parting _ _)).trans (State.offers_parting _ _)

theorem State.yieldAll_parting (s : State) : Parting s s.yieldAll :=
  Parting.foldl (fun u i => State.removeOwn_parting i u) _ s

theorem State.yieldAll_own (s : State) (i : Fin 16) : s.yieldAll.plan.own[i] = none := by
  have key (is : List (Fin 16)) : ∀ u : State, (i ∈ is ∨ u.plan.own[i] = none) →
      (is.foldl (fun s i => s.removeOwn i) u).plan.own[i] = none := by
    induction is with
    | nil => exact fun u h => h.resolve_left (by simp)
    | cons j is ih =>
      intro u h
      refine ih _ ?_
      by_cases hi : i ∈ is
      · exact .inl hi
      · refine .inr (State.removeOwn_own j i u ?_)
        rcases h with h | h
        · exact .inl ((List.mem_cons.1 h).resolve_right hi).symm
        · exact .inr h
  rw [State.yieldAll]
  exact key (List.finRange 16) s (.inl (List.mem_finRange i))

theorem foldl_muteTuned_frame (as : List (Fin 8)) : ∀ s : State,
    as.foldl (fun s a => if (s.fe a).state = .muted then s else s.mute a) s =
      { s with rport := (as.foldl (fun s a => if (s.fe a).state = .muted then s else s.mute a) s).rport } := by
  induction as with
  | nil => exact fun s => rfl
  | cons a as ih =>
    intro s
    rw [List.foldl_cons]
    split
    · exact ih s
    · refine (ih (s.mute a)).trans ?_
      generalize (List.foldl _ (s.mute a) as).rport = r
      rw [State.mute_frame]

theorem State.muteTuned_frame (s : State) : s.muteTuned = { s with rport := s.muteTuned.rport } :=
  foldl_muteTuned_frame _ s

/-! ## The entry -/

/-- The state in which the offers of the entry into LEAVING are made (R33 steps 1 to 4). -/
def State.partingStart (s : State) : State := (s.leavingStart.muteTuned).disableLinks

theorem State.partingStart_eq (s : State) : ∃ r : Rport, (∀ a : Fin 8, r.fe[a].state.off = true) ∧ s.partingStart = { s with
    phase := .leaving
    biu := { s.biu with presenceTimer := none, leaveTimer := some (s.now + 500000), leaveOffers := true }
    rport := r
    lsup := { s.lsup with links := s.lsup.links.map fun x => x.map LinkRec.disabled }
    mgmt := { s.mgmt with longTask := none } } := by
  refine ⟨_, State.muteTuned_off s.leavingStart, ?_⟩
  rw [State.partingStart, State.muteTuned_frame]
  rfl

/-- The state in which the offers of the entry into LEAVING have been made. -/
def State.parted (s : State) : State := (s.partingStart.yieldAll).leaveOffersMade

theorem State.enterLeaving_parted (s : State) :
    s.enterLeaving = ((s.parted.quietTbk).stopSources).setLeaveOffers false := by
  rw [State.enterLeaving_eq, State.leaveTbk_eq, State.parted, State.partingStart]

theorem State.parted_parting (s : State) : Parting s.partingStart s.parted :=
  (State.yieldAll_parting _).trans (State.leaveOffersMade_parting _)

theorem State.parted_own (s : State) (i : Fin 16) : s.parted.plan.own[i] = none := by
  rw [State.parted]
  exact (State.leaveOffersMade_parting s.partingStart.yieldAll).own i (State.yieldAll_own s.partingStart i)

/-- The offers of talkback at the entry into LEAVING. -/
def State.talkOffers (s : State) : List Offer :=
  slotOffers s.tbk.calls (endOff s.station) (List.finRange 4) ++ slotOffers s.tbk.ports talkOff (List.finRange 12) ++
    slotOffers s.tbk.ports followOff (List.finRange 12) ++ slotOffers s.tbk.ports leaveOffs (List.finRange 12)

theorem State.partingOffers_eq (s : State) :
    s.partingOffers = slotOffers s.plan.own yieldOff (List.finRange 16) ++ s.talkOffers := by
  simp only [State.partingOffers, State.talkOffers, List.append_assoc]

theorem Queued.leaveOffersMade (h : Queued L os s v) (hmem : ∀ a ∈ v.talkOffers, a ∈ L)
    (hq : s.biu.queue.length + (os ++ v.talkOffers).length ≤ 16) : Queued L (os ++ v.talkOffers) s v.leaveOffersMade := by
  rw [State.leaveOffersMade]
  rw [State.talkOffers] at hmem hq ⊢
  have h1 := Queued.ends v.tbk.calls v.station (List.finRange 4) h rfl rfl
  obtain ⟨w, hw⟩ : ∃ w, w = (List.finRange 4).foldl State.partCall v := ⟨_, rfl⟩
  rw [← hw] at h1 ⊢
  generalize slotOffers v.tbk.calls (endOff v.station) (List.finRange 4) = c at *
  generalize slotOffers v.tbk.ports talkOff (List.finRange 12) = k at *
  generalize slotOffers v.tbk.ports followOff (List.finRange 12) = f at *
  generalize slotOffers v.tbk.ports leaveOffs (List.finRange 12) = m at *
  simp only [← List.append_assoc] at hq ⊢
  have hlen : (os ++ c ++ k ++ f ++ m).length = (os ++ c).length + k.length + f.length + m.length := by
    simp only [List.length_append]
  have h2 := h1 (fun a ha => hmem a (List.mem_append_left _ (List.mem_append_left _ (List.mem_append_left _ ha)))) (by omega)
  have h3 := Queued.offers k h2
    (fun a ha => hmem a (List.mem_append_left _ (List.mem_append_left _ (List.mem_append_right _ ha))))
    (by rw [List.length_append]; omega)
  have h4 := Queued.offers f h3 (fun a ha => hmem a (List.mem_append_left _ (List.mem_append_right _ ha)))
    (by rw [List.length_append, List.length_append]; omega)
  exact Queued.offers m h4 (fun a ha => hmem a (List.mem_append_right _ ha)) hq

/-- With room for all of them, every offer of the entry into LEAVING is made. -/
theorem State.parted_queued {os : List Offer} (h : Queued L os s u.partingStart) (hmem : ∀ a ∈ u.partingOffers, a ∈ L)
    (hq : s.biu.queue.length + (os ++ u.partingOffers).length ≤ 16) : Queued L (os ++ u.partingOffers) s u.parted := by
  obtain ⟨r, -, hst⟩ := u.partingStart_eq
  have hown : u.partingStart.plan.own = u.plan.own := by rw [hst]
  have htbk : u.partingStart.tbk = u.tbk := by rw [hst]
  have hcfg : u.partingStart.cfg = u.cfg := by rw [hst]
  rw [State.parted]
  generalize u.partingStart = v at h hown htbk hcfg
  have hy := (State.yieldAll_parting v).eq
  have htalk : v.yieldAll.talkOffers = u.talkOffers := by
    rw [hy, State.talkOffers, State.talkOffers, ← htbk]
    simp only [State.station, State.image, hcfg]
  rw [State.partingOffers_eq] at hmem hq ⊢
  rw [← List.append_assoc] at hq ⊢
  have hlen := List.length_append (as := os ++ slotOffers u.plan.own yieldOff (List.finRange 16)) (bs := u.talkOffers)
  have h1 := Queued.yields u.plan.own (List.finRange 16) (List.nodup_finRange 16) h (fun i _ => by rw [hown])
    (fun a ha => hmem a (List.mem_append_left _ ha)) (by omega)
  rw [← htalk] at hmem hq ⊢
  exact Queued.leaveOffersMade (v := v.yieldAll) h1 (fun a ha => hmem a (List.mem_append_right _ ha)) hq

end Sys2Proof.Machine
end

section
/-! SUPPORT. RESTART (R33, R35). -/

namespace Sys2Proof.Machine

open Says

variable {o a b : Offer} {os ps L : List Offer} {x : TaskRx} {p : BusPort} {c : TaskCode} {s t u v w : State}

theorem Firm.cons_keyless (ho : o.key = none) (h : Firm L a) : Firm (o :: L) a := by
  intro b hb
  rcases List.mem_cons.1 hb with rfl | hb
  · refine ⟨fun hk hn => absurd (hk.trans ho) hn, fun e _ => ?_⟩
    unfold Offer.supersedes
    rw [ho]
  · exact h b hb

/-- The reply to RESTART (R33 step 1). -/
def restartReply (x : TaskRx) : Offer :=
  { kind := .taskReply, urgent := true, target := x.origin.toNat
    body := byte x.tag.toNat :: TaskCode.restart.code :: ReturnCode.done.code :: [], key := none, block := .mgmt, ticket := .none }

theorem State.restart_run (x : TaskRx) (u : State) :
    u.runTask .restart (task .restart x) = (u.offered (restartReply x)).enterLeaving := rfl

/-- What the entry into LEAVING makes of the records, once its offers are made. -/
structure Left (s t : State) : Prop where
  phase    : t.phase = .leaving
  now      : t.now = s.now
  fault    : t.faultLine = s.faultLine
  cfg      : t.cfg = s.cfg
  pins     : t.pins = s.pins
  pending  : t.pending = s.pending
  timers   : t.biu.leaveTimer = some (s.now + 500000) ∧ t.biu.presenceTimer = none
  roster   : t.biu.roster = s.biu.roster
  longTask : t.mgmt.longTask = none
  fe       : ∀ a : Fin 8, t.rport.fe[a].state.off = true
  links    : ∀ l : Fin 8, (s.link l = none → t.link l = none) ∧
    ∀ x, s.link l = some x → ∃ b, t.link l = some { x.disabled with announcedBad := b }
  own      : ∀ i : Fin 16, t.plan.own[i] = none
  peers    : t.plan.peers = s.plan.peers
  calls    : t.tbk.calls = Vector.replicate 4 none
  ports    : t.tbk.ports = s.tbk.ports.map fun p => p.map TbPort.quiet
  sources  : t.tally.sources = s.tally.sources.map fun x => x.map fun y => { y with refreshTimer := none }
  layers   : t.tally.layers = s.tally.layers

theorem State.enterLeaving_left (s : State) : Left s s.enterLeaving := by
  obtain ⟨r, hr, hst⟩ := s.partingStart_eq
  have hown := s.parted_own
  have hp := s.parted_parting
  have heq := hp.eq
  have hlinks := hp.links
  rw [State.enterLeaving_parted]
  generalize s.parted = v at *
  generalize s.partingStart = w at *
  have hwl (l : Fin 8) : w.link l = (s.link l).map LinkRec.disabled := by
    rw [hst]
    exact Vector.getElem_map ..
  generalize v.biu.queue = q, v.biu.nextAge = n, v.tbk.circuits = c, v.mgmt.rules = k, v.mgmt.counters = m at heq
  rw [hst] at heq
  refine
    { phase := ?_, now := ?_, fault := ?_, cfg := ?_, pins := ?_, pending := ?_, timers := ?timers, roster := ?_
      longTask := ?_, fe := ?fe, own := hown, peers := ?_, calls := rfl, ports := ?_, sources := ?_, layers := ?_
      links := fun l => ⟨fun hn => (hlinks l).1 ((hwl l).trans (by rw [hn]; rfl)),
        fun x hx => (hlinks l).2 x.disabled ((hwl l).trans (by rw [hx]; rfl))⟩ }
  all_goals rw [heq]
  case fe => exact hr
  case timers => exact ⟨rfl, rfl⟩
  all_goals rfl

/-! ## The offers -/

theorem State.partingOffers_congr (hp : t.plan = s.plan) (ht : t.tbk = s.tbk) (hc : t.cfg = s.cfg) :
    t.partingOffers = s.partingOffers := by
  simp only [State.partingOffers, hp, ht, State.station_congr hc]

theorem State.enterLeaving_queue (s : State) : s.enterLeaving.biu.queue = s.parted.biu.queue := by
  rw [State.enterLeaving_parted]
  generalize s.parted = v
  rfl

/-- An URGENT entry with no subject stays through the entry into LEAVING. -/
theorem State.enterLeaving_keeps {e : QueueEntry} (hl : s.biu.LineRight) (he : e ∈ s.biu.queue) (hu : e.urgent = true)
    (hk : e.key = none) : e ∈ s.enterLeaving.biu.queue := by
  have hm := s.leaving_moves
  rw [State.enterLeaving_eq]
  generalize ((((s.leavingStart.muteTuned).disableLinks).yieldAll).leaveTbk).stopSources = v at hm ⊢
  exact (hm.keeps (e := e) hl he hu hk).2

theorem State.partingStart_queued (ht : s.takesOffers = true) (hl : s.biu.LineRight) (hq : s.biu.queue.length < 16) :
    Queued (o :: L) [o] s (s.offered o).partingStart := by
  have h0 := Queued.offer (L := o :: L) (Queued.refl ht hl) List.mem_cons_self hq
  rw [List.nil_append] at h0
  obtain ⟨r, -, hst⟩ := (s.offered o).partingStart_eq
  rw [hst]
  exact h0.congr rfl rfl rfl rfl

/-- With room for the reply and all the offers, they are in the queue (R33). -/
theorem State.restart_queued (ht : s.takesOffers = true) (hl : s.biu.LineRight)
    (hq : s.biu.queue.length + leaveCount s ≤ 16) (hk : o.key = none) (h : a ∈ s.partingOffers) :
    Holds a s (s.offered o).enterLeaving := by
  have hlen := s.partingOffers_length
  have hof := State.offer_offered o s
  have hpart : (s.offered o).partingOffers = s.partingOffers :=
    State.partingOffers_congr (State.offered_plan o s) (State.offered_tbk o s) hof.cfg
  have hQ := State.parted_queued (L := o :: s.partingOffers) (State.partingStart_queued ht hl (by omega))
    (fun a ha => List.mem_cons_of_mem o (hpart ▸ ha)) (by
      rw [hpart, List.length_append, List.length_singleton]
      omega)
  refine (hQ.holds a (List.mem_append_right _ (hpart ▸ h)) ?_).congr (State.enterLeaving_queue _)
  exact Firm.cons_keyless hk (s.partingOffers_firm h)

theorem State.restart_answered (ht : s.takesOffers = true) (hl : s.biu.LineRight) (hq : s.biu.queue.length < 16)
    (hc : s.cfg = u.cfg) :
    answered true .restart x .done [] u (s.offered (restartReply x)).enterLeaving := by
  have hkey := State.offer_keyless (o := restartReply x) ht hq rfl
  have he : newEntry s (restartReply x) ∈ (s.offered (restartReply x)).biu.queue := by
    rw [State.offered, hkey]
    exact List.mem_append_right _ (List.mem_singleton_self _)
  refine ⟨_, State.enterLeaving_keeps (State.offer_line _ hl) he rfl rfl, rfl, ?_⟩
  simp only [newEntry, restartReply, State.station_congr hc, State.image_congr hc, byte_toNat]
  rfl

theorem Left.link {r : State} (h : Left u w) (hp : Parting r u) (l : Fin 8) : (r.link l = none → w.link l = none) ∧
    ∀ x, r.link l = some x → ∃ b c, w.link l = some { ({ x with announcedBad := b } : LinkRec).disabled with announcedBad := c } := by
  refine ⟨fun hn => (h.links l).1 ((hp.links l).1 hn), fun x hx => ?_⟩
  obtain ⟨b, hb⟩ := (hp.links l).2 x hx
  obtain ⟨c, hc⟩ := (h.links l).2 _ hb
  exact ⟨b, c, hc⟩

theorem Left.disabled {r : State} (h : Left u w) (hp : Parting r u) (l : Fin 8) : (w.link l).isSome = (r.link l).isSome ∧
    ∀ y, w.link l = some y → y.state = .disabled ∧ y.reloc = none ∧ y.current = none := by
  obtain ⟨h0, h1⟩ := h.link hp l
  cases hx : r.link l with
  | none =>
    rw [h0 hx]
    exact ⟨rfl, fun y hy => absurd hy (by simp)⟩
  | some x =>
    obtain ⟨b, c, hc⟩ := h1 x hx
    rw [hc]
    refine ⟨rfl, fun y hy => ?_⟩
    cases hy
    exact ⟨rfl, rfl, rfl⟩

/-- Settles O13: RESTART enters LEAVING. -/
theorem restartEntersLeaving : Obligations.RestartEntersLeaving := by
  intro p x s hinv h
  obtain ⟨u, z, hu, hc, he⟩ := exec_task h
  have ha := hc.captured.after
  have hphase := hc.captured.phase
  obtain ⟨f1, f2, f3, f4, f5, f6, f7⟩ := hu.fields
  rw [State.restart_run] at ha hphase
  clear hc
  obtain ⟨t, htz⟩ : ∃ t, t = z.finish := ⟨_, rfl⟩
  rw [← htz] at ha he
  have hl : u.biu.LineRight := hu.line hinv.line
  have ht : u.takesOffers = true := State.takesOffers_of_active (f1.trans h.1)
  have hof := State.offer_offered (restartReply x) u
  have hleft := State.enterLeaving_left (u.offered (restartReply x))
  have hqueue {a : Offer} (hq : s.biu.queue.length + leaveCount s ≤ 16) (hmem : a ∈ s.partingOffers) :
      Holds a u (u.offered (restartReply x)).enterLeaving := by
    refine State.restart_queued ht hl ?_ rfl (by rw [State.partingOffers_congr f3 f6 f2]; exact hmem)
    rw [hu.queue]
    simpa only [leaveCount, State.owns, f3, f6] using hq
  have hans (hq : s.biu.queue.length < 16) : answered true .restart x .done [] s (u.offered (restartReply x)).enterLeaving :=
    State.restart_answered ht hl (by rw [hu.queue]; exact hq) f2
  generalize (u.offered (restartReply x)).enterLeaving = v at *
  have hst : u.station = s.station := State.station_congr f2
  have hw {o : Offer} {body : List Byte} (hq : s.biu.queue.length + leaveCount s ≤ 16) (hmem : o ∈ s.partingOffers)
      (h0 : o.target = 0) (hb : o.body = body) : waits o.urgent o.kind body s t :=
    ha.waits ((hqueue hq hmem).waits h0 hb hst fun e he => he)
  obtain ⟨a1, a2, a3, a4, a5, a6⟩ := ha.station
  obtain ⟨t1, -, -, -, t2, -⟩ := ha.talk
  obtain ⟨-, -, b3, b4, b5, b6⟩ := hu.stationKept.trans (State.offer_stationKept (restartReply x) u)
  have hkeep : (u.offered (restartReply x)).plan = s.plan ∧ (u.offered (restartReply x)).tally = s.tally ∧
      (u.offered (restartReply x)).tbk = s.tbk ∧ (u.offered (restartReply x)).biu.roster = s.biu.roster := by
    rw [State.offered, hof.eq]
    exact ⟨f3, f5, f6, hu.roster⟩
  obtain ⟨k1, k2, k3, k4⟩ := hkeep
  have hdis (l : Fin 8) := hleft.disabled hof.parting l
  refine ⟨t, he, a1.trans hleft.phase, ?_, ?_, ?_, ?_, ?_, ?_, ?_, ?_, ?_, fun a => ?_, fun l => ?_, fun l y hy => ?_, fun i => ?_,
    ?_, fun k => ?_, fun q r hr => ?_, fun k y hy => ?_, ?_, ?_, fun hq => ha.answered (hans hq),
    fun hq => ⟨fun i e hi => ?_, fun k c hk => ?_, fun q r hr => ⟨fun n key hn => ?_, fun f hf => ?_, fun m hm => ?_⟩⟩⟩
  · rw [ha.now, hleft.now, State.offered, hof.now, hu.now]
  · rw [a3, hleft.fault]
    exact b3
  · rw [a5, hleft.cfg]
    exact b5
  · rw [a4, hleft.pins]
    exact b4
  · rw [a6, hleft.pending]
    exact b6
  · rw [ha.leaveTimer, hleft.timers.1, State.offered, hof.now, hu.now]
  · rw [ha.presenceTimer, hleft.timers.2]
  · rw [ha.roster, hleft.roster, k4]
  · rw [ha.longTask, hleft.longTask]
  · rw [ha.radio.1]
    exact CmdState.off_iff.1 (hleft.fe a)
  · rw [ha.lsup, ← f4]
    exact (hdis l).1
  · rw [ha.lsup] at hy
    exact (hdis l).2 y hy
  · rw [ha.plan]
    exact hleft.own i
  · rw [ha.plan, hleft.peers, k1]
  · rw [t2, hleft.calls]
    exact Vector.getElem_replicate ..
  · rw [t1, hleft.ports] at hr
    obtain ⟨z, -, rfl⟩ := Option.map_eq_some_iff.1 ((Vector.getElem_map ..).symm.trans hr)
    exact ⟨rfl, rfl⟩
  · rw [ha.tally, hleft.sources] at hy
    obtain ⟨z, -, rfl⟩ := Option.map_eq_some_iff.1 ((Vector.getElem_map ..).symm.trans hy)
    rfl
  · rw [ha.tally, hleft.layers, k2]
  · rw [htz, State.finish_xp_image]
    simp only [State.xpImage, hphase.trans hleft.phase]
  · exact hw hq (State.mem_partingOffers.2 (.inl ⟨i, e, hi, List.mem_singleton_self _⟩)) rfl rfl
  · exact hw hq (State.mem_partingOffers.2 (.inr (.inl ⟨k, c, hk, List.mem_singleton_self _⟩))) rfl rfl
  · exact hw (o :=
        { kind := .talk, urgent := true, target := 0, body := [byte n, byte q, byte r.talkClass, flagByte false]
          key := some (.linePort .talk n q), block := .tbk, ticket := .none }) hq
      (State.mem_partingOffers.2 (.inr (.inr ⟨q, r, hr, .inl (by rw [talkOff, hn]; exact List.mem_singleton_self _)⟩))) rfl rfl
  · exact hw (o :=
        { kind := .followTalk, urgent := true, target := 0
          body := [byte (layerNumber f.layer), byte f.input, byte q, flagByte false], key := some (.follow q)
          block := .tbk, ticket := .none }) hq
      (State.mem_partingOffers.2 (.inr (.inr ⟨q, r, hr, .inr (.inl (by rw [followOff, hf]; exact List.mem_singleton_self _))⟩)))
      rfl rfl
  · exact hw (o := leaveOffer q m.line) hq (State.mem_partingOffers.2 (.inr (.inr ⟨q, r, hr, .inr (.inr
      (List.mem_map.2 ⟨m, hm, rfl⟩))⟩))) rfl rfl

end Sys2Proof.Machine
end

section
/-! SUPPORT. The first publications and the joins of the entry into ACTIVE (R32, R143). -/

namespace Sys2Proof.Machine

open Says

variable {o a b : Offer} {os ps L : List Offer} {k : Fin 8} {x : Source} {e : QueueEntry} {s t u v w : State}

/-! ## One publication -/

/-- The TALLY_STATE of a source layer (R143). -/
def tallyOffer (s : State) (k : Fin 8) : Offer :=
  { kind := .tallyState, urgent := true, target := 0, body := tallyBody s k (s.content k), key := some (.tally k)
    block := .tally, ticket := .none }

/-- A source layer's own replica once it publishes (R143). -/
def sourceLayer (s : State) (k : Fin 8) : Layer :=
  publishedLayer s.now s.station
    { layer := k, count := s.image.sourceCounts[k].getD 1, refresh := s.image.refreshUnits, inputs := s.content k }

/-- A source's record once it publishes (R143). -/
def sourceRecord (s : State) (k : Fin 8) (x : Source) : Source :=
  { x with refreshTimer := some (s.now + s.image.refreshUnits * 100000), published := some (s.content k) }

theorem State.contactOn_congr (hc : t.cfg = s.cfg) (ht : t.tally.contacts = s.tally.contacts) (k : Fin 8) (i : Nat) (p : Bool) :
    t.contactOn k i p = s.contactOn k i p := by
  simp only [State.contactOn, State.image_congr hc, ht]

theorem State.content_congr (hc : t.cfg = s.cfg) (ht : t.tally.contacts = s.tally.contacts) (k : Fin 8) :
    t.content k = s.content k := by
  simp only [State.content, State.contactOn_congr hc ht, State.image_congr hc]

theorem tallyOffer_congr (hc : t.cfg = s.cfg) (ht : t.tally.contacts = s.tally.contacts) (k : Fin 8) :
    tallyOffer t k = tallyOffer s k := by
  simp only [tallyOffer, tallyBody, State.content_congr hc ht, State.image_congr hc]

theorem sourceLayer_congr (hn : t.now = s.now) (hc : t.cfg = s.cfg) (ht : t.tally.contacts = s.tally.contacts) (k : Fin 8) :
    sourceLayer t k = sourceLayer s k := by
  simp only [sourceLayer, State.content_congr hc ht, State.image_congr hc, State.station_congr hc, hn]

theorem sourceRecord_congr (hn : t.now = s.now) (hc : t.cfg = s.cfg) (ht : t.tally.contacts = s.tally.contacts) (k : Fin 8)
    (x : Source) : sourceRecord t k x = sourceRecord s k x := by
  simp only [sourceRecord, State.content_congr hc ht, State.image_congr hc, hn]

theorem State.publish_room (hx : s.source k = some x) (hq : s.biu.queue.length < 16) : s.publish true k = { s with
    biu := { s.biu with
      queue := (s.offered (tallyOffer s k)).biu.queue, nextAge := (s.offered (tallyOffer s k)).biu.nextAge }
    tally := { s.tally with
      layers := s.tally.layers.set k (sourceLayer s k)
      sources := s.tally.sources.set k (some (sourceRecord s k x)) } } := by
  have hp : s.publish true k = ((s.offered (tallyOffer s k)).setLayer k (publishedLayer (s.offered (tallyOffer s k)).now
      (s.offered (tallyOffer s k)).station
        ⟨k, s.image.sourceCounts[k].getD 1, s.image.refreshUnits, s.content k⟩)).setSource k (some { x with
          refreshTimer := some ((s.offered (tallyOffer s k)).now + s.image.refreshUnits * 100000)
          published := some (s.content k) }) := by
    simp only [State.publish, hx]
    rfl
  have ho := (State.offer_offered (tallyOffer s k) s).room hq
  rw [hp]
  rw [State.offered] at *
  generalize (s.offer (tallyOffer s k)).1 = v at ho ⊢
  generalize v.biu.queue = q, v.biu.nextAge = n at ho
  subst ho
  rfl

/-! ## All the publications -/

/-- A step of the first publications. -/
def State.publishOwn (s : State) (k : Fin 8) : State := if s.publishes k then s.publish true k else s

theorem State.startSources_eq (s : State) : s.startSources = ((List.finRange 8).foldl State.publishOwn s).evaluate := rfl

/-- The offers of the publications of some layers. -/
def State.tallyOffers (s : State) (ks : List (Fin 8)) : List Offer :=
  (ks.filter fun k => s.publishes k).map (tallyOffer s)

/-- Some layers have been published. -/
structure Publicised (ks : List (Fin 8)) (s t : State) : Prop where
  eq   : t = { s with
    biu := { s.biu with queue := t.biu.queue, nextAge := t.biu.nextAge }
    tally := { s.tally with layers := t.tally.layers, sources := t.tally.sources } }
  done : ∀ k ∈ ks, s.publishes k = true → t.tally.layers[k] = sourceLayer s k ∧
    ∀ x, s.source k = some x → t.tally.sources[k] = some (sourceRecord s k x)
  rest : ∀ k, (k ∉ ks ∨ s.publishes k = false) → t.tally.layers[k] = s.tally.layers[k] ∧ t.tally.sources[k] = s.tally.sources[k]

theorem Publicised.refl (s : State) : Publicised [] s s :=
  ⟨rfl, fun _ h => absurd h (by simp), fun _ _ => ⟨rfl, rfl⟩⟩

/-- A layer not yet published looks as it did. -/
theorem Publicised.view {ks : List (Fin 8)} (h : Publicised ks s t) (hk : k ∉ ks) :
    t.publishes k = s.publishes k ∧ t.source k = s.source k ∧ tallyOffer t k = tallyOffer s k ∧
      sourceLayer t k = sourceLayer s k ∧ ∀ x, sourceRecord t k x = sourceRecord s k x := by
  have hs : t.source k = s.source k := (h.rest k (.inl hk)).2
  have hph : t.phase = s.phase := by rw [h.eq]
  have hcfg : t.cfg = s.cfg := by rw [h.eq]
  have hnow : t.now = s.now := by rw [h.eq]
  have hcon : t.tally.contacts = s.tally.contacts := by rw [h.eq]
  exact ⟨by simp only [State.publishes, hph, hs], hs, tallyOffer_congr hcfg hcon k, sourceLayer_congr hnow hcfg hcon k,
    sourceRecord_congr hnow hcfg hcon k⟩

theorem Publicised.step {ks : List (Fin 8)} (h : Publicised ks s t) (hk : k ∉ ks) (hq : t.biu.queue.length < 16) :
    Publicised (ks ++ [k]) s (t.publishOwn k) := by
  obtain ⟨hpub, hsrc, -, hlayer, hrec⟩ := h.view hk
  by_cases hp : s.publishes k = true
  · obtain ⟨x, hx⟩ : ∃ x, s.source k = some x := by
      simp only [State.publishes, Bool.and_eq_true, Option.any_eq_true] at hp
      obtain ⟨-, x, hx, -⟩ := hp
      exact ⟨x, hx⟩
    rw [State.publishOwn, if_pos (hpub.trans hp), State.publish_room (hsrc.trans hx) hq, hlayer, hrec]
    have heq := h.eq
    refine ⟨?_, fun j hj hpj => ?_, fun j hj => ?_⟩
    · generalize (t.offered (tallyOffer t k)).biu.queue = q, (t.offered (tallyOffer t k)).biu.nextAge = n
      generalize t.biu.queue = q', t.biu.nextAge = n', t.tally.layers = y, t.tally.sources = z at heq
      subst heq
      rfl
    · by_cases hjk : j = k
      · subst hjk
        refine ⟨getFin_set_self _ _ _, fun y hy => ?_⟩
        rw [hx] at hy
        cases hy
        exact getFin_set_self _ _ _
      · obtain ⟨h1, h2⟩ := h.done j ((List.mem_append.1 hj).resolve_right (by simpa using hjk)) hpj
        exact ⟨(getFin_set_ne _ hjk _).trans h1, fun y hy => (getFin_set_ne _ hjk _).trans (h2 y hy)⟩
    · have hjk : j ≠ k := by
        rintro rfl
        rcases hj with hj | hj
        · simp at hj
        · rw [hp] at hj
          cases hj
      obtain ⟨h1, h2⟩ := h.rest j (hj.imp_left fun hn hm => hn (List.mem_append_left _ hm))
      exact ⟨(getFin_set_ne _ hjk _).trans h1, (getFin_set_ne _ hjk _).trans h2⟩
  · have hp' : s.publishes k = false := by simpa using hp
    rw [State.publishOwn, if_neg (by rw [hpub]; exact hp)]
    refine ⟨h.eq, fun j hj hpj => h.done j ((List.mem_append.1 hj).resolve_right fun hm => ?_) hpj, fun j hj => ?_⟩
    · rw [List.mem_singleton.1 hm] at hpj
      exact hp hpj
    · refine h.rest j ?_
      by_cases hjk : j = k
      · exact .inr (hjk ▸ hp')
      · exact hj.imp_left fun hn hm => hn (List.mem_append_left _ hm)

theorem Queued.publishOwn {ks : List (Fin 8)} (h : Queued L os s t) (hp : Publicised ks u t) (hk : k ∉ ks)
    (hmem : ∀ a ∈ u.tallyOffers [k], a ∈ L)
    (hq' : s.biu.queue.length + os.length < 16) : Queued L (os ++ u.tallyOffers [k]) s (t.publishOwn k) := by
  obtain ⟨hpub, hsrc, hoff, -⟩ := hp.view hk
  by_cases hpk : u.publishes k = true
  · obtain ⟨x, hx⟩ : ∃ x, u.source k = some x := by
      simp only [State.publishes, Bool.and_eq_true, Option.any_eq_true] at hpk
      obtain ⟨-, x, hx, -⟩ := hpk
      exact ⟨x, hx⟩
    have hone : u.tallyOffers [k] = [tallyOffer u k] := by simp [State.tallyOffers, hpk]
    rw [hone] at hmem ⊢
    rw [State.publishOwn, if_pos (hpub.trans hpk), State.publish_room (hsrc.trans hx) (Nat.lt_of_le_of_lt h.room hq'), hoff]
    have ho := h.offer (hmem _ (List.mem_singleton_self _)) hq'
    exact ho.congr rfl rfl h.takes (State.offer_offered _ t).cfg.symm
  · have hnone : u.tallyOffers [k] = [] := by simp [State.tallyOffers, hpk]
    rw [hnone, List.append_nil, State.publishOwn, if_neg (by rw [hpub]; exact hpk)]
    exact h

theorem State.tallyOffers_append (s : State) (ks js : List (Fin 8)) :
    s.tallyOffers (ks ++ js) = s.tallyOffers ks ++ s.tallyOffers js := by
  simp [State.tallyOffers]

theorem State.tallyOffers_length_le (s : State) (ks : List (Fin 8)) : (s.tallyOffers ks).length ≤ ks.length := by
  rw [State.tallyOffers, List.length_map]
  exact List.length_filter_le _ _

/-- All the publications, with room for all of them. -/
theorem Queued.publications (h : Queued L os s u) : ∀ (ks : List (Fin 8)), ks.Nodup → (∀ a ∈ u.tallyOffers ks, a ∈ L) →
    s.biu.queue.length + os.length + ks.length ≤ 16 →
    Publicised ks u (ks.foldl State.publishOwn u) ∧ Queued L (os ++ u.tallyOffers ks) s (ks.foldl State.publishOwn u) := by
  intro ks
  induction ks using List.reverseRecOn with
  | nil => exact fun _ _ _ => ⟨.refl u, by simpa [State.tallyOffers] using h⟩
  | append_singleton ks k ih =>
    intro hn hmem hq
    rw [List.length_append, List.length_singleton] at hq
    rw [State.tallyOffers_append] at hmem
    obtain ⟨hn1, -, hk⟩ := List.nodup_append.1 hn
    have hk : k ∉ ks := fun hm => hk k hm k (List.mem_singleton_self k) rfl
    obtain ⟨hp, hQ⟩ := ih hn1 (fun a ha => hmem a (List.mem_append_left _ ha)) (by omega)
    have hlen := u.tallyOffers_length_le ks
    have hroom := hQ.room
    rw [List.length_append] at hroom
    rw [List.foldl_append, List.foldl_cons, List.foldl_nil, State.tallyOffers_append, ← List.append_assoc]
    refine ⟨hp.step hk (by omega), hQ.publishOwn hp hk (fun a ha => hmem a (List.mem_append_right _ ha)) ?_⟩
    rw [List.length_append]
    omega

/-! ## The evaluation in a station at rest -/

theorem State.onAirHolds_rest {l : Fin 8} (h : ∀ i : Fin 16, s.ownEntry i = none) : s.onAirHolds l = s := by
  have key (is : List (Fin 16)) : is.foldl (fun u i => if (u.ownEntry i).any (fun e => decide (e.link = l ∧ e.standing = .held))
      then u.announceHold false i else u) s = s := by
    induction is with
    | nil => rfl
    | cons i is ih =>
      rw [List.foldl_cons, h i]
      exact ih
  unfold State.onAirHolds
  refine (List.foldl_ext _ _ s fun u i _ => ?_).trans (key (List.finRange 16))
  cases u.ownEntry i with
  | none => rfl
  | some e => simp

theorem State.handMark_rest {v : Vector Bool 8} {l : Fin 8} (ho : ∀ i : Fin 16, s.ownEntry i = none) (hr : s.reloc l = none) :
    State.handMark v s l = s := by
  unfold State.handMark
  split
  · rfl
  · rw [State.onAirHolds_rest ho]
    dsimp only
    split
    · unfold State.onAirSet
      rw [hr]
    · rfl

theorem State.handLamp_frame (v : Vector Colour 8) (s : State) (l : Fin 8) :
    State.handLamp v s l = { s with rport := (State.handLamp v s l).rport } := by
  unfold State.handLamp
  split
  · rfl
  · split
    · exact s.lamp_frame _ _
    · rfl

theorem foldl_handLamp_frame (v : Vector Colour 8) (ls : List (Fin 8)) : ∀ s : State,
    ls.foldl (State.handLamp v) s = { s with rport := (ls.foldl (State.handLamp v) s).rport } := by
  induction ls with
  | nil => exact fun s => rfl
  | cons l ls ih =>
    intro s
    refine (ih (State.handLamp v s l)).trans ?_
    rw [List.foldl_cons]
    generalize (ls.foldl (State.handLamp v) (State.handLamp v s l)).rport = r
    rw [State.handLamp_frame]

/-- With no own entry and no relocation an evaluation changes the tally map and the lamps alone. -/
theorem State.evaluate_rest (ho : ∀ i : Fin 16, s.ownEntry i = none) (hr : ∀ l, s.reloc l = none) :
    s.evaluate = { s with tally := s.tally.evaluated s.image, rport := s.evaluate.rport } := by
  obtain ⟨u, hu⟩ : ∃ u : State, u = { s with tally := s.tally.evaluated s.image } := ⟨_, rfl⟩
  have hp : u.plan = s.plan := by rw [hu]
  have hl : u.lsup = s.lsup := by rw [hu]
  have ho' (i : Fin 16) : u.ownEntry i = none := by
    rw [State.ownEntry, hp]
    exact ho i
  have hr' (l : Fin 8) : u.reloc l = none := by
    rw [State.reloc, State.link, hl]
    exact hr l
  have hm (ls : List (Fin 8)) : ls.foldl (State.handMark s.tally.onAir) u = u := by
    induction ls with
    | nil => rfl
    | cons l ls ih =>
      rw [List.foldl_cons, State.handMark_rest ho' (hr' l)]
      exact ih
  have he : s.evaluate = (List.finRange 8).foldl (State.handLamp s.tally.linkLamps) u := by
    unfold State.evaluate
    dsimp only
    rw [← hu, hm]
  have hf := foldl_handLamp_frame s.tally.linkLamps (List.finRange 8) u
  rw [← he] at hf
  generalize s.evaluate.rport = r at hf ⊢
  rw [hf, hu]

/-! ## The joins -/

/-- The LINE_JOIN of every membership of a port. -/
def joinOffs (q : Fin 12) (r : TbPort) : List Offer := r.members.map (joinOffer q)

theorem State.joinAll_eq (s : State) : s.joinAll = s.offers (slotOffers s.tbk.ports joinOffs (List.finRange 12)) := by
  unfold State.joinAll
  rw [State.overPorts_offers (g := joinOffs)]
  intro q r u
  exact (List.foldl_map (f := joinOffer q) (g := fun (s : State) o => s.offered o)).symm

theorem mem_joinOffs {q : Fin 12} {r : TbPort} (h : o ∈ joinOffs q r) : ∃ m ∈ r.members, o = joinOffer q m := by
  obtain ⟨m, hm, rfl⟩ := List.mem_map.1 h
  exact ⟨m, hm, rfl⟩

theorem State.offers_normal : ∀ (os : List Offer) (s : State), (∀ o ∈ os, o.urgent = false) → s.offers os = { s with
    biu := { s.biu with queue := (s.offers os).biu.queue, nextAge := (s.offers os).biu.nextAge }
    mgmt := { s.mgmt with counters := (s.offers os).mgmt.counters } } := by
  intro os
  induction os with
  | nil => exact fun s _ => rfl
  | cons o os ih =>
    intro s h
    have h1 := State.offer_normal (h o List.mem_cons_self) s
    have h2 := ih (s.offered o) fun a ha => h a (List.mem_cons_of_mem _ ha)
    have hc : s.offers (o :: os) = (s.offered o).offers os := rfl
    rw [hc]
    generalize (s.offered o).offers os = w at h2 ⊢
    generalize w.biu.queue = q, w.biu.nextAge = n, w.mgmt.counters = c at h2 ⊢
    rw [State.offered] at h2
    rw [h2, h1]

theorem State.mem_offers : ∀ (os : List Offer) {s : State}, s.biu.LineRight → e ∈ s.biu.queue → e.urgent = true →
    (∀ o ∈ os, o.supersedes e = false ∧ e.key ≠ o.key) →
    (s.offers os).biu.LineRight ∧ e ∈ (s.offers os).biu.queue := by
  intro os
  induction os with
  | nil => exact fun hl he _ _ => ⟨hl, he⟩
  | cons o os ih =>
    intro s hl he hu h
    obtain ⟨h1, h2⟩ := h o List.mem_cons_self
    exact ih (State.offer_line o hl) (State.mem_offer hl he h1 (.inr h2) (.inr hu)) hu
      fun a ha => h a (List.mem_cons_of_mem _ ha)

end Sys2Proof.Machine
end

section
/-! SUPPORT. The first relocations of the links, at the entry into ACTIVE (R32 step 4). -/

namespace Sys2Proof.Machine

open Says

variable {l : Fin 8} {x y z : LinkRec} {r : Reloc} {sp : Span} {o : Offer} {e : QueueEntry} {s t u v w : State}

/-! ## What one comes to -/

/-- A link that is being acquired, or will be tried again (R32, R128). -/
def LinkRec.Acquires (z : LinkRec) : Prop :=
  z.state = .acquiring ∧ (z.reloc.isSome = true ∨ z.acquireRetry.isSome = true) ∧
    (∀ r : Reloc, z.reloc = some r → r.cause = .acquire) ∧
    (z.reloc = none → ∃ why : FailCause, z.lastOutcome = some (.acquire, .failed why))

/-- The queue is as it was, or one claim has been offered to it. -/
def OneClaim (s t : State) : Prop :=
  t.biu = s.biu ∨ ∃ (u : State) (o : Offer) (l : Fin 8) (sp : Span), o.key = some (.plan .planClaim l sp) ∧ u.biu = s.biu ∧
    t.biu = (u.offered o).biu

/-- What the first relocation of a link comes to. -/
structure Acquired (l : Fin 8) (s t : State) : Prop where
  queue    : OneClaim s t
  longTask : t.mgmt.longTask = s.mgmt.longTask
  link     : ∃ z, t.link l = some z ∧ z.Acquires

/-- A link has no own plan entry. -/
def State.ownsNone (l : Fin 8) (s : State) : Prop := ∀ (i : Fin 16) (e : OwnEntry), s.ownEntry i = some e → e.link ≠ l

theorem State.ownsNone_congr (h : t.plan = s.plan) (hs : s.ownsNone l) : t.ownsNone l := fun i e he =>
  hs i e (by rw [State.ownEntry, ← h]; exact he)

theorem OneClaim.of_biu (h : OneClaim s t) (hb : s.biu = u.biu) : OneClaim u t := by
  rcases h with h | ⟨v, o, l, sp, hk, hv, ht⟩
  · exact .inl (h.trans hb)
  · exact .inr ⟨v, o, l, sp, hk, hv.trans hb, ht⟩

/-! ## Its steps -/

theorem LinkRec.Acquires.of_reloc (hs : z.state = .acquiring) (hr : z.reloc = some r) (hc : r.cause = .acquire) : z.Acquires := by
  refine ⟨hs, .inl (by rw [hr]; rfl), fun y hy => ?_, fun hn => ?_⟩
  · rw [hr] at hy
    cases hy
    exact hc
  · rw [hr] at hn
    cases hn

theorem State.modReloc_acquired {f : Reloc → Reloc} (hx : s.link l = some x) (hs : x.state = .acquiring)
    (hr : x.reloc = some r) (hc : (f r).cause = .acquire) : Acquired l s (s.modReloc l f) := by
  refine ⟨.inl ?_, ?_, _, State.modReloc_link hx hr, .of_reloc hs rfl hc⟩
  · rw [State.modReloc, State.modLink_frame]
  · rw [State.modReloc, State.modLink_frame]

theorem State.yieldWhere_ownsNone (h : s.ownsNone l) (p : OwnEntry → Bool) : s.yieldWhere l p = s := by
  have key (is : List (Fin 16)) : is.foldl (State.yieldSlot l p) s = s := by
    induction is with
    | nil => rfl
    | cons i is ih =>
      have hi : s.yieldSlot l p i = s := by
        unfold State.yieldSlot
        split
        · rename_i e he
          exact if_neg fun hn => h i e he hn.1
        · rfl
      rw [List.foldl_cons, hi]
      exact ih
  rw [State.yieldWhere_eq]
  exact key _

theorem State.holdsCurrent_no_held (h : ∀ (i : Fin 16) (e : OwnEntry), s.ownEntry i = some e → e.link = l → e.standing ≠ .held) :
    s.holdsCurrent l = false := by
  unfold State.holdsCurrent
  split
  · rename_i sp _
    refine decide_eq_false fun hst => ?_
    unfold State.ownStanding at hst
    obtain ⟨i, hi, hst⟩ := Option.bind_eq_some_iff.1 hst
    obtain ⟨e, he, hs⟩ := Option.map_eq_some_iff.1 hst
    have hfind := List.find?_some hi
    rw [he] at hfind
    simp only [Bool.and_eq_true, beq_iff_eq] at hfind
    exact h i e he hfind.1 hs
  · rfl

theorem State.holdsCurrent_ownsNone (h : s.ownsNone l) : s.holdsCurrent l = false :=
  State.holdsCurrent_no_held fun i e he hl => absurd hl (h i e he)

/-- The failure of a relocation of no task, on a link that does not hold its current span (R127 step 3, R128). -/
theorem State.relocFail_acquiring (why : FailCause) (hx : s.link l = some x) (hr : x.reloc = some r)
    (hh : s.holdsCurrent l = false) (ht : r.task = false) : s.relocFail l why false =
      ((((s.count .relocationFailed none).muteLink l).yieldWhere l fun _ => true).modLink l
        (LinkRec.acquiring s.now)).modLink l (LinkRec.ended r (.failed why)) := by
  have hh' : (s.count .relocationFailed none).holdsCurrent l = false := hh
  have hn : (s.count .relocationFailed none).now = s.now := rfl
  simp only [State.relocFail, (State.reloc_eq hx).trans hr]
  rw [← hn]
  generalize s.count .relocationFailed none = v at hh' ⊢
  rw [hh', Bool.false_and, if_neg Bool.false_ne_true]
  generalize ((v.muteLink l).yieldWhere l fun _ => true).modLink l (LinkRec.acquiring v.now) = w
  rw [State.endReloc, ht]
  rfl

theorem State.relocFail_acquired {why : FailCause} (hx : s.link l = some x) (hr : x.reloc = some r) (hc : r.cause = .acquire)
    (ht : r.task = false) (ho : s.ownsNone l) : Acquired l s (s.relocFail l why false) := by
  have hh := State.holdsCurrent_ownsNone ho
  obtain ⟨⟨b, hb⟩, -⟩ := State.relocFail_off (why := why) (force := false) hx hr (by rw [hh]; rfl)
  have hown : ((s.count .relocationFailed none).muteLink l).ownsNone l :=
    State.ownsNone_congr (by rw [State.muteLink_frame]; rfl) ho
  have he := State.relocFail_acquiring why hx hr hh ht
  rw [State.yieldWhere_ownsNone hown] at he
  refine ⟨.inl ?_, ?_, _, hb, rfl, .inr rfl, fun r hr => ?_, fun _ => ⟨why, ?_⟩⟩
  · rw [he, State.modLink_frame, State.modLink_frame, State.muteLink_frame]
    rfl
  · rw [he, State.modLink_frame, State.modLink_frame, State.muteLink_frame]
    rfl
  · cases hr
  · rw [← hc]
    rfl

/-- A claim's offer, and what its refusal leaves (R65, R67). -/
theorem State.claimMade (i : Fin 16) (l : Fin 8) (sp : Span) (s : State) :
    OneClaim s ((s.setOwn i (some (s.newOwn l sp))).offerClaim true (s.newOwn l sp)).1 ∧
      OneClaim s (((s.setOwn i (some (s.newOwn l sp))).offerClaim true (s.newOwn l sp)).1.sendFailure true i).1 ∧
      ((s.setOwn i (some (s.newOwn l sp))).offerClaim true (s.newOwn l sp)).1.mgmt.longTask = s.mgmt.longTask ∧
      (((s.setOwn i (some (s.newOwn l sp))).offerClaim true (s.newOwn l sp)).1.sendFailure true i).1.mgmt.longTask =
        s.mgmt.longTask := by
  have ho := State.offer_offered ((s.newOwn l sp).announce .planClaim true (s.newOwn l sp).cls (.claim l sp))
    (s.setOwn i (some (s.newOwn l sp)))
  have hc : ((s.setOwn i (some (s.newOwn l sp))).offerClaim true (s.newOwn l sp)).1 =
      (s.setOwn i (some (s.newOwn l sp))).offered
        ((s.newOwn l sp).announce .planClaim true (s.newOwn l sp).cls (.claim l sp)) := rfl
  rw [hc]
  obtain ⟨v, hv⟩ : ∃ v, v = (s.setOwn i (some (s.newOwn l sp))).offered
    ((s.newOwn l sp).announce .planClaim true (s.newOwn l sp).cls (.claim l sp)) := ⟨_, rfl⟩
  have hone : OneClaim s v := .inr ⟨s.setOwn i (some (s.newOwn l sp)), _, l, sp, rfl, rfl, by rw [hv]⟩
  have hlong : v.mgmt.longTask = s.mgmt.longTask := by
    rw [hv, State.offered, ho.eq]
    rfl
  have hown : v.ownEntry i = some (s.newOwn l sp) := by
    rw [State.ownEntry, hv, State.offered_plan]
    exact State.ownEntry_setOwn_self _ _ _
  rw [← hv]
  have hf : (v.sendFailure true i).1 = v.setOwn i (some { s.newOwn l sp with
      failures := 1, window := some (v.after (ms 250)) }) := by
    unfold State.sendFailure
    rw [hown]
    rfl
  rw [hf]
  exact ⟨hone, hone, hlong, hlong⟩

/-- A claim start answers without a claim, or makes one. -/
theorem State.claimStart_cases (l : Fin 8) (sp : Span) (s : State) :
    ((s.claimStart l sp).2 ≠ .pending ∧ (s.claimStart l sp).1.biu = s.biu ∧ (s.claimStart l sp).1.plan = s.plan ∧
      (s.claimStart l sp).1.lsup = s.lsup ∧ (s.claimStart l sp).1.mgmt.longTask = s.mgmt.longTask) ∨
    ((s.claimStart l sp).2 = .pending ∧ OneClaim s (s.claimStart l sp).1 ∧
      (s.claimStart l sp).1.mgmt.longTask = s.mgmt.longTask) := by
  unfold State.claimStart
  dsimp only
  split
  · exact .inl ⟨by simp, rfl, rfl, rfl, rfl⟩
  split
  · exact .inl ⟨by simp, rfl, rfl, rfl, rfl⟩
  split
  · exact .inl ⟨by simp, rfl, rfl, rfl, rfl⟩
  split
  · exact .inl ⟨by simp, rfl, rfl, rfl, rfl⟩
  split
  · exact .inl ⟨by simp, rfl, rfl, rfl, rfl⟩
  split
  · exact .inl ⟨by simp, rfl, rfl, rfl, rfl⟩
  · rename_i i _
    obtain ⟨h1, h2, h3, h4⟩ := State.claimMade i l sp s
    split
    · exact .inr ⟨rfl, h1, h3⟩
    · exact .inr ⟨rfl, h2, h4⟩

/-- A search for a link that holds nothing. -/
theorem State.searchRun_acquired (n : Nat) : ∀ {s : State} {x : LinkRec} {r : Reloc}, s.link l = some x →
    x.reloc = some r → x.state = .acquiring → r.cause = .acquire → r.task = false → s.ownsNone l →
    Acquired l s (State.searchRun l n s) := by
  induction n with
  | zero => exact fun hx hr hs hc _ _ => ⟨.inl rfl, rfl, _, hx, .of_reloc hs hr hc⟩
  | succ n ih =>
    intro s x r hx hr hs hc ht ho
    cases ha : s.askPlan l x r with
    | full =>
      rw [State.searchRun_full hx hr ha]
      exact State.modReloc_acquired hx hs hr hc
    | none =>
      rw [State.searchRun_none hx hr ha]
      exact State.relocFail_acquired hx hr hc ht ho
    | current =>
      have := State.askPlan_current ha
      rw [hc] at this
      cases this
    | span sp =>
      rw [State.searchRun_span hx hr ha]
      have hm := State.modReloc_link (f := Reloc.claiming sp) hx hr
      have hb : (s.modReloc l (Reloc.claiming sp)).biu = s.biu ∧
          (s.modReloc l (Reloc.claiming sp)).mgmt.longTask = s.mgmt.longTask := by
        rw [State.modReloc, State.modLink_frame]
        exact ⟨rfl, rfl⟩
      have hp := State.modReloc_plan l (Reloc.claiming sp) s
      generalize s.modReloc l (Reloc.claiming sp) = v at hm hb hp
      obtain ⟨b, hnear⟩ := (State.claimStart_near (l := l) sp l v).some hm
      have hcases := State.claimStart_cases l sp v
      have hcl : ∀ c : State × ClaimAnswer, c.1.biu = v.biu → c.1.mgmt.longTask = v.mgmt.longTask → ∀ {t : State},
          Acquired l c.1 t → Acquired l s t := fun c h1 h2 {t} h =>
        ⟨h.queue.of_biu (h1.trans hb.1), h.longTask.trans (h2.trans hb.2), h.link⟩
      generalize v.claimStart l sp = c at hnear hcases
      obtain ⟨c, a⟩ := c
      rcases hcases with ⟨hna, hcb, hcp, -, hcm⟩ | ⟨rfl, hone, hcm⟩
      · have hco : c.ownsNone l := State.ownsNone_congr (hcp.trans hp) ho
        cases a with
        | pending => exact absurd rfl hna
        | full => exact hcl (c, .full) hcb hcm (State.modReloc_acquired hnear hs rfl hc)
        | refused => exact hcl (c, .refused) hcb hcm (State.relocFail_acquired hnear rfl hc ht hco)
        | lostRank =>
          unfold State.claimAnswered
          dsimp only
          rw [if_neg (by rw [hc]; decide)]
          have hl := State.modReloc_link (f := Reloc.lose sp) hnear rfl
          have hlb : (c.modReloc l (Reloc.lose sp)).biu = c.biu ∧
              (c.modReloc l (Reloc.lose sp)).mgmt.longTask = c.mgmt.longTask := by
            rw [State.modReloc, State.modLink_frame]
            exact ⟨rfl, rfl⟩
          have hlo : (c.modReloc l (Reloc.lose sp)).ownsNone l := State.ownsNone_congr (State.modReloc_plan _ _ _) hco
          generalize c.modReloc l (Reloc.lose sp) = d at hl hlb hlo
          refine hcl (d, .full) (hlb.1.trans hcb) (hlb.2.trans hcm) ?_
          split
          · exact State.relocFail_acquired hl rfl hc ht hlo
          · have hk := State.modReloc_link (f := fun r => { r with phase := .search }) hl rfl
            have h := ih hk rfl hs hc ht (State.ownsNone_congr (State.modReloc_plan _ _ _) hlo)
            refine ⟨h.queue.of_biu ?_, h.longTask.trans ?_, h.link⟩
            · rw [State.modReloc, State.modLink_frame]
            · rw [State.modReloc, State.modLink_frame]
      · exact ⟨hone.of_biu hb.1, hcm.trans hb.2, _, hnear, .of_reloc hs rfl hc⟩

theorem State.startReloc_acquired (hx : s.link l = some x) (ha : s.phase = .active) (hr : x.reloc = none)
    (hs : x.state = .acquiring) (ho : s.ownsNone l) : Acquired l s (s.startReloc l .acquire none false false) := by
  rw [State.startReloc_eq hx ha hr, State.enterSearch]
  have hk := State.modReloc_link (f := fun r => { r with phase := .search })
    (State.link_setLink_self l (x.starting (started .acquire x none false false)) s) rfl
  have h := State.searchRun_acquired 5 hk rfl hs rfl rfl (State.ownsNone_congr (State.modReloc_plan _ _ _) ho)
  refine ⟨h.queue.of_biu ?_, h.longTask.trans ?_, h.link⟩
  · rw [State.modReloc, State.modLink_frame]
    rfl
  · rw [State.modReloc, State.modLink_frame]
    rfl

end Sys2Proof.Machine
end

section
/-! SUPPORT. Every configured link at the entry into ACTIVE (R32 step 4). -/

namespace Sys2Proof.Machine

open Says

variable {l k : Fin 8} {x y z : LinkRec} {o : Offer} {e : QueueEntry} {ls : List (Fin 8)} {s t u v w : State}

/-! ## One claim in the queue -/

theorem OneClaim.length (h : OneClaim s t) : t.biu.queue.length ≤ s.biu.queue.length + 1 := by
  rcases h with h | ⟨v, o, l, sp, -, hv, ht⟩
  · rw [h]
    exact Nat.le_succ _
  · rw [ht, ← hv]
    exact State.offer_length o v

theorem OneClaim.line (h : OneClaim s t) (hl : s.biu.LineRight) : t.biu.LineRight := by
  rcases h with h | ⟨v, o, l, sp, -, hv, ht⟩
  · rw [h]
    exact hl
  · rw [ht]
    exact State.offer_line o (hv ▸ hl)

/-- A claim leaves the entries of other subjects, where there is room or where they are URGENT. -/
theorem OneClaim.keeps (h : OneClaim s t) (hl : s.biu.LineRight) (he : e ∈ s.biu.queue)
    (hk : ∀ (l : Fin 8) (sp : Span), e.key ≠ some (.plan .planClaim l sp)) (hr : s.biu.queue.length < 16 ∨ e.urgent = true) :
    e ∈ t.biu.queue := by
  rcases h with h | ⟨v, o, l, sp, ho, hv, ht⟩
  · rw [h]
    exact he
  · rw [ht]
    refine State.mem_offer (hv ▸ hl) (hv ▸ he) ?_ (.inr fun h => hk l sp (h.trans ho)) (by rw [hv]; exact hr)
    unfold Offer.supersedes
    rw [ho]

/-! ## The links in turn -/

/-- The first relocation of a link. -/
def State.acquireLink (s : State) (l : Fin 8) : State := s.startReloc l .acquire none false false

theorem State.acquireLink_none (h : s.link l = none) : s.acquireLink l = s := by
  unfold State.acquireLink State.startReloc
  rw [h]

/-- The configured ones of some links. -/
def State.configured (s : State) (ls : List (Fin 8)) : List (Fin 8) := ls.filter fun l => (s.link l).isSome

/-- The links of a list have had their first relocation. -/
structure Acquiring (ls : List (Fin 8)) (s t : State) : Prop where
  moves    : Moves s t
  evolves  : Evolves Writes.moves s t
  longTask : t.mgmt.longTask = s.mgmt.longTask
  done     : ∀ l ∈ ls, ∀ z : LinkRec, t.link l = some z → z.Acquires
  rest     : ∀ l, l ∉ ls → linkNear l s t ∧ t.ownsNone l
  line     : t.biu.LineRight
  room     : t.biu.queue.length ≤ s.biu.queue.length + (s.configured ls).length
  keeps    : ∀ e ∈ s.biu.queue, (∀ (l : Fin 8) (sp : Span), e.key ≠ some (.plan .planClaim l sp)) →
    (e.urgent = true ∨ s.biu.queue.length + (s.configured ls).length ≤ 16) → e ∈ t.biu.queue

theorem Acquiring.refl (hl : s.biu.LineRight) (ho : ∀ i : Fin 16, s.ownEntry i = none) : Acquiring [] s s where
  moves := .refl
  evolves := .refl _ s
  longTask := rfl
  done _ h := absurd h (by simp)
  rest l _ := ⟨.inl rfl, fun i e he => by rw [ho i] at he; cases he⟩
  line := hl
  room := Nat.le_refl _
  keeps _ he _ _ := he

theorem State.configured_snoc (s : State) (ls : List (Fin 8)) (l : Fin 8) :
    (s.configured (ls ++ [l])).length = (s.configured ls).length + if (s.link l).isSome then 1 else 0 := by
  rw [State.configured, List.filter_append, List.length_append]
  split
  · rename_i h
    simp [State.configured, h]
  · rename_i h
    simp [State.configured, h]

theorem Acquiring.step (h : Acquiring ls s t) (ha : s.phase = .active) (hl : l ∉ ls)
    (hs : ∀ x : LinkRec, s.link l = some x → x.state = .acquiring ∧ x.reloc = none) :
    Acquiring (ls ++ [l]) s (t.acquireLink l) := by
  obtain ⟨hnear, hown⟩ := h.rest l hl
  have hev : Evolves Writes.moves s (t.acquireLink l) := State.startReloc_evolves rfl rfl h.evolves
  have hmv : Moves s (t.acquireLink l) := State.startReloc_moves h.moves
  have hrel : Relocates l t (t.acquireLink l) := State.startReloc_relocates (by simp) .refl
  have hlen := s.configured_snoc ls l
  have hrest (k : Fin 8) (hk : k ∉ ls ++ [l]) : linkNear k s (t.acquireLink l) ∧ (t.acquireLink l).ownsNone k := by
    simp only [List.mem_append, List.mem_singleton, not_or] at hk
    obtain ⟨h1, h2⟩ := h.rest k hk.1
    exact ⟨h1.trans (hrel.near hk.2), fun i e he hek => h2 i e ((hrel.own_iff (fun hel => hk.2 (hek.symm.trans hel))).1 he) hek⟩
  have hdone (k : Fin 8) (hk : k ∈ ls) (z : LinkRec) (hz : (t.acquireLink l).link k = some z) : z.Acquires := by
    have hkl : k ≠ l := fun h => hl (h ▸ hk)
    rcases hrel.near hkl with hn | ⟨y, b, hy, hn⟩
    · exact h.done k hk z (hn ▸ hz)
    · rw [hn] at hz
      cases hz
      exact h.done k hk y hy
  cases hx : s.link l with
  | none =>
    have htl : t.link l = none := by
      have := h.moves.beside.isSome l
      rw [hx] at this
      simpa using this
    rw [hx] at hlen
    rw [State.acquireLink_none htl] at hrest hdone hev hmv ⊢
    refine ⟨hmv, hev, h.longTask, fun k hk z hz => ?_, hrest, h.line, hlen ▸ h.room, fun e he hk hr => ?_⟩
    · rcases List.mem_append.1 hk with hk | hk
      · exact hdone k hk z hz
      · rw [List.mem_singleton.1 hk, htl] at hz
        cases hz
    · rw [hlen] at hr
      exact h.keeps e he hk hr
  | some x =>
    obtain ⟨hst, hre⟩ := hs x hx
    obtain ⟨b, hb⟩ := hnear.some hx
    have hacq : Acquired l t (t.acquireLink l) := State.startReloc_acquired hb (h.evolves.phase.trans ha) hre hst hown
    rw [hx] at hlen
    simp only [Option.isSome_some, if_true] at hlen
    have hq := h.room
    refine ⟨hmv, hev, hacq.longTask.trans h.longTask, fun k hk z hz => ?_, hrest, hacq.queue.line h.line, ?_,
      fun e he hk hr => ?_⟩
    · rcases List.mem_append.1 hk with hk | hk
      · exact hdone k hk z hz
      · obtain ⟨y, hy, hya⟩ := hacq.link
        rw [List.mem_singleton.1 hk, hy] at hz
        cases hz
        exact hya
    · have := hacq.queue.length
      omega
    · refine hacq.queue.keeps h.line (h.keeps e he hk (hr.imp_right fun hr => ?_)) hk (hr.symm.imp_left fun hr => ?_)
      · omega
      · omega

theorem Acquiring.links (ha : s.phase = .active) (hl : s.biu.LineRight) (ho : ∀ i : Fin 16, s.ownEntry i = none)
    (hs : ∀ (l : Fin 8) (x : LinkRec), s.link l = some x → x.state = .acquiring ∧ x.reloc = none) :
    ∀ ls : List (Fin 8), ls.Nodup → Acquiring ls s (ls.foldl State.acquireLink s) := by
  intro ls
  induction ls using List.reverseRecOn with
  | nil => exact fun _ => .refl hl ho
  | append_singleton ls l ih =>
    intro hn
    obtain ⟨hn1, -, hk⟩ := List.nodup_append.1 hn
    rw [List.foldl_append, List.foldl_cons, List.foldl_nil]
    exact (ih hn1).step ha (fun hm => hk l hm l (List.mem_singleton_self l) rfl) (hs l)

/-- The links as the entry into ACTIVE has them before their relocations. -/
def LinkRec.toAcquire (x : LinkRec) : LinkRec := { x with state := .acquiring }

/-- Every link ACQUIRING. -/
def State.allAcquiring (s : State) : State :=
  { s with lsup := { s.lsup with links := s.lsup.links.map fun x => x.map LinkRec.toAcquire } }

theorem State.acquireLinks_eq (s : State) : s.acquireLinks = (List.finRange 8).foldl State.acquireLink s.allAcquiring := rfl

theorem State.allAcquiring_link (l : Fin 8) (s : State) : s.allAcquiring.link l = (s.link l).map LinkRec.toAcquire :=
  Vector.getElem_map ..

theorem State.configured_all (s : State) :
    (s.configured (List.finRange 8)).length = (s.lsup.links.toList.filterMap id).length := by
  have h (ls : List (Fin 8)) : (s.configured ls).length = ((ls.map fun l => s.lsup.links[l]).filterMap id).length := by
    induction ls with
    | nil => rfl
    | cons l ls ih =>
      rw [State.configured] at ih ⊢
      rw [List.map_cons, List.filter_cons, State.link]
      cases hl : s.lsup.links[l] <;> simp [ih]
  rw [h, finRange_map_getElem]

/-- The entry into ACTIVE as it takes the links, all at rest. -/
theorem State.acquireLinks_acquiring (ha : s.phase = .active) (hl : s.biu.LineRight)
    (ho : ∀ i : Fin 16, s.ownEntry i = none) (hr : ∀ l, s.reloc l = none) :
    Acquiring (List.finRange 8) s.allAcquiring s.acquireLinks := by
  rw [State.acquireLinks_eq]
  have hlink (l : Fin 8) := s.allAcquiring_link l
  obtain ⟨u, hu⟩ : ∃ u, u = s.allAcquiring := ⟨_, rfl⟩
  rw [← hu] at hlink ⊢
  have hph : u.phase = s.phase := by rw [hu, State.allAcquiring]
  have hb : u.biu = s.biu := by rw [hu, State.allAcquiring]
  have hp : u.plan = s.plan := by rw [hu, State.allAcquiring]
  refine Acquiring.links (hph.trans ha) (hb ▸ hl) (fun i => ?_) (fun l x hx => ?_) _ (List.nodup_finRange 8)
  · rw [State.ownEntry, hp]
    exact ho i
  rw [hlink] at hx
  obtain ⟨y, hy, rfl⟩ := Option.map_eq_some_iff.1 hx
  have := hr l
  rw [State.reloc_eq hy] at this
  exact ⟨rfl, this⟩

end Sys2Proof.Machine
end

section
/-! The entry into ACTIVE (R32). -/

namespace Sys2Proof.Machine

open Says

variable {l k : Fin 8} {q : Fin 12} {x : Source} {r : TbPort} {m : Membership} {o a b : Offer} {e : QueueEntry} {L : List Offer}
  {s t u v w : State}

/-! ## What it offers before the claims -/

/-- The joins of the own memberships, in port order. -/
def State.joinOffers (s : State) : List Offer := slotOffers s.tbk.ports joinOffs (List.finRange 12)

/-- The offers of an entry into ACTIVE before those of the links. -/
def State.firstOffers (s : State) : List Offer :=
  [presenceOffer s] ++ s.tallyOffers (List.finRange 8) ++ s.joinOffers

theorem State.firstOffers_length (ha : s.phase = .active) :
    s.firstOffers.length + (s.configured (List.finRange 8)).length = joinCount s := by
  have htally (ks : List (Fin 8)) : (s.tallyOffers ks).length =
      ((ks.map fun k => s.tally.sources[k]).filter fun x => x.any fun y => !y.standby).length := by
    induction ks with
    | nil => rfl
    | cons k ks ih =>
      rw [State.tallyOffers, List.length_map] at ih ⊢
      rw [List.map_cons, List.filter_cons, List.filter_cons, State.publishes, ha, State.source]
      cases hx : (s.tally.sources[k]).any fun y => !y.standby <;> simp [ih]
  rw [State.firstOffers, List.length_append, List.length_append, htally, finRange_map_getElem, State.configured_all,
    State.joinOffers, slotOffers_length s.tbk.ports joinOffs (fun r => r.members.length) fun q r => List.length_map ..]
  rfl

theorem mem_tallyOffers {ks : List (Fin 8)} : o ∈ s.tallyOffers ks ↔ ∃ k ∈ ks, s.publishes k = true ∧ tallyOffer s k = o := by
  simp [State.tallyOffers, and_assoc]

theorem mem_joinOffers : o ∈ s.joinOffers ↔ ∃ q r, s.tbPort q = some r ∧ ∃ m ∈ r.members, joinOffer q m = o := by
  simp [State.joinOffers, mem_slotOffers, joinOffs, State.tbPort]

theorem State.mem_firstOffers : o ∈ s.firstOffers ↔ o = presenceOffer s ∨
    (∃ k, s.publishes k = true ∧ tallyOffer s k = o) ∨ ∃ q r, s.tbPort q = some r ∧ ∃ m ∈ r.members, joinOffer q m = o := by
  rw [State.firstOffers, List.mem_append, List.mem_append, List.mem_singleton, mem_tallyOffers, mem_joinOffers, or_assoc]
  simp

/-- An offer of no plan subject is not undone where each one of its subject is itself. -/
theorem Firm.of_subject {c : SubjectKey} (hc : a.key = some c) (hp : ∀ kind l sp, c ≠ .plan kind l sp)
    (h : ∀ b ∈ L, b.key = some c → b = a) : Firm L a := by
  refine fun b hb => ⟨fun hk _ => ?_, fun e he => ?_⟩
  · rw [h b hb (hk.symm.trans hc)]
    exact ⟨rfl, rfl, rfl, rfl⟩
  · exact Offer.supersedes_other (he.trans hc) (fun kind l sp h => absurd h (hp kind l sp)) b

theorem State.firstOffers_presence (s : State) : Firm s.firstOffers (presenceOffer s) := by
  refine Firm.of_subject (c := .presence) rfl (by simp) fun b hb hk => ?_
  rcases State.mem_firstOffers.1 hb with rfl | ⟨k, -, rfl⟩ | ⟨q, r, -, m, -, rfl⟩
  · rfl
  · cases hk
  · cases hk

theorem State.firstOffers_tally (s : State) (k : Fin 8) : Firm s.firstOffers (tallyOffer s k) := by
  refine Firm.of_subject (c := .tally k) rfl (by simp) fun b hb hk => ?_
  rcases State.mem_firstOffers.1 hb with rfl | ⟨j, -, rfl⟩ | ⟨q, r, -, m, -, rfl⟩
  · cases hk
  · cases hk
    rfl
  · cases hk

theorem State.firstOffers_join (hr : s.tbPort q = some r) (hn : (r.members.map (·.line)).Nodup) (hm : m ∈ r.members) :
    Firm s.firstOffers (joinOffer q m) := by
  refine Firm.of_subject (c := .linePort .lineJoin m.line q) rfl (by simp) fun b hb hk => ?_
  rcases State.mem_firstOffers.1 hb with rfl | ⟨j, -, rfl⟩ | ⟨q', r', hr', m', hm', rfl⟩
  · cases hk
  · cases hk
  · simp only [joinOffer, Option.some.injEq, SubjectKey.linePort.injEq, true_and] at hk
    obtain ⟨hline, rfl⟩ := hk
    rw [hr] at hr'
    cases hr'
    rw [List.inj_on_of_nodup_map hn hm' hm hline]

/-! ## What comes of it -/

/-- The presence timer runs, the source layers that publish have published, and the offers of this are made. -/
structure FirstSent (s t : State) : Prop where
  eq    : t = { s with
    biu := { s.biu with queue := t.biu.queue, nextAge := t.biu.nextAge, presenceTimer := some (s.now + 1000000) }
    tally := t.tally
    rport := t.rport
    mgmt := { s.mgmt with counters := t.mgmt.counters } }
  line  : t.biu.LineRight
  done  : ∀ k, s.publishes k = true → t.tally.layers[k] = sourceLayer s k ∧
    ∀ x, s.source k = some x → t.tally.sources[k] = some (sourceRecord s k x)
  rest  : ∀ k, s.publishes k = false → t.tally.layers[k] = s.tally.layers[k]
  tally : ∀ k, s.publishes k = true → Holds (tallyOffer s k) s t
  all   : s.firstOffers.length ≤ 16 → t.biu.queue.length ≤ s.firstOffers.length ∧
    ∀ o ∈ s.firstOffers, Firm s.firstOffers o → Holds o s t

theorem State.sendPresence_queued (ht : s.takesOffers = true) (hl : s.biu.LineRight) (hq : s.biu.queue = [])
    (hL : presenceOffer s ∈ L) : Queued L [presenceOffer s] s s.sendPresence := by
  have h := (Queued.refl (L := L) ht hl).offer hL (by simp [hq])
  rw [List.nil_append] at h
  rw [State.sendPresence_frame]
  exact h.congr rfl rfl ht (State.offer_offered (presenceOffer s) s).cfg.symm

/-- The publications after the PRESENCE. -/
theorem State.firstPublications (ht : s.takesOffers = true) (hl : s.biu.LineRight) (hq : s.biu.queue = []) :
    Publicised (List.finRange 8) s.sendPresence ((List.finRange 8).foldl State.publishOwn s.sendPresence) ∧
      Queued s.firstOffers ([presenceOffer s] ++ s.tallyOffers (List.finRange 8)) s
        ((List.finRange 8).foldl State.publishOwn s.sendPresence) := by
  have h := State.sendPresence_queued ht hl hq (State.mem_firstOffers.2 (.inl rfl))
  have heq := State.sendPresence_frame s
  generalize s.sendPresence = v at h heq
  have hoffers : v.tallyOffers (List.finRange 8) = s.tallyOffers (List.finRange 8) := by
    have hc : v.cfg = s.cfg := by rw [heq]
    have hcon : v.tally.contacts = s.tally.contacts := by rw [heq]
    have hpub (k : Fin 8) : v.publishes k = s.publishes k := by rw [heq]; rfl
    simp only [State.tallyOffers, hpub, funext fun k => tallyOffer_congr hc hcon k]
  rw [← hoffers]
  refine h.publications _ (List.nodup_finRange 8) (fun a ha => ?_) (by simp [hq])
  rw [hoffers] at ha
  exact List.mem_append_left _ (List.mem_append_right _ ha)

theorem State.offers_line : ∀ (os : List Offer) {s : State}, s.biu.LineRight → (s.offers os).biu.LineRight := by
  intro os
  induction os with
  | nil => exact fun h => h
  | cons o os ih => exact fun h => ih (State.offer_line o h)

theorem State.joinAll_sent {os : List Offer} (h : Queued L os s t) (hp : t.tbk = s.tbk)
    (hm : ∀ o ∈ s.joinOffers, o ∈ L) (hq : s.biu.queue = []) :
    t.joinAll.biu.LineRight ∧ (∀ k, Holds (tallyOffer s k) s t → Holds (tallyOffer s k) s t.joinAll) ∧
      ((os ++ s.joinOffers).length ≤ 16 → Queued L (os ++ s.joinOffers) s t.joinAll) := by
  have hj : t.joinAll = t.offers s.joinOffers := by rw [State.joinAll_eq, State.joinOffers, hp]
  rw [hj]
  refine ⟨?_, fun k ⟨e, he, h1, h2, h3⟩ => ⟨e, ?_, h1, h2, h3⟩, fun hl => Queued.offers _ h hm (by simpa [hq] using hl)⟩
  · exact State.offers_line _ h.line
  · refine (State.mem_offers _ h.line he (h1 rfl) fun o ho => ?_).2
    obtain ⟨q, r, -, m, -, rfl⟩ := mem_joinOffers.1 ho
    refine ⟨rfl, fun hk => ?_⟩
    cases h2.symm.trans hk

theorem State.firstSent (ha : s.phase = .active) (hl : s.biu.LineRight) (hq : s.biu.queue = [])
    (ho : ∀ i : Fin 16, s.ownEntry i = none) (hr : ∀ l, s.reloc l = none) :
    FirstSent s ((s.sendPresence).startSources).joinAll := by
  obtain ⟨hp, hQ⟩ := State.firstPublications (State.takesOffers_of_active ha) hl hq
  have heq1 := State.sendPresence_frame s
  rw [State.startSources_eq]
  generalize s.sendPresence = v1 at hp hQ heq1 ⊢
  generalize (List.finRange 8).foldl State.publishOwn v1 = v2 at hp hQ ⊢
  have heq2 := hp.eq
  have h2 : v2.plan = s.plan ∧ v2.lsup = s.lsup ∧ v2.tbk = s.tbk := by rw [heq2, heq1]; exact ⟨rfl, rfl, rfl⟩
  have heq3 := State.evaluate_rest (s := v2) (by simpa only [State.ownEntry, h2.1] using ho)
    (by simpa only [State.reloc, State.link, h2.2.1] using hr)
  obtain ⟨v3, hv3⟩ : ∃ v3, v3 = v2.evaluate := ⟨_, rfl⟩
  rw [← hv3] at heq3 ⊢
  have hl3 : v3.tally.layers = v2.tally.layers := by rw [heq3]; exact Tally.evaluated_layers _ _
  have hs3 : v3.tally.sources = v2.tally.sources := by rw [heq3]; exact Tally.evaluated_sources _ _
  generalize v2.tally.evaluated v2.image = y, v3.rport = rp at heq3
  have hQ3 : Queued s.firstOffers ([presenceOffer s] ++ s.tallyOffers (List.finRange 8)) s v3 := by
    refine hQ.congr ?_ ?_ ?_ ?_
    all_goals rw [heq3]
    exact hQ.takes
  obtain ⟨hline, htally, hall⟩ := State.joinAll_sent hQ3 (by rw [heq3]; exact h2.2.2)
    (fun o ho => List.mem_append_right _ ho) hq
  have heq4 := State.offers_normal s.joinOffers v3 fun o ho => by
    obtain ⟨q, r, -, m, -, rfl⟩ := mem_joinOffers.1 ho
    rfl
  have hj : v3.joinAll = v3.offers s.joinOffers := by
    rw [State.joinAll_eq, State.joinOffers, heq3]
    simp only [h2.2.2]
  rw [← hj] at heq4
  generalize v3.joinAll = v4 at hline htally hall heq4 ⊢
  have ht4 : v4.tally = v3.tally := by rw [heq4]
  have hpub (k : Fin 8) : v1.publishes k = s.publishes k := by rw [heq1]; rfl
  have hsrc (k : Fin 8) : v1.source k = s.source k := by rw [heq1]; rfl
  have hcfg : v1.cfg = s.cfg := by rw [heq1]
  have hnow : v1.now = s.now := by rw [heq1]
  have hty : v1.tally = s.tally := by rw [heq1]
  have hcon : v1.tally.contacts = s.tally.contacts := by rw [hty]
  refine ⟨?_, hline, fun k hk => ?_, fun k hk => ?_, fun k hk => ?_, fun hn => ?_⟩
  · generalize v4.biu.queue = q4, v4.biu.nextAge = n4, v4.mgmt.counters = c4 at heq4
    subst heq4
    subst heq3
    generalize v2.biu.queue = q2, v2.biu.nextAge = n2, v2.tally.layers = l2, v2.tally.sources = s2 at heq2
    subst heq2
    generalize (s.offer (presenceOffer s)).1.biu.queue = q1, (s.offer (presenceOffer s)).1.biu.nextAge = n1,
      (s.offer (presenceOffer s)).1.mgmt.counters = c1 at heq1
    subst heq1
    rfl
  · obtain ⟨h1, h3⟩ := hp.done k (List.mem_finRange k) ((hpub k).trans hk)
    rw [ht4, hl3, hs3, h1, sourceLayer_congr hnow hcfg hcon]
    exact ⟨rfl, fun x hx => (h3 x ((hsrc k).trans hx)).trans (by rw [sourceRecord_congr hnow hcfg hcon])⟩
  · rw [ht4, hl3, (hp.rest k (.inr ((hpub k).trans hk))).1, hty]
  · refine htally k (hQ3.holds _ (List.mem_append_right _ ?_) (s.firstOffers_tally k))
    exact mem_tallyOffers.2 ⟨k, List.mem_finRange k, hk, rfl⟩
  · have hQ4 := hall hn
    exact ⟨by simpa [hq, State.firstOffers] using hQ4.room, fun o ho hf => hQ4.holds o ho hf⟩

/-! ## The entry -/

/-- The state that the entry into ACTIVE starts from (R32). -/
def State.startActive (s : State) : State := { s with phase := .active, biu := { s.biu with joinTimer := none } }

theorem State.enterActive_eq (s : State) :
    s.enterActive = (((s.startActive.sendPresence).startSources).joinAll).acquireLinks := rfl

/-- The end of the join listen: the first offers, then the links (R31, R32). -/
theorem exec_joinTimer {d : Nat} (hinv : s.Inv) (hd : s.biu.joinTimer = some d) :
    ∃ v w : State, exec .joinTimerExpiry s = .next w.finish ∧ FirstSent (s.reach d).startActive v ∧
      Acquiring (List.finRange 8) v.allAcquiring w := by
  have hj : s.phase = .joining := hinv.startUp.1 (by rw [hd]; rfl)
  obtain ⟨hown, -, hrel⟩ := hinv.quiet (by rw [hj]; decide)
  have he := exec_expiry (c := .joinTimerExpiry) (s := s) (f := State.enterActive) rfl hd
  rw [State.enterActive_eq] at he
  have hfirst := State.firstSent (s := (s.reach d).startActive) rfl hinv.line (hinv.queue.2 (by rw [hj]; rfl)) hown hrel
  have hkeep : (s.reach d).startActive.plan = s.plan ∧ (s.reach d).startActive.lsup = s.lsup ∧
      (s.reach d).startActive.phase = .active := ⟨rfl, rfl, rfl⟩
  obtain ⟨hp, hl, hph⟩ := hkeep
  generalize (s.reach d).startActive = u at *
  generalize ((u.sendPresence).startSources).joinAll = v at he hfirst
  have heq := hfirst.eq
  have hvp : v.plan = s.plan := by rw [heq]; exact hp
  have hvl : v.lsup = s.lsup := by rw [heq]; exact hl
  have hvph : v.phase = .active := by rw [heq]; exact hph
  refine ⟨v, _, he, hfirst, State.acquireLinks_acquiring hvph hfirst.line (fun i => ?_) fun l => ?_⟩
  · rw [State.ownEntry, hvp]
    exact hown i
  · rw [State.reloc, State.link, hvl]
    exact hrel l

/-- What an entry into ACTIVE leaves as it was. -/
structure Entered (n : Nat) (s t : State) : Prop where
  phase : t.phase = .active
  now : t.now = n
  fault : t.faultLine = s.faultLine
  cfg : t.cfg = s.cfg
  pins : t.pins = s.pins
  pending : t.pending = s.pending
  joinTimer : t.biu.joinTimer = none
  presenceTimer : t.biu.presenceTimer = some (n + 1000000)
  roster : t.biu.roster = s.biu.roster
  bus : BusKept s t
  plan : t.plan.peers = s.plan.peers ∧ t.plan.quarantine = s.plan.quarantine ∧ t.plan.overfull = s.plan.overfull
  links : ∀ l, (t.link l).isSome = (s.link l).isSome
  longTask : t.mgmt.longTask = s.mgmt.longTask
  recent : t.mgmt.recent = s.mgmt.recent
  talk : talkKept s t

theorem FirstSent.entered {d : Nat} (h : FirstSent (s.reach d).startActive v) : Entered (max s.now d) s v.allAcquiring := by
  have hl (l : Fin 8) : (v.allAcquiring.link l).isSome = (s.link l).isSome := by
    rw [State.allAcquiring_link, Option.isSome_map, State.link, h.eq]
    rfl
  have heq := h.eq
  obtain ⟨z, hz⟩ : ∃ z, z = v.allAcquiring := ⟨_, rfl⟩
  rw [← hz] at hl ⊢
  rw [State.allAcquiring, heq] at hz
  subst hz
  exact ⟨rfl, rfl, rfl, rfl, rfl, rfl, rfl, rfl, rfl, ⟨rfl, rfl, rfl, rfl, rfl⟩, ⟨rfl, rfl, rfl⟩, hl, rfl, rfl, .of_eq rfl⟩

theorem Acquiring.entered {n : Nat} {ls : List (Fin 8)} (h : Acquiring ls v w) (he : Entered n s v) :
    Entered n s w.finish := by
  obtain ⟨w1, w2, w3, w4, w5, w6⟩ := h.evolves.moves_kept
  have hb := h.moves.beside
  have ha := w.finish_after
  obtain ⟨c1, -, c3, c4, c5, c6⟩ := w1.trans ha.station
  obtain ⟨p1, p2, p3⟩ := he.plan
  constructor
  · exact c1.trans he.phase
  · exact (ha.now.trans h.evolves.now).trans he.now
  · exact c3.trans he.fault
  · exact c5.trans he.cfg
  · exact c4.trans he.pins
  · exact c6.trans he.pending
  · exact (ha.joinTimer.trans hb.joinTimer).trans he.joinTimer
  · exact (ha.presenceTimer.trans hb.presenceTimer).trans he.presenceTimer
  · exact (ha.roster.trans hb.roster).trans he.roster
  · exact (he.bus.trans hb.bus).trans ha.bus
  · rw [ha.plan]
    exact ⟨w4.trans p1, w5.trans p2, w6.trans p3⟩
  · intro l
    rw [State.link, ha.lsup]
    exact (hb.isSome l).trans (he.links l)
  · exact (ha.longTask.trans h.longTask).trans he.longTask
  · exact (ha.recent.trans hb.recent).trans he.recent
  · exact (he.talk.trans (.of_eq w3)).trans ha.talk

theorem startActive_source (d : Nat) (s : State) (k : Fin 8) : (s.reach d).startActive.source k = s.source k := rfl

theorem startActive_publishes (d : Nat) (s : State) (k : Fin 8) :
    (s.reach d).startActive.publishes k = (s.source k).any fun x => !x.standby := by
  rw [State.publishes, startActive_source]
  rfl

theorem startActive_content (d : Nat) (s : State) (k : Fin 8) : (s.reach d).startActive.content k = s.content k :=
  State.content_congr rfl rfl k

/-- The replica and the record of a source layer that publishes at the entry into ACTIVE (R143). -/
theorem FirstSent.published {d : Nat} (h : FirstSent (s.reach d).startActive v) (hx : s.source k = some x)
    (hs : x.standby = false) : v.tally.layers[k].state = .live ∧ v.tally.layers[k].source = some s.station ∧
      v.tally.layers[k].inputs = s.content k ∧ v.tally.sources[k] = some
        { standby := false, published := some (s.content k),
          refreshTimer := some (max s.now d + s.image.refreshUnits * 100000) } := by
  obtain ⟨h1, h2⟩ := h.done k (by rw [startActive_publishes, hx]; simp [hs])
  rw [h1, h2 x hx, sourceRecord, ← startActive_content d]
  cases x
  cases hs
  exact ⟨rfl, rfl, rfl, rfl⟩

/-- What the first offers put in the queue waits when the links have had their turn. -/
theorem Acquiring.first_waits (h : Acquiring (List.finRange 8) v.allAcquiring w) (hh : Holds o u v) (h0 : o.target = 0)
    (hs : u.station = s.station) (hk : ∀ (l : Fin 8) (sp : Span), o.key ≠ some (.plan .planClaim l sp))
    (hr : o.urgent = true ∨ v.biu.queue.length + (v.configured (List.finRange 8)).length ≤ 16) :
    waits o.urgent o.kind o.body s w.finish := by
  obtain ⟨e, he, h1, h2, h3⟩ := hh
  have hc : v.allAcquiring.configured (List.finRange 8) = v.configured (List.finRange 8) := by
    simp only [State.configured, State.allAcquiring_link, Option.isSome_map]
  have hw : e ∈ w.biu.queue := h.keeps e he (by rw [h2]; exact hk) (hr.imp h1 fun hr => by rw [hc]; exact hr)
  exact Holds.waits (u := w.finish) ⟨e, w.finish_after.mem hw, h1, h2, h3⟩ h0 rfl hs fun _ h => h

/-- With room for all of them, each of the first offers that none undoes waits. -/
theorem Acquiring.firsts_wait {d : Nat} (h : Acquiring (List.finRange 8) v.allAcquiring w)
    (hf : FirstSent (s.reach d).startActive v) (hq : joinCount s ≤ 16) (ho : o ∈ (s.reach d).startActive.firstOffers)
    (hfirm : Firm (s.reach d).startActive.firstOffers o) (h0 : o.target = 0)
    (hk : ∀ (l : Fin 8) (sp : Span), o.key ≠ some (.plan .planClaim l sp)) : waits o.urgent o.kind o.body s w.finish := by
  have hlen : (s.reach d).startActive.firstOffers.length + (s.configured (List.finRange 8)).length = joinCount s :=
    State.firstOffers_length (s := (s.reach d).startActive) rfl
  have hc : v.configured (List.finRange 8) = s.configured (List.finRange 8) := by
    simp only [State.configured, State.link]
    rw [hf.eq]
    rfl
  obtain ⟨hroom, hall⟩ := hf.all (by omega)
  exact h.first_waits (hall o ho hfirm) h0 rfl hk (.inr (by rw [hc]; omega))

/-- Settles O12: the end of the join listen enters ACTIVE. -/
theorem joinListenEndsInActive : Obligations.JoinListenEndsInActive := by
  intro d s hinv hd
  obtain ⟨v, w, he, hfirst, hacq⟩ := exec_joinTimer hinv hd
  have hent := hacq.entered hfirst.entered
  have ha := w.finish_after
  have htally : w.finish.tally = v.tally := by
    obtain ⟨-, hw, -⟩ := hacq.evolves.moves_kept
    exact ha.tally.trans hw
  obtain ⟨p1, p2, p3⟩ := hent.plan
  refine ⟨w.finish, he, hent.phase, hent.now, hent.fault, hent.cfg, hent.pins, hent.pending, hent.joinTimer,
    hent.now ▸ hent.presenceTimer, hent.roster, hent.bus.origins, hent.bus.fwdA, hent.bus.fwdB, p1, p2, p3, hent.links,
    fun l y hy => ?_, fun k hk => ?_, fun k x hx hs => ?_, fun hq => ⟨?_, fun q r hr hn m hm => ?_⟩, hent.longTask, hent.recent,
    hent.talk⟩
  · rw [ha.lsup] at hy
    exact hacq.done l (List.mem_finRange l) y hy
  · rw [htally]
    refine hfirst.rest k ?_
    rw [startActive_publishes]
    cases hx : s.source k with
    | none => rfl
    | some x =>
      rw [hx] at hk
      simpa using hk
  · have hpub : (s.reach d).startActive.publishes k = true := by
      rw [startActive_publishes, hx]
      simp [hs]
    obtain ⟨h1, h2, h3, h4⟩ := hfirst.published hx hs
    rw [htally, hent.now]
    refine ⟨h1, h2, h3, h4, ?_⟩
    have hw := hacq.first_waits (s := s) (hfirst.tally k hpub) rfl rfl (fun l sp h => by cases h) (.inl rfl)
    have hsame : tallyOffer (s.reach d).startActive k = tallyOffer s k := tallyOffer_congr rfl rfl k
    rw [hsame] at hw
    exact hw
  · exact hacq.firsts_wait hfirst hq (State.mem_firstOffers.2 (.inl rfl)) (State.firstOffers_presence _) rfl fun l sp h => by cases h
  · exact hacq.firsts_wait (o := joinOffer q m) hfirst hq (State.mem_firstOffers.2 (.inr (.inr ⟨q, r, hr, m, hm, rfl⟩)))
      (State.firstOffers_join hr hn hm) rfl fun l sp h => by cases h

end Sys2Proof.Machine
end

section
/-! SUPPORT. PLAN's own entries in turn: what an arrival does to one of them leaves the other links alone (R62, R68 to R71,
R79). -/

namespace Sys2Proof.Machine

open Says

variable {l k : Fin 8} {i j : Fin 16} {e o : OwnEntry} {x y : LinkRec} {b : PlanBody} {sp : Span} {pair : Nat × Nat}
  {f : Fin 16 → State → State × List PlanNews} {N : PlanNews → Prop} {A B : State → Prop} {s t u v w : State}

/-! ## The own slots in order -/

/-- A pass over some of the own slots. -/
def State.overSlots (f : Fin 16 → State → State × List PlanNews) (is : List (Fin 16)) (acc : State × List PlanNews) :
    State × List PlanNews := is.foldl (fun acc i => ((f i acc.1).1, acc.2 ++ (f i acc.1).2)) acc

theorem State.overOwns_eq (f : Fin 16 → State → State × List PlanNews) (s : State) :
    s.overOwns f = State.overSlots f (List.finRange 16) (s, []) := rfl

theorem State.overSlots_keep : ∀ (is : List (Fin 16)) (acc : State × List PlanNews), A acc.1 → (∀ n ∈ acc.2, N n) →
    (∀ j ∈ is, ∀ u, A u → A (f j u).1 ∧ ∀ n ∈ (f j u).2, N n) →
    A (State.overSlots f is acc).1 ∧ ∀ n ∈ (State.overSlots f is acc).2, N n := by
  intro is
  induction is with
  | nil => exact fun acc ha hn _ => ⟨ha, hn⟩
  | cons j is ih =>
    intro acc ha hn h
    obtain ⟨h1, h2⟩ := h j List.mem_cons_self acc.1 ha
    refine ih _ h1 (fun n hm => ?_) fun k hk => h k (List.mem_cons_of_mem _ hk)
    exact (List.mem_append.1 hm).elim (hn n) (h2 n)

/-- A pass in which one slot turns the state, and the others keep it. -/
theorem State.overSlots_turn : ∀ (is : List (Fin 16)) (acc : State × List PlanNews), is.Nodup → i ∈ is → A acc.1 →
    (∀ n ∈ acc.2, N n) → (∀ j, j ≠ i → ∀ u, A u → A (f j u).1 ∧ ∀ n ∈ (f j u).2, N n) →
    (∀ u, A u → B (f i u).1 ∧ ∀ n ∈ (f i u).2, N n) → (∀ j, j ≠ i → ∀ u, B u → B (f j u).1 ∧ ∀ n ∈ (f j u).2, N n) →
    B (State.overSlots f is acc).1 ∧ ∀ n ∈ (State.overSlots f is acc).2, N n := by
  intro is
  induction is with
  | nil => exact fun acc _ hi => absurd hi (by simp)
  | cons j is ih =>
    intro acc hd hi ha hn hA hi' hB
    obtain ⟨hj, hd⟩ := List.nodup_cons.1 hd
    by_cases hij : j = i
    · subst hij
      obtain ⟨h1, h2⟩ := hi' acc.1 ha
      refine State.overSlots_keep is _ h1 (fun n hm => (List.mem_append.1 hm).elim (hn n) (h2 n)) fun k hk => ?_
      exact hB k fun h => hj (h ▸ hk)
    · obtain ⟨h1, h2⟩ := hA j hij acc.1 ha
      exact ih _ hd ((List.mem_cons.1 hi).resolve_left fun h => hij h.symm) h1
        (fun n hm => (List.mem_append.1 hm).elim (hn n) (h2 n)) hA hi' hB

theorem State.overOwns_keep (ha : A s) (h : ∀ j, ∀ u, A u → A (f j u).1 ∧ ∀ n ∈ (f j u).2, N n) :
    A (s.overOwns f).1 ∧ ∀ n ∈ (s.overOwns f).2, N n := by
  rw [State.overOwns_eq]
  exact State.overSlots_keep _ _ ha (by simp) fun j _ => h j

theorem State.overOwns_turn (i : Fin 16) (ha : A s) (hA : ∀ j, j ≠ i → ∀ u, A u → A (f j u).1 ∧ ∀ n ∈ (f j u).2, N n)
    (hi : ∀ u, A u → B (f i u).1 ∧ ∀ n ∈ (f i u).2, N n) (hB : ∀ j, j ≠ i → ∀ u, B u → B (f j u).1 ∧ ∀ n ∈ (f j u).2, N n) :
    B (s.overOwns f).1 ∧ ∀ n ∈ (s.overOwns f).2, N n := by
  rw [State.overOwns_eq]
  exact State.overSlots_turn _ _ (List.nodup_finRange 16) (List.mem_finRange i) ha (by simp) hA hi hB

theorem State.overSlots_idle : ∀ (is : List (Fin 16)) (acc : State × List PlanNews),
    (∀ j ∈ is, f j acc.1 = (acc.1, [])) → State.overSlots f is acc = acc := by
  intro is
  induction is with
  | nil => exact fun _ _ => rfl
  | cons j is ih =>
    intro acc h
    have hj : ((f j acc.1).1, acc.2 ++ (f j acc.1).2) = acc := by rw [h j List.mem_cons_self, List.append_nil]
    rw [State.overSlots, List.foldl_cons, hj]
    exact ih acc fun k hk => h k (List.mem_cons_of_mem _ hk)

theorem State.overOwns_idle (h : ∀ j, f j s = (s, [])) : s.overOwns f = (s, []) := by
  rw [State.overOwns_eq]
  exact State.overSlots_idle _ _ fun j _ => h j

/-- A pass that has something to do in one slot alone. -/
theorem State.overOwns_single (i : Fin 16) (h1 : ∀ j, j ≠ i → f j s = (s, []))
    (h2 : ∀ j, j ≠ i → f j (f i s).1 = ((f i s).1, [])) : s.overOwns f = f i s := by
  have key : ∀ is : List (Fin 16), is.Nodup → i ∈ is → State.overSlots f is (s, []) = f i s := by
    intro is
    induction is with
    | nil => exact fun _ hi => absurd hi (by simp)
    | cons j is ih =>
      intro hd hi
      obtain ⟨hj, hd⟩ := List.nodup_cons.1 hd
      by_cases hij : j = i
      · subst hij
        exact State.overSlots_idle is ((f j s).1, [] ++ (f j s).2) fun k hk => h2 k fun h => hj (h ▸ hk)
      · have hs : ((f j s).1, ([] : List PlanNews) ++ (f j s).2) = (s, []) := by rw [h1 j hij]; rfl
        rw [State.overSlots, List.foldl_cons, hs]
        exact ih hd ((List.mem_cons.1 hi).resolve_left fun h => hij h.symm)
  rw [State.overOwns_eq]
  exact key _ (List.nodup_finRange 16) (List.mem_finRange i)

/-! ## What PLAN does with an entry is its link's -/

theorem State.setOwn_relocates {a c : OwnEntry} (ha : t.ownEntry i = some a) (hl : a.link = l) (hc : c.link = l)
    (h : Relocates l s t) : Relocates l s (t.setOwn i (some c)) := by
  refine h.own i _ (fun x hx => ?_) fun x hx => ?_
  · rw [ha] at hx
    cases hx
    exact hl
  · cases hx
    exact hc

theorem State.announceHold_relocates {m : Bool} (ha : t.ownEntry i = some e) (hl : e.link = l) (h : Relocates l s t) :
    Relocates l s (t.announceHold m i) := by
  simp only [State.announceHold, ha]
  split
  · exact State.setOwn_relocates (a := e) ((State.offer_keeps_own _ i t).trans ha) hl hl (h.offer _)
  · exact h.offer _

theorem State.modOwn_relocates {g : OwnEntry → OwnEntry} (hg : ∀ a, (g a).link = a.link)
    (hl : ∀ a, t.ownEntry i = some a → a.link = l) (h : Relocates l s t) : Relocates l s (t.modOwn i g) := by
  unfold State.modOwn
  split
  · rename_i a ha
    exact State.setOwn_relocates ha (hl a ha) ((hg a).trans (hl a ha)) h
  · exact h

theorem State.announceHold_link {m : Bool} (ha : s.ownEntry i = some e) :
    ∀ a, (s.announceHold m i).ownEntry i = some a → a.link = e.link := by
  intro a hb
  simp only [State.announceHold, ha] at hb
  split at hb
  · rw [State.ownEntry_setOwn_self] at hb
    cases hb
    rfl
  · rw [State.offer_keeps_own, ha] at hb
    cases hb
    rfl

theorem State.becomeHeld_relocates (ha : s.ownEntry i = some e) :
    Relocates e.link s (s.becomeHeld i).1 ∧ ∀ n ∈ (s.becomeHeld i).2, n.link = e.link := by
  simp only [State.becomeHeld, ha]
  generalize hu : s.setOwn i (some { e with standing := .held, window := none, allowance := none, pendingYield := [] }) = u
  have hue : u.ownEntry i = some { e with standing := .held, window := none, allowance := none, pendingYield := [] } := by
    rw [← hu]
    exact State.ownEntry_setOwn_self _ _ _
  have hr : Relocates e.link s u := hu ▸ State.setOwn_relocates ha rfl rfl .refl
  refine ⟨State.modOwn_relocates (fun _ => rfl) (fun a hb => State.announceHold_link hue a hb)
    (State.announceHold_relocates hue rfl hr), ?_⟩
  intro n hn
  rw [List.mem_singleton.1 hn]

theorem State.dropPair_relocates (ha : s.ownEntry i = some e) :
    Relocates e.link s (s.dropPair pair i).1 ∧ ∀ n ∈ (s.dropPair pair i).2, n.link = e.link := by
  simp only [State.dropPair, ha]
  generalize hu : s.setOwn i (some { e with pendingYield := e.pendingYield.filter fun p => p != pair }) = u
  have hue : u.ownEntry i = some { e with pendingYield := e.pendingYield.filter fun p => p != pair } := by
    rw [← hu]
    exact State.ownEntry_setOwn_self _ _ _
  have hr : Relocates e.link s u := hu ▸ State.setOwn_relocates ha rfl rfl .refl
  split
  · obtain ⟨h1, h2⟩ := State.becomeHeld_relocates hue
    exact ⟨hr.trans h1, h2⟩
  · exact ⟨hr, by simp⟩

theorem State.sendDefence_relocates (ha : s.ownEntry i = some e) : Relocates e.link s (s.sendDefence i) := by
  simp only [State.sendDefence, ha]
  split
  · exact State.announceHold_relocates ha rfl .refl
  · exact Relocates.refl.offer _
  · exact .refl

theorem State.sendDefence_link (ha : s.ownEntry i = some e) :
    ∀ a, (s.sendDefence i).ownEntry i = some a → a.link = e.link := by
  intro a hb
  simp only [State.sendDefence, ha] at hb
  split at hb
  · exact State.announceHold_link ha a hb
  · rw [State.offerClaim, State.offer_keeps_own, ha] at hb
    cases hb
    rfl
  · rw [ha] at hb
    cases hb
    rfl

theorem State.defend_relocates (ha : s.ownEntry i = some e) : Relocates e.link s (s.defend i) := by
  simp only [State.defend, ha]
  split
  · exact State.setOwn_relocates ha rfl rfl .refl
  · exact State.modOwn_relocates (fun _ => rfl) (State.sendDefence_link ha) (State.sendDefence_relocates ha)

theorem OwnEntry.addPair_link (e : OwnEntry) : (e.addPair pair).link = e.link := by
  unfold OwnEntry.addPair
  split <;> rfl

theorem State.preempt_relocates {n : Nat} (ha : s.ownEntry i = some e) :
    Relocates e.link s (s.preempt n i e).1 ∧ ∀ m ∈ (s.preempt n i e).2, m.link = e.link := by
  unfold State.preempt
  dsimp only
  have hr : Relocates e.link s (s.setOwn i (some (OwnEntry.preempted (s.after (ms 2000)) e))) :=
    State.setOwn_relocates ha rfl rfl .refl
  split
  · rename_i j o hold
    obtain ⟨hne, hj, hl, -⟩ := State.olderYielding_some hold
    refine ⟨State.count_relocates (State.removeOwn_relocates (fun x hx => ?_) hr), fun m hm => ?_⟩
    · rw [State.ownEntry_setOwn_ne hne, hj] at hx
      cases hx
      exact hl
    · simp only [List.mem_cons, List.not_mem_nil, or_false] at hm
      rcases hm with rfl | rfl
      · exact hl
      · rfl
  · refine ⟨State.count_relocates hr, fun m hm => ?_⟩
    rw [List.mem_singleton.1 hm]

theorem State.claimLost_relocates {n : Nat} (ha : s.ownEntry i = some e) :
    Relocates e.link s (s.claimLost n i e).1 ∧ ∀ m ∈ (s.claimLost n i e).2, m.link = e.link := by
  refine ⟨State.count_relocates (State.removeOwn_relocates (fun x hx => ?_) .refl), fun m hm => ?_⟩
  · rw [ha] at hx
    cases hx
    rfl
  · rw [List.mem_singleton.1 hm]

/-- A claim or hold against an own entry is a matter of the entry's link. -/
theorem State.testOwn_relocates {isHold : Bool} {h n : Nat} (ha : s.ownEntry i = some e) :
    Relocates e.link s (s.testOwn isHold h b n i).1 ∧ ∀ m ∈ (s.testOwn isHold h b n i).2, m.link = e.link := by
  simp only [State.testOwn, ha]
  split
  · split
    · split
      · exact State.claimLost_relocates ha
      · refine ⟨?_, by simp⟩
        cases isHold with
        | false =>
          simp only [Bool.false_eq_true, if_false]
          split
          · exact State.defend_relocates ha
          · exact .refl
        | true =>
          simp only [if_true]
          have hr : Relocates e.link s (s.setOwn i (some (e.addPair (h, b.link)))) :=
            State.setOwn_relocates ha rfl e.addPair_link .refl
          have hd := State.defend_relocates (State.ownEntry_setOwn_self i (some (e.addPair (h, b.link))) s)
          rw [OwnEntry.addPair_link] at hd
          split
          · exact hr.trans hd
          · exact hr
    · split
      · exact State.preempt_relocates ha
      · exact ⟨State.defend_relocates ha, by simp⟩
    · exact ⟨.refl, by simp⟩
  · exact ⟨.refl, by simp⟩

/-! ## What the other links keep -/

/-- One state follows from another without a change to a link's own entries, and with its record the same but for its last
announced state. -/
structure Aside (l : Fin 8) (s t : State) : Prop where
  phase : t.phase = s.phase
  now   : t.now = s.now
  cfg   : t.cfg = s.cfg
  overfull : t.plan.overfull = s.plan.overfull
  own   : ∀ (i : Fin 16) (e : OwnEntry), e.link = l → (t.ownEntry i = some e ↔ s.ownEntry i = some e)
  near  : linkNear l s t

theorem Aside.refl (l : Fin 8) (s : State) : Aside l s s := ⟨rfl, rfl, rfl, rfl, fun _ _ _ => Iff.rfl, .inl rfl⟩

theorem Aside.trans (a : Aside l s t) (b : Aside l t u) : Aside l s u where
  phase := b.phase.trans a.phase
  now := b.now.trans a.now
  cfg := b.cfg.trans a.cfg
  overfull := b.overfull.trans a.overfull
  own i e he := (b.own i e he).trans (a.own i e he)
  near := a.near.trans b.near

theorem Relocates.moves (h : Relocates l s t) : Moves s t := by
  induction h with
  | refl => exact .refl
  | offer o _ ih => exact ih.offer o
  | count ev n _ ih => exact ih.count ev n
  | own i e _ _ _ ih => exact State.setOwn_moves ih
  | link f hf _ ih => exact State.modLink_moves (fun x => (hf x).desc) ih
  | mute a _ _ ih => exact State.mute_moves ih
  | tune a sp _ _ ih => exact State.tune_moves ih
  | longTask x _ ih => exact ih.longTask x

theorem Relocates.overfull (h : Relocates l s t) : t.plan.overfull = s.plan.overfull := by
  induction h with
  | refl => rfl
  | offer o _ ih => rw [State.offer_plan]; exact ih
  | count ev n _ ih => exact ih
  | own i e _ _ _ ih => exact ih
  | link f hf _ ih => rw [State.modLink_plan]; exact ih
  | mute a _ _ ih => rw [State.mute_plan]; exact ih
  | tune a sp _ _ ih => rw [State.tune_plan]; exact ih
  | longTask x _ ih => exact ih

/-- The relocation of one link is nothing to another. -/
theorem Relocates.aside (h : Relocates k s t) (hk : l ≠ k) : Aside l s t := by
  obtain ⟨hs, hn⟩ := h.moves.station
  exact ⟨stationKept.phase hs, hn, stationKept.cfg hs, h.overfull,
    fun i e he => h.own_iff (fun hl => hk (he.symm.trans hl)), h.near hk⟩

theorem Aside.link_none (h : Aside l s t) (hx : s.link l = none) : t.link l = none := by
  rcases h.near with h | ⟨y, _, hy, -⟩
  · exact h.trans hx
  · rw [hx] at hy
    cases hy

end Sys2Proof.Machine
end

section
/-! SUPPORT. A claim or hold against a HELD entry whose link's other entries are YIELDING (R75, R79, R83). -/

namespace Sys2Proof.Machine

open Says

variable {l : Fin 8} {i j : Fin 16} {e o : OwnEntry} {x y : LinkRec} {b : PlanBody} {isHold : Bool} {h n : Nat}
  {N : PlanNews → Prop} {s t u v w : State}

/-! ## The arrival into the replica -/

/-- A slot's part in the removal of a pair (R44, R71). -/
def State.pairGone (holder link : Nat) (i : Fin 16) (s : State) : State × List PlanNews :=
  match s.ownEntry i with
  | some e =>
    if e.waitsFor (holder, link) && !((s.rivals e.span).any fun p => p.holder == holder && p.link == link)
    then s.dropPair (holder, link) i else (s, [])
  | none => (s, [])

theorem State.pairRemoved_eq (holder link : Nat) (s : State) :
    s.pairRemoved holder link = s.overOwns (State.pairGone holder link) := rfl

theorem State.pairGone_idle {link : Nat} (hw : ∀ e, s.ownEntry i = some e → e.waitsFor (h, link) = false) :
    s.pairGone h link i = (s, []) := by
  unfold State.pairGone
  split
  · rename_i e he
    rw [hw e he]
    rfl
  · rfl

theorem State.pairGone_relocates {link : Nat} (ha : s.ownEntry i = some e) :
    Relocates e.link s (s.pairGone h link i).1 ∧ ∀ m ∈ (s.pairGone h link i).2, m.link = e.link := by
  simp only [State.pairGone, ha]
  split
  · exact State.dropPair_relocates ha
  · exact ⟨.refl, by simp⟩

/-- The claim or hold is in the replica, and the pairs that it replaces are out of the pending-yield sets (R39 to R41, R44). -/
def State.stored (isHold : Bool) (h : Nat) (b : PlanBody) (n : Nat) (s : State) : State := (s.storePeer isHold h b n).1

def State.arrivalStored (isHold : Bool) (h : Nat) (b : PlanBody) (n : Nat) (s : State) : State × List PlanNews :=
  if (s.storePeer isHold h b n).2 then (s.stored isHold h b n).pairRemoved h b.link else (s.stored isHold h b n, [])

theorem State.planArrival_eq (isHold : Bool) (h : Nat) (b : PlanBody) (n : Nat) (s : State) :
    s.planArrival isHold h b n = (((s.arrivalStored isHold h b n).1.overOwns (State.testOwn isHold h b n)).1,
      (s.arrivalStored isHold h b n).2 ++ ((s.arrivalStored isHold h b n).1.overOwns (State.testOwn isHold h b n)).2) := rfl

theorem State.stored_frame (isHold : Bool) (h : Nat) (b : PlanBody) (n : Nat) (s : State) :
    s.stored isHold h b n = { s with
      plan := { s.plan with
        peers := (s.stored isHold h b n).plan.peers
        overfull := (s.stored isHold h b n).plan.overfull
        overfullTimer := (s.stored isHold h b n).plan.overfullTimer }
      mgmt := { s.mgmt with counters := (s.stored isHold h b n).mgmt.counters } } ∧
    (s.plan.overfull = true → (s.stored isHold h b n).plan.overfull = true) := by
  unfold State.stored State.storePeer
  dsimp only
  repeat' split
  all_goals first
    | exact ⟨rfl, id⟩
    | exact ⟨rfl, fun _ => rfl⟩

theorem State.stored_own (i : Fin 16) (s : State) : (s.stored isHold h b n).ownEntry i = s.ownEntry i := by
  rw [(State.stored_frame isHold h b n s).1]
  rfl

/-! ## The link's other entries -/

/-- An own entry of a link whose other entries are YIELDING. -/
structure Beset (i : Fin 16) (e : OwnEntry) (s : State) : Prop where
  own    : s.ownEntry i = some e
  held   : e.standing = .held
  others : ∀ (j : Fin 16) (o : OwnEntry), j ≠ i → s.ownEntry j = some o → o.link = e.link → o.standing = .yielding
  one    : ∀ (j k : Fin 16) (o p : OwnEntry), s.ownEntry j = some o → s.ownEntry k = some p → o.link = e.link →
    p.link = e.link → o.standing = .yielding → p.standing = .yielding → j = k

theorem Beset.aside (hb : Beset i e s) (ha : Aside e.link s t) : Beset i e t where
  own := (ha.own i e rfl).2 hb.own
  held := hb.held
  others j o hj ho hl := hb.others j o hj ((ha.own j o hl).1 ho) hl
  one j k o p ho hp hol hpl := hb.one j k o p ((ha.own j o hol).1 ho) ((ha.own k p hpl).1 hp) hol hpl

theorem Beset.idle (hb : Beset i e s) (hj : s.ownEntry j = some o) (hl : o.link = e.link) : o.standing ≠ .tentative := by
  by_cases hij : j = i
  · subst hij
    rw [hb.own] at hj
    cases hj
    rw [hb.held]
    simp
  · rw [hb.others j o hij hj hl]
    simp

theorem Beset.pairGone (hb : Beset i e s) (j : Fin 16) (link : Nat) :
    Aside e.link s (s.pairGone h link j).1 ∧ ∀ m ∈ (s.pairGone h link j).2, m.link ≠ e.link := by
  cases hj : s.ownEntry j with
  | none =>
    rw [State.pairGone_idle fun a ha => by rw [hj] at ha; cases ha]
    exact ⟨.refl _ s, by simp⟩
  | some o =>
    by_cases hl : o.link = e.link
    · rw [State.pairGone_idle fun a ha => ?_]
      · exact ⟨.refl _ s, by simp⟩
      · rw [hj] at ha
        cases ha
        have := hb.idle hj hl
        simp [OwnEntry.waitsFor, this]
    · obtain ⟨h1, h2⟩ := State.pairGone_relocates (h := h) (link := link) hj
      exact ⟨h1.aside fun hh => hl hh.symm, fun m hm => by rw [h2 m hm]; exact hl⟩

theorem State.stored_aside (l : Fin 8) (s : State) (ho : (s.stored isHold h b n).plan.overfull = s.plan.overfull) :
    Aside l s (s.stored isHold h b n) := by
  have hf := (State.stored_frame isHold h b n s).1
  refine ⟨?_, ?_, ?_, ho, fun i e _ => ?_, .inl ?_⟩
  · rw [hf]
  · rw [hf]
  · rw [hf]
  · rw [State.stored_own]
  · rw [hf]
    rfl

theorem Beset.stored (hb : Beset i e s) : Beset i e (s.stored isHold h b n) where
  own := (State.stored_own i s).trans hb.own
  held := hb.held
  others j o hj ho hl := hb.others j o hj ((State.stored_own j s).symm.trans ho) hl
  one j k o p ho hp hol hpl :=
    hb.one j k o p ((State.stored_own j s).symm.trans ho) ((State.stored_own k s).symm.trans hp) hol hpl

theorem Beset.arrivalStored (hb : Beset i e s) :
    Aside e.link (s.stored isHold h b n) (s.arrivalStored isHold h b n).1 ∧
      ∀ m ∈ (s.arrivalStored isHold h b n).2, m.link ≠ e.link := by
  have hs := hb.stored (isHold := isHold) (h := h) (b := b) (n := n)
  unfold State.arrivalStored
  split
  · rw [State.pairRemoved_eq]
    refine State.overOwns_keep (A := fun u => Aside e.link (s.stored isHold h b n) u) (N := fun m => m.link ≠ e.link)
      (.refl _ _) fun j u hu => ?_
    obtain ⟨h1, h2⟩ := (hs.aside hu).pairGone (h := h) j b.link
    exact ⟨hu.trans h1, h2⟩
  · exact ⟨.refl _ _, by simp⟩

/-! ## The tests of the own entries -/

theorem State.announceHold_ne {m : Bool} (hj : j ≠ i) (s : State) : (s.announceHold m i).ownEntry j = s.ownEntry j := by
  unfold State.announceHold
  dsimp only
  split
  · rfl
  · split
    · rw [State.ownEntry_setOwn_ne hj, State.offer_keeps_own]
    · exact State.offer_keeps_own _ j s

theorem State.modOwn_ne {g : OwnEntry → OwnEntry} (hj : j ≠ i) (s : State) : (s.modOwn i g).ownEntry j = s.ownEntry j := by
  unfold State.modOwn
  split
  · exact State.ownEntry_setOwn_ne hj _ s
  · rfl

theorem State.defend_ne (hj : j ≠ i) (s : State) : (s.defend i).ownEntry j = s.ownEntry j := by
  unfold State.defend
  split
  · split
    · exact State.ownEntry_setOwn_ne hj _ s
    · rw [State.modOwn_ne hj]
      unfold State.sendDefence
      split
      · split
        · exact State.announceHold_ne hj s
        · exact State.offer_keeps_own _ j s
        · rfl
      · rfl
  · rfl

theorem State.preempt_ne (hj : j ≠ i) (ho : (s.preempt n i e).1.ownEntry j = some o) : s.ownEntry j = some o := by
  unfold State.preempt at ho
  dsimp only at ho
  split at ho
  · rename_i k a hk
    by_cases hjk : j = k
    · subst hjk
      cases (State.removeOwn_self j _).symm.trans ho
    · have ho' : ((s.setOwn i (some (OwnEntry.preempted (s.after (ms 2000)) e))).removeOwn k).ownEntry j = some o := ho
      rw [State.removeOwn_ne hjk, State.ownEntry_setOwn_ne hj] at ho'
      exact ho'
  · exact (State.ownEntry_setOwn_ne hj _ s).symm.trans ho

/-- The test of a HELD entry. -/
def State.testHeld (isHold : Bool) (h : Nat) (b : PlanBody) (n : Nat) (i : Fin 16) (e : OwnEntry) (s : State) :
    State × List PlanNews :=
  if (b.rank isHold h).outranks (e.rank s) then s.preempt n i e else (s.defend i, [])

theorem State.testOwn_held (he : s.ownEntry i = some e) (hs : e.standing = .held) (hc : s.conflicts e.span b.span = true) :
    s.testOwn isHold h b n i = s.testHeld isHold h b n i e := by
  simp only [State.testOwn, he, hc, hs, if_true]
  rfl

theorem State.testHeld_ne (hj : j ≠ i) (ho : (s.testHeld isHold h b n i e).1.ownEntry j = some o) :
    s.ownEntry j = some o := by
  unfold State.testHeld at ho
  split at ho
  · exact State.preempt_ne hj ho
  · exact (State.defend_ne hj s).symm.trans ho

theorem State.testOwn_yielding (ho : s.ownEntry j = some o) (hs : o.standing = .yielding) :
    s.testOwn isHold h b n j = (s, []) := by
  simp only [State.testOwn, ho, hs]
  split <;> rfl

theorem State.testOwn_none (ho : s.ownEntry j = none) : s.testOwn isHold h b n j = (s, []) := by
  simp only [State.testOwn, ho]

/-- A test of an entry that is not this link's, or is YIELDING. -/
theorem State.testOwn_aside (hl : ∀ o, s.ownEntry j = some o → o.link = l → o.standing = .yielding) :
    Aside l s (s.testOwn isHold h b n j).1 ∧ ∀ m ∈ (s.testOwn isHold h b n j).2, m.link ≠ l := by
  cases hj : s.ownEntry j with
  | none =>
    rw [State.testOwn_none hj]
    exact ⟨.refl _ s, by simp⟩
  | some o =>
    by_cases hol : o.link = l
    · rw [State.testOwn_yielding hj (hl o hj hol)]
      exact ⟨.refl _ s, by simp⟩
    · obtain ⟨h1, h2⟩ := State.testOwn_relocates (isHold := isHold) (h := h) (n := n) (b := b) hj
      exact ⟨h1.aside fun hh => hol hh.symm, fun m hm => by rw [h2 m hm]; exact hol⟩

theorem State.conflicts_congr (hc : t.cfg = s.cfg) (x y : Span) : t.conflicts x y = s.conflicts x y := by
  simp only [State.conflicts, State.guard, State.image, hc]

/-- The tests before the entry's, its own, and those after it. -/
theorem Beset.tested (hb : Beset i e v) (hc : v.conflicts e.span b.span = true) (hv : Aside e.link v s)
    (hN : ∀ m : PlanNews, m.link ≠ e.link → N m)
    (hi : ∀ u, Aside e.link v u → ∀ m ∈ (u.testHeld isHold h b n i e).2, N m) :
    (∃ u, Aside e.link v u ∧ Aside e.link (u.testHeld isHold h b n i e).1 (s.overOwns (State.testOwn isHold h b n)).1) ∧
      ∀ m ∈ (s.overOwns (State.testOwn isHold h b n)).2, N m := by
  refine State.overOwns_turn (f := State.testOwn isHold h b n) (N := N) i (A := fun u => Aside e.link v u)
    (B := fun t => ∃ u, Aside e.link v u ∧ Aside e.link (u.testHeld isHold h b n i e).1 t) hv
    (fun j hj u hu => ?_) (fun u hu => ?_) fun j hj t ht => ?_
  · obtain ⟨g1, g2⟩ := State.testOwn_aside (isHold := isHold) (h := h) (n := n) (b := b) (s := u) (j := j) (l := e.link)
      fun o ho hl => (hb.aside hu).others j o hj ho hl
    exact ⟨hu.trans g1, fun m hm => hN m (g2 m hm)⟩
  · have hbu := hb.aside hu
    rw [State.testOwn_held hbu.own hb.held (by rw [State.conflicts_congr hu.cfg]; exact hc)]
    exact ⟨⟨u, hu, .refl _ _⟩, hi u hu⟩
  · obtain ⟨u, hu, ht⟩ := ht
    obtain ⟨g1, g2⟩ := State.testOwn_aside (isHold := isHold) (h := h) (n := n) (b := b) (s := t) (j := j) (l := e.link)
      fun o ho hl => (hb.aside hu).others j o hj (State.testHeld_ne hj ((ht.own j o hl).1 ho)) hl
    exact ⟨⟨u, hu, ht.trans g1⟩, fun m hm => hN m (g2 m hm)⟩

/-- A claim or hold that conflicts with the entry. -/
theorem Beset.planArrival (hb : Beset i e s) (hc : s.conflicts e.span b.span = true)
    (hN : ∀ m : PlanNews, m.link ≠ e.link → N m)
    (hi : ∀ u, Aside e.link (s.stored isHold h b n) u → ∀ m ∈ (u.testHeld isHold h b n i e).2, N m) :
    (∃ u, Aside e.link (s.stored isHold h b n) u ∧
      Aside e.link (u.testHeld isHold h b n i e).1 (s.planArrival isHold h b n).1) ∧
      ∀ m ∈ (s.planArrival isHold h b n).2, N m := by
  obtain ⟨h1, h2⟩ := hb.arrivalStored (isHold := isHold) (h := h) (b := b) (n := n)
  have hcv : (s.stored isHold h b n).cfg = s.cfg := by rw [(State.stored_frame isHold h b n s).1]
  have key := (hb.stored (isHold := isHold) (h := h) (b := b) (n := n)).tested (isHold := isHold) (h := h) (n := n) (b := b)
    (by rw [State.conflicts_congr hcv]; exact hc) h1 hN hi
  obtain ⟨k1, k2⟩ := key
  have hp := State.planArrival_eq isHold h b n s
  generalize (s.arrivalStored isHold h b n).1.overOwns (State.testOwn isHold h b n) = c at k1 k2 hp
  generalize (s.arrivalStored isHold h b n).2 = ns at h2 hp
  have hp1 : (s.planArrival isHold h b n).1 = c.1 := by rw [hp]
  have hp2 : (s.planArrival isHold h b n).2 = ns ++ c.2 := by rw [hp]
  rw [hp1, hp2]
  exact ⟨k1, fun m hm => (List.mem_append.1 hm).elim (fun hm => hN m (h2 m hm)) (k2 m)⟩

/-! ## A defence -/

/-- A HELD entry that has been defended (R75, R76). -/
def OwnEntry.Defended (now : Nat) (e a : OwnEntry) : Prop :=
  a.standing = .held ∧ a.span = e.span ∧ a.link = e.link ∧
    a.defend = (if e.defend.isSome then e.defend else some (now + 100000)) ∧
    a.owed = (if e.defend.isSome then true else e.owed) ∧ (e.defend.isSome = true → a.cls = e.cls)

theorem State.announceHold_cls {m : Bool} (he : s.ownEntry i = some e) :
    ∃ c, (s.announceHold m i).ownEntry i = some { e with cls := c } := by
  simp only [State.announceHold, he]
  split
  · exact ⟨_, State.ownEntry_setOwn_self _ _ _⟩
  · exact ⟨e.cls, (State.offer_keeps_own _ i s).trans he⟩

theorem State.defend_held (he : s.ownEntry i = some e) (hs : e.standing = .held) :
    ∃ a, (s.defend i).ownEntry i = some a ∧ e.Defended s.now a := by
  simp only [State.defend, he]
  split
  · rename_i hd
    refine ⟨_, State.ownEntry_setOwn_self _ _ _, hs, rfl, rfl, ?_, ?_, fun _ => rfl⟩
    · rw [if_pos hd]
    · rw [if_pos hd]
  · rename_i hd
    obtain ⟨c, hc⟩ := State.announceHold_cls (m := true) he
    have hsend : s.sendDefence i = s.announceHold true i := by simp only [State.sendDefence, he, hs]
    rw [hsend, State.modOwn_of_some hc]
    refine ⟨_, State.ownEntry_setOwn_self _ _ _, hs, rfl, rfl, ?_, ?_, fun h => absurd h hd⟩
    · rw [if_neg hd]
      rfl
    · rw [if_neg hd]

/-- The news of other links only: LSUP's answers leave this link's entries. -/
theorem State.hears_aside : ∀ (ns : List PlanNews) (s : State), (∀ m ∈ ns, m.link ≠ l) → Aside l s (ns.foldl State.hear s) := by
  intro ns
  induction ns with
  | nil => exact fun s _ => .refl l s
  | cons m ns ih =>
    intro s hm
    have h1 : Aside l s (s.hear m) := (State.hear_relocates .refl).aside fun h => hm m List.mem_cons_self h.symm
    exact h1.trans (ih _ fun k hk => hm k (List.mem_cons_of_mem _ hk))

theorem OwnEntry.rank_congr (hc : t.cfg = s.cfg) (e : OwnEntry) : e.rank t = e.rank s := by
  simp only [OwnEntry.rank, State.station_congr hc]

/-- A weaker claim or hold is answered by a defence, whatever it is to other entries (R75). -/
theorem Beset.defended (hb : Beset i e s) (hc : s.conflicts e.span b.span = true)
    (hw : (b.rank isHold h).outranks (e.rank s) = false) :
    ∃ a, (State.withNews (s.planArrival isHold h b n)).ownEntry i = some a ∧ e.Defended s.now a := by
  have hf := (State.stored_frame isHold h b n s).1
  have hcv : (s.stored isHold h b n).cfg = s.cfg := by rw [hf]
  have hnv : (s.stored isHold h b n).now = s.now := by rw [hf]
  have htest (u : State) (hu : Aside e.link (s.stored isHold h b n) u) : u.testHeld isHold h b n i e = (u.defend i, []) := by
    rw [State.testHeld, OwnEntry.rank_congr (hu.cfg.trans hcv), hw]
    rfl
  obtain ⟨⟨u, hu, ht⟩, hn⟩ := hb.planArrival (isHold := isHold) (h := h) (n := n) (N := fun m => m.link ≠ e.link) hc
    (fun _ hm => hm) (fun u hu m hm => by rw [htest u hu] at hm; cases hm)
  rw [htest u hu] at ht
  obtain ⟨a, ha, had⟩ := State.defend_held ((hb.stored (isHold := isHold) (h := h) (b := b) (n := n)).aside hu).own hb.held
  rw [hu.now, hnv] at had
  refine ⟨a, ?_, had⟩
  rw [State.withNews]
  have hal := had.2.2.1
  exact ((ht.trans (State.hears_aside _ _ hn)).own i a hal).2 ha

end Sys2Proof.Machine
end

section
/-! SUPPORT. A HELD entry preempted while its link is not on its span, or is pinned, or while the replica is overfull (R79,
R121, R130). -/

namespace Sys2Proof.Machine

open Says

variable {l : Fin 8} {i j : Fin 16} {a e o : OwnEntry} {x y : LinkRec} {b : PlanBody} {isHold : Bool} {h n : Nat}
  {sp : Span} {m : PlanNews} {s t u v w : State}

/-- An entry of a link that has no other, on which a preemption starts no search. -/
structure Unmoved (i : Fin 16) (e a : OwnEntry) (s : State) : Prop where
  own   : s.ownEntry i = some a
  link  : a.link = e.link
  sole  : ∀ (j : Fin 16) (o : OwnEntry), s.ownEntry j = some o → o.link = e.link → j = i
  phase : s.phase = .active
  idle  : ∀ x : LinkRec, s.link e.link = some x → (x.reloc = none ∧ (x.current ≠ some e.span ∨ x.pinned = true ∨
    s.plan.overfull = true)) ∨ ∃ r, x.reloc = some r ∧ r.phase = .waiting

theorem Unmoved.aside (h : Unmoved i e a s) (ha : Aside e.link s t) : Unmoved i e a t where
  own := (ha.own i a h.link).2 h.own
  link := h.link
  sole j o ho hl := h.sole j o ((ha.own j o hl).1 ho) hl
  phase := ha.phase.trans h.phase
  idle x hx := by
    rw [ha.overfull]
    rcases ha.near with hn | ⟨y, c, hy, hn⟩
    · exact h.idle x (hn.symm.trans hx)
    · rw [hn] at hx
      cases hx
      exact h.idle y hy

theorem Unmoved.of_link (h : Unmoved i e a s) (hp : t.plan = s.plan) (ha : t.phase = s.phase)
    (hi : ∀ x : LinkRec, t.link e.link = some x → (x.reloc = none ∧ (x.current ≠ some e.span ∨ x.pinned = true ∨
      s.plan.overfull = true)) ∨ ∃ r, x.reloc = some r ∧ r.phase = .waiting) : Unmoved i e a t where
  own := by
    rw [State.ownEntry, hp]
    exact h.own
  link := h.link
  sole j o ho hl := h.sole j o (by rw [State.ownEntry, hp] at ho; exact ho) hl
  phase := ha.trans h.phase
  idle := by
    rw [hp]
    exact hi

theorem Unmoved.leaveSpan (h : Unmoved i e a s) (sp : Span) : Unmoved i e a (s.leaveSpan e.link sp) := by
  unfold State.leaveSpan
  refine h.of_link (State.modLink_plan _ _ s) (by rw [State.modLink_frame]) fun x hx => ?_
  cases hy : s.link e.link with
  | none =>
    rw [State.modLink_of_none hy, hy] at hx
    cases hx
  | some y =>
    rw [State.link_modLink_self hy] at hx
    cases hx
    split
    · exact (h.idle y hy).imp (fun hr => ⟨hr.1, .inl (by simp)⟩) id
    · exact h.idle y hy

theorem Unmoved.hearPreempted (h : Unmoved i e a s) : Unmoved i e a (s.hearPreempted e.link e.span) := by
  unfold State.hearPreempted
  split
  · exact h
  · rename_i x hx
    rcases h.idle x hx with ⟨hr, hc⟩ | ⟨r, hr, hp⟩
    · rw [hr]
      dsimp only
      split
      · rename_i hcp
        have ho : s.plan.overfull = true := by
          rcases hc with hc | hc | hc
          · exact absurd hcp.1 hc
          · rw [hcp.2] at hc
            cases hc
          · exact hc
        rw [State.startReloc_full hx h.phase hr ho (by simp)]
        refine h.of_link rfl rfl fun y hy => .inr ?_
        rw [State.link_setLink_self] at hy
        cases hy
        exact ⟨_, rfl, rfl⟩
      · exact h
    · rw [hr]
      simp only [hp]
      exact h

/-- LSUP's answers to the reports of a preemption. -/
theorem Unmoved.hears : ∀ (ns : List PlanNews) {s : State}, Unmoved i e a s →
    (∀ m ∈ ns, m.link ≠ e.link ∨ m.report = .yielded ∨ m.report = .preempted ∧ m.span = e.span) →
    Unmoved i e a (ns.foldl State.hear s) := by
  intro ns
  induction ns with
  | nil => exact fun h _ => h
  | cons m ns ih =>
    intro s h hm
    refine ih ?_ fun k hk => hm k (List.mem_cons_of_mem _ hk)
    by_cases hl : m.link = e.link
    · rcases hm m List.mem_cons_self with hn | hn | ⟨hn, hs⟩
      · exact absurd hl hn
      · rw [State.hear, hn, hl]
        exact h.leaveSpan m.span
      · rw [State.hear, hn, hl, hs]
        exact h.hearPreempted
    · exact h.aside ((State.hear_relocates .refl).aside fun hh => hl hh.symm)

/-! ## The preemption -/

theorem State.preempt_none (ho : s.olderYielding i e.link = none) : s.preempt n i e =
    ((s.setOwn i (some (preempted e s))).count .planPreempted (some n),
      [{ report := .preempted, link := e.link, span := e.span }]) := by
  simp only [State.preempt, ho]
  rfl

theorem State.preempt_some (ho : s.olderYielding i e.link = some (j, o)) : s.preempt n i e =
    (((s.setOwn i (some (preempted e s))).removeOwn j).count .planPreempted (some n),
      [{ report := .yielded, link := o.link, span := o.span }, { report := .preempted, link := e.link, span := e.span }]) := by
  simp only [State.preempt, ho]
  rfl

theorem State.preempt_news (m : PlanNews) (hm : m ∈ (s.preempt n i e).2) :
    m.link ≠ e.link ∨ m.report = .yielded ∨ m.report = .preempted ∧ m.span = e.span := by
  cases ho : s.olderYielding i e.link with
  | none =>
    rw [State.preempt_none ho] at hm
    rw [List.mem_singleton.1 hm]
    exact .inr (.inr ⟨rfl, rfl⟩)
  | some c =>
    obtain ⟨j, o⟩ := c
    rw [State.preempt_some ho] at hm
    simp only [List.mem_cons, List.not_mem_nil, or_false] at hm
    rcases hm with rfl | rfl
    · exact .inr (.inl rfl)
    · exact .inr (.inr ⟨rfl, rfl⟩)

theorem State.preempt_near (k : Fin 8) : linkNear k s (s.preempt n i e).1 := by
  cases ho : s.olderYielding i e.link with
  | none =>
    rw [State.preempt_none ho]
    exact .inl rfl
  | some c =>
    obtain ⟨j, o⟩ := c
    rw [State.preempt_some ho]
    exact State.removeOwn_near j k (s.setOwn i (some (preempted e s)))

/-- The own table after a preemption. -/
theorem Beset.preempt (hb : Beset i e s) : (s.preempt n i e).1.ownEntry i = some (preempted e s) ∧
    ∀ (j : Fin 16) (o : OwnEntry), (s.preempt n i e).1.ownEntry j = some o → o.link = e.link → j = i := by
  cases ho : s.olderYielding i e.link with
  | none =>
    rw [State.preempt_none ho]
    refine ⟨State.ownEntry_setOwn_self _ _ _, fun j o hj hl => ?_⟩
    by_contra hji
    have hj' : s.ownEntry j = some o := (State.ownEntry_setOwn_ne hji _ s).symm.trans hj
    exact State.olderYielding_none ho hji hj' hl (hb.others j o hji hj' hl)
  | some c =>
    obtain ⟨k, p⟩ := c
    obtain ⟨hk, hp, hpl, hps⟩ := State.olderYielding_some ho
    rw [State.preempt_some ho]
    refine ⟨(State.removeOwn_ne hk.symm _).trans (State.ownEntry_setOwn_self _ _ _), fun j o hj hl => ?_⟩
    by_contra hji
    have hjk : j ≠ k := by
      rintro rfl
      cases (State.removeOwn_self j _).symm.trans hj
    have hj' : s.ownEntry j = some o :=
      (State.ownEntry_setOwn_ne hji _ s).symm.trans ((State.removeOwn_ne hjk _).symm.trans hj)
    exact hjk (hb.one j k o p hj' hp hl hpl (hb.others j o hji hj' hl) hps)

/-- A stronger claim or hold makes the entry YIELDING, the only one of its link, whatever it is to other entries (R79). -/
theorem Beset.preempted (hb : Beset i e s) (hc : s.conflicts e.span b.span = true) (ha : s.phase = .active)
    (hw : (b.rank isHold h).outranks (e.rank s) = true) (hr : s.reloc e.link = none)
    (hx : ∀ x : LinkRec, s.link e.link = some x → x.current ≠ some e.span ∨ x.pinned = true ∨ s.plan.overfull = true) :
    Unmoved i e (Says.preempted e s) (State.withNews (s.planArrival isHold h b n)) := by
  obtain ⟨hf, hfull⟩ := State.stored_frame isHold h b n s
  have hv : (s.stored isHold h b n).cfg = s.cfg ∧ (s.stored isHold h b n).now = s.now ∧
      (s.stored isHold h b n).phase = s.phase ∧ (s.stored isHold h b n).lsup = s.lsup := by
    rw [hf]
    exact ⟨rfl, rfl, rfl, rfl⟩
  obtain ⟨hcv, hnv, hpv, hlv⟩ := hv
  have hs := hb.stored (isHold := isHold) (h := h) (b := b) (n := n)
  have htest (u : State) (hu : Aside e.link (s.stored isHold h b n) u) : u.testHeld isHold h b n i e = u.preempt n i e := by
    rw [State.testHeld, OwnEntry.rank_congr (hu.cfg.trans hcv), hw]
    rfl
  obtain ⟨⟨u, hu, ht⟩, hn⟩ := hb.planArrival (isHold := isHold) (h := h) (n := n)
    (N := fun m => m.link ≠ e.link ∨ m.report = .yielded ∨ m.report = .preempted ∧ m.span = e.span) hc
    (fun _ hm => .inl hm) (fun u hu m hm => State.preempt_news m (htest u hu ▸ hm))
  rw [htest u hu] at ht
  obtain ⟨h1, h2⟩ := (hs.aside hu).preempt (n := n)
  have hpre : Says.preempted e u = Says.preempted e s := by
    simp only [Says.preempted, hu.now, hnv]
  have hrel := State.preempt_relocates (n := n) (hs.aside hu).own
  have hnear : linkNear e.link s (u.preempt n i e).1 := by
    refine linkNear.trans (t := u) (linkNear.trans (.of_eq ?_) hu.near) ?_
    · rw [State.link, hlv]
      rfl
    · exact State.preempt_near e.link
  rw [State.withNews]
  refine Unmoved.hears _ (Unmoved.aside ⟨h1.trans (by rw [hpre]), rfl, h2, ?_, fun x hx' => .inl ?_⟩ ht) hn
  · obtain ⟨hst, -⟩ := hrel.1.moves.station
    exact (stationKept.phase hst).trans (hu.phase.trans (hpv.trans ha))
  · have hov : s.plan.overfull = true → (u.preempt n i e).1.plan.overfull = true := fun ho => by
      rw [hrel.1.overfull, hu.overfull]
      exact hfull ho
    rcases hnear with hn | ⟨y, c, hy, hn⟩
    · have hxs := hn.symm.trans hx'
      exact ⟨(State.reloc_eq hxs).symm.trans hr, (hx x hxs).imp_right (Or.imp_right hov)⟩
    · rw [hn] at hx'
      cases hx'
      exact ⟨(State.reloc_eq hy).symm.trans hr, (hx y hy).imp_right (Or.imp_right hov)⟩

end Sys2Proof.Machine
end

section
/-! SUPPORT. A claim or hold that concerns one own entry alone (R68 to R71, R75, R79). -/

namespace Sys2Proof.Machine

open Says

variable {l k : Fin 8} {i j : Fin 16} {e o : OwnEntry} {x y : LinkRec} {b : PlanBody} {isHold : Bool} {h n c : Nat}
  {sp : Span} {a s t u v w : State}

/-! ## One entry alone -/

/-- An own entry beside which every other is YIELDING, or neither conflicts with the arrival nor waits for its pair; and
which itself does not wait for a pair that the arrival replaces. -/
structure Lone (i : Fin 16) (e : OwnEntry) (h : Nat) (b : PlanBody) (s : State) : Prop where
  own    : s.ownEntry i = some e
  others : ∀ (j : Fin 16) (o : OwnEntry), j ≠ i → s.ownEntry j = some o →
    o.standing = .yielding ∨ s.conflicts o.span b.span = false ∧ (h, b.link) ∉ o.pendingYield
  stays  : e.waitsFor (h, b.link) = false ∨ (s.peerSlot h b.link b.span).isSome = true

theorem OwnEntry.waitsFor_not_mem {pair : Nat × Nat} (hp : pair ∉ e.pendingYield) : e.waitsFor pair = false := by
  simp [OwnEntry.waitsFor, hp]

theorem OwnEntry.waitsFor_standing {pair : Nat × Nat} (hs : e.standing ≠ .tentative) : e.waitsFor pair = false := by
  simp [OwnEntry.waitsFor, hs]

theorem Lone.idle (hl : Lone i e h b s) (hj : j ≠ i) (ho : s.ownEntry j = some o) : o.waitsFor (h, b.link) = false := by
  rcases hl.others j o hj ho with hy | ⟨-, hp⟩
  · exact OwnEntry.waitsFor_standing (by rw [hy]; simp)
  · exact OwnEntry.waitsFor_not_mem hp

theorem Lone.arrivalStored (hl : Lone i e h b s) : s.arrivalStored isHold h b n = (s.stored isHold h b n, []) := by
  unfold State.arrivalStored
  split
  · rename_i hs
    rw [State.pairRemoved_eq]
    refine State.overOwns_idle fun j => State.pairGone_idle fun o ho => ?_
    rw [State.stored_own] at ho
    by_cases hj : j = i
    · subst hj
      rw [hl.own] at ho
      cases ho
      refine hl.stays.resolve_right fun hp => ?_
      obtain ⟨m, hm⟩ := Option.isSome_iff_exists.1 hp
      simp only [State.storePeer, hm] at hs
      cases hs
    · exact hl.idle hj ho
  · rfl

/-- A weaker hold has joined its pair to an entry's pending-yield set (R70). -/
def State.pairJoined (isHold : Bool) (h : Nat) (b : PlanBody) (i : Fin 16) (e : OwnEntry) (s : State) : State :=
  if isHold then s.setOwn i (some (e.addPair (h, b.link))) else s

/-- The test of a TENTATIVE entry (R68 to R70). -/
def State.testTentative (isHold : Bool) (h : Nat) (b : PlanBody) (n : Nat) (i : Fin 16) (e : OwnEntry) (s : State) :
    State × List PlanNews :=
  if (b.rank isHold h).outranks (e.rank s) then s.claimLost n i e
  else (if e.sent then (s.pairJoined isHold h b i e).defend i else s.pairJoined isHold h b i e, [])

theorem State.testOwn_tentative (he : s.ownEntry i = some e) (hs : e.standing = .tentative)
    (hc : s.conflicts e.span b.span = true) : s.testOwn isHold h b n i = s.testTentative isHold h b n i e := by
  simp only [State.testOwn, he, hc, hs, if_true]
  rfl

theorem State.pairJoined_ne (hj : j ≠ i) (s : State) : (s.pairJoined isHold h b i e).ownEntry j = s.ownEntry j := by
  unfold State.pairJoined
  split
  · exact State.ownEntry_setOwn_ne hj _ s
  · rfl

theorem State.testTentative_ne (hj : j ≠ i) (ho : (s.testTentative isHold h b n i e).1.ownEntry j = some o) :
    s.ownEntry j = some o := by
  unfold State.testTentative at ho
  split at ho
  · exact (State.removeOwn_ne hj s).symm.trans ho
  · dsimp only at ho
    split at ho
    · rw [State.defend_ne hj, State.pairJoined_ne hj] at ho
      exact ho
    · rw [State.pairJoined_ne hj] at ho
      exact ho

theorem State.testOwn_ne (hj : j ≠ i) (ho : (s.testOwn isHold h b n i).1.ownEntry j = some o) : s.ownEntry j = some o := by
  cases he : s.ownEntry i with
  | none =>
    rw [State.testOwn_none he] at ho
    exact ho
  | some e =>
    cases hc : s.conflicts e.span b.span with
    | false =>
      rw [State.testOwn, he] at ho
      simp only [hc] at ho
      exact ho
    | true =>
      cases hs : e.standing with
      | tentative => exact State.testTentative_ne hj (State.testOwn_tentative he hs hc ▸ ho)
      | held => exact State.testHeld_ne hj (State.testOwn_held he hs hc ▸ ho)
      | yielding =>
        rw [State.testOwn_yielding he hs] at ho
        exact ho

theorem State.testOwn_apart (ho : s.ownEntry j = some o) (hc : s.conflicts o.span b.span = false) :
    s.testOwn isHold h b n j = (s, []) := by
  simp only [State.testOwn, ho, hc]
  rfl

/-- The arrival is that entry's alone. -/
theorem Lone.planArrival (hl : Lone i e h b s) :
    s.planArrival isHold h b n = (s.stored isHold h b n).testOwn isHold h b n i := by
  have hcv : (s.stored isHold h b n).cfg = s.cfg := by rw [(State.stored_frame isHold h b n s).1]
  have hown (j : Fin 16) : (s.stored isHold h b n).ownEntry j = s.ownEntry j := State.stored_own j s
  have hp := State.planArrival_eq isHold h b n s
  rw [hl.arrivalStored] at hp
  rw [hp]
  generalize s.stored isHold h b n = v at hcv hown
  have hidle (t : State) (hc : t.cfg = s.cfg) (ht : ∀ (j : Fin 16) (o : OwnEntry), j ≠ i → t.ownEntry j = some o →
      s.ownEntry j = some o) (j : Fin 16) (hj : j ≠ i) : t.testOwn isHold h b n j = (t, []) := by
    cases ho : t.ownEntry j with
    | none => exact State.testOwn_none ho
    | some o =>
      rcases hl.others j o hj (ht j o hj ho) with hy | ⟨hn, -⟩
      · exact State.testOwn_yielding ho hy
      · exact State.testOwn_apart ho (by rw [State.conflicts_congr hc]; exact hn)
  have hcfg : (v.testOwn isHold h b n i).1.cfg = v.cfg :=
    (State.testOwn_moves (b := isHold) (n := h) (m := n) (x := b) (i := i) (Moves.refl (s := v))).beside.cfg
  rw [State.overOwns_single i (hidle v hcv fun j o _ ho => (hown j).symm.trans ho)
    (hidle _ (hcfg.trans hcv) fun j o hj ho => (hown j).symm.trans (State.testOwn_ne hj ho))]
  rfl

/-! ## The table it leaves -/

/-- A state with the table of another, some offers having been made. -/
structure AsTable (c : Nat) (a s w : State) : Prop where
  plan     : w.plan = a.plan
  station  : stationKept s w
  now      : w.now = s.now
  near     : ∀ k, linkNear k s w
  rport    : w.rport = s.rport
  tally    : w.tally = s.tally
  tbk      : w.tbk = s.tbk
  longTask : w.mgmt.longTask = s.mgmt.longTask
  line     : s.biu.LineRight → w.biu.LineRight
  room     : w.biu.queue.length ≤ s.biu.queue.length + c
  lsup     : s.biu.queue.length + c ≤ 16 → w.lsup = s.lsup

/-- The replica and the rest of the plan are the same whatever the queue holds. -/
theorem State.stored_plan_congr {x : Biu} {m : Mgmt} (k : Nat) :
    (State.stored isHold h b n { s with biu := x, mgmt := m }).plan = (s.storePeer isHold h b k).1.plan := by
  have h1 : State.peerSlot { s with biu := x, mgmt := m } h b.link b.span = s.peerSlot h b.link b.span := rfl
  have h2 : State.holderSlots { s with biu := x, mgmt := m } h b.link = s.holderSlots h b.link := rfl
  have h3 : State.emptyPeer { s with biu := x, mgmt := m } = s.emptyPeer := rfl
  unfold State.stored State.storePeer
  rw [h1, h2, h3]
  dsimp only
  repeat' split
  all_goals rfl

theorem State.stored_asTable {x : Biu} {m : Mgmt} (k : Nat) (hq : x.queue = s.biu.queue) (hn : x.nextAge = s.biu.nextAge)
    (hm : m.longTask = s.mgmt.longTask) :
    AsTable 0 (s.storePeer isHold h b k).1 s (State.stored isHold h b n { s with biu := x, mgmt := m }) := by
  have hf := (State.stored_frame isHold h b n { s with biu := x, mgmt := m }).1
  have hp := State.stored_plan_congr (isHold := isHold) (h := h) (b := b) (n := n) (s := s) (x := x) (m := m) k
  generalize State.stored isHold h b n { s with biu := x, mgmt := m } = v at hf hp
  refine ⟨hp, ?_, ?_, fun k => .inl ?_, ?_, ?_, ?_, ?_, fun hl => ?_, ?_, fun _ => ?_⟩
  · rw [hf]
    exact ⟨rfl, rfl, rfl, rfl, rfl, rfl⟩
  · rw [hf]
  · rw [hf]
    rfl
  · rw [hf]
  · rw [hf]
  · rw [hf]
  · rw [hf]
    exact hm
  · rw [hf]
    unfold Biu.LineRight at hl ⊢
    rw [hq, hn]
    exact hl
  · rw [hf]
    exact Nat.le_of_eq (congrArg List.length hq)
  · rw [hf]

theorem AsTable.setOwn (h : AsTable c a s w) (i : Fin 16) (e : Option OwnEntry) :
    AsTable c (a.setOwn i e) s (w.setOwn i e) where
  plan := by rw [State.setOwn, State.setOwn, h.plan]
  station := h.station.trans ⟨rfl, rfl, rfl, rfl, rfl, rfl⟩
  now := h.now
  near := h.near
  rport := h.rport
  tally := h.tally
  tbk := h.tbk
  longTask := h.longTask
  line := h.line
  room := h.room
  lsup := h.lsup

theorem AsTable.count (h : AsTable c a s w) (ev : Event) (n : Option Nat) : AsTable c a s (w.count ev n) :=
  ⟨h.plan, h.station, h.now, h.near, h.rport, h.tally, h.tbk, h.longTask, h.line, h.room, h.lsup⟩

theorem AsTable.offered (h : AsTable c a s w) (o : Offer) : AsTable (c + 1) a s (w.offered o) := by
  have ho := State.offer_offered o w
  refine ⟨(State.offered_plan o w).trans h.plan, h.station.trans (State.offer_stationKept o w), ho.now.trans h.now,
    fun k => (h.near k).trans (ho.near k), ?_, ?_, ?_, ?_, fun hl => State.offer_line o (h.line hl), ?_, fun hq => ?_⟩
  · rw [State.offered, ho.eq]
    exact h.rport
  · rw [State.offered, ho.eq]
    exact h.tally
  · rw [State.offered, ho.eq]
    exact h.tbk
  · rw [State.offered_longTask]
    exact h.longTask
  · exact Nat.le_trans (State.offer_length o w) (Nat.succ_le_succ h.room)
  · have hw : w.biu.queue.length < 16 := Nat.lt_of_le_of_lt h.room (by omega)
    rw [State.offered, ho.room hw]
    exact h.lsup (by omega)

theorem State.removeOwn_of_some (he : s.ownEntry i = some e) : s.removeOwn i = (s.setOwn i none).offered e.yieldOffer := by
  simp only [State.removeOwn, he]

theorem AsTable.removeOwn (h : AsTable c a s w) (he : w.ownEntry i = some e) :
    AsTable (c + 1) (a.setOwn i none) s (w.removeOwn i) := by
  rw [State.removeOwn_of_some he]
  exact (h.setOwn i none).offered e.yieldOffer

theorem AsTable.link (h : AsTable c a s w) (hx : s.link l = some x) :
    ∃ b, w.link l = some { x with announcedBad := b } := (h.near l).some hx

theorem AsTable.cfg (h : AsTable c a s w) : w.cfg = s.cfg := stationKept.cfg h.station

theorem AsTable.phase (h : AsTable c a s w) : w.phase = s.phase := stationKept.phase h.station

theorem AsTable.effectiveClass (h : AsTable c a s w) (l : Fin 8) : w.effectiveClass l = s.effectiveClass l := by
  unfold State.effectiveClass
  rw [h.tally]
  rcases h.near l with hn | ⟨y, d, hy, hn⟩
  · rw [hn]
  · rw [hn, hy]

/-! ## What a search reads -/

theorem State.searchStart_congr (hp : t.plan = s.plan) (hc : t.cfg = s.cfg) (d : LinkDesc) (p : Nat) (ex : List Span) :
    t.searchStart d p ex = s.searchStart d p ex := by
  have h1 : t.planSpans = s.planSpans := by simp only [State.planSpans, State.owns, State.peers, hp]
  have h2 (sp : Span) : t.intermodConflict sp = s.intermodConflict sp := by
    simp only [State.intermodConflict, State.centres, State.image, hc, h1]
  have h3 : t.acceptable ex = s.acceptable ex := by
    funext sp
    simp only [State.acceptable, h1, h2, hp, funext fun x => State.conflicts_congr hc x sp]
  simp only [State.searchStart, h3, hp]

theorem State.emptyOwn_congr (hp : t.plan = s.plan) : t.emptyOwn = s.emptyOwn := by
  simp only [State.emptyOwn, State.ownEntry, hp]

end Sys2Proof.Machine
end

section
/-! SUPPORT. The relocation of a link that is preempted on its current span (R79, R118 to R122, R127, R130). -/

namespace Sys2Proof.Machine

open Says

variable {l : Fin 8} {i j k : Fin 16} {e o : OwnEntry} {x y : LinkRec} {r : Reloc} {b : PlanBody} {isHold : Bool} {h n c : Nat}
  {cause : Cause} {sp : Span} {rx : Rx} {a s t u v w : State}

/-! ## A search that finds nothing, or must wait -/

theorem State.enterSearch_full (hx : s.link l = some x) (hr : x.reloc = some r) (ho : s.plan.overfull = true)
    (hc : r.cause = .taskPin → r.cand.isSome = true) :
    s.enterSearch l = s.setLink l { x with reloc := some r.wait } := by
  have hask : (s.setLink l { x with reloc := some { r with phase := .search } }).askPlan l
      { x with reloc := some { r with phase := .search } } { r with phase := .search } = .full := State.askPlan_full ho hc
  rw [State.enterSearch, State.modReloc_of_some hx hr, State.searchRun_full (State.link_setLink_self l _ s) rfl hask,
    State.modReloc_of_some (State.link_setLink_self l _ s) rfl, State.setLink_setLink]
  rfl

theorem State.enterSearch_none (hx : s.link l = some x) (hr : x.reloc = some r) (hc : r.cause ≠ .taskPin)
    (hs : s.searchStart x.desc x.pointer r.excluded = .none) :
    s.enterSearch l = (s.setLink l { x with reloc := some { r with phase := .search } }).relocFail l .noCandidate false := by
  have hask : (s.setLink l { x with reloc := some { r with phase := .search } }).askPlan l
      { x with reloc := some { r with phase := .search } } { r with phase := .search } = .none := by
    unfold State.askPlan
    rw [if_neg hc]
    exact hs
  rw [State.enterSearch, State.modReloc_of_some hx hr, State.searchRun_none (State.link_setLink_self l _ s) rfl hask,
    Reloc.noWay, if_neg hc]

theorem State.startReloc_none {cause : Cause} {task override : Bool} (hx : s.link l = some x) (ha : s.phase = .active)
    (hr : x.reloc = none) (hc : cause ≠ .taskPin) (hs : s.searchStart x.desc x.pointer [] = .none) :
    s.startReloc l cause none task override =
      (s.setLink l (x.starting (started cause x none task override))).relocFail l .noCandidate false := by
  rw [State.startReloc_eq hx ha hr,
    State.enterSearch_none (State.link_setLink_self l (x.starting (started cause x none task override)) s) rfl hc hs,
    State.setLink_setLink]
  rfl

/-! ## The preemption -/

theorem State.setLink_self (hx : s.link l = some x) : s.setLink l x = s := by
  have hv : s.lsup.links.set l (some x) = s.lsup.links := by
    have hx' : s.lsup.links[l] = some x := hx
    rw [← hx']
    exact Vector.set_getElem_self _
  rw [State.setLink, hv]

theorem State.leaveSpan_other (hx : s.link l = some x) (hc : x.current ≠ some sp) : s.leaveSpan l sp = s := by
  rw [State.leaveSpan, State.modLink_of_some hx, if_neg hc, State.setLink_self hx]

theorem AsTable.succ (h : AsTable c a s w) : AsTable (c + 1) a s w :=
  ⟨h.plan, h.station, h.now, h.near, h.rport, h.tally, h.tbk, h.longTask, h.line, Nat.le_succ_of_le h.room,
    fun hq => h.lsup (by omega)⟩

theorem State.olderYielding_congr (ho : t.ownEntry = s.ownEntry) : t.olderYielding i l = s.olderYielding i l := by
  simp only [State.olderYielding, ho]

theorem State.hearPreempted_starts (hx : s.link l = some x) (hr : x.reloc = none) (hc : x.current = some sp)
    (hp : x.pinned = false) : s.hearPreempted l sp = s.startReloc l .preempted none false false := by
  simp only [State.hearPreempted, hx, hr]
  rw [if_pos ⟨hc, hp⟩]

/-- No two own entries conflict where one entry's span is not empty: no other has that span. -/
theorem State.OwnLaw.span_ne (hl : s.OwnLaw) (he : s.ownEntry i = some e) (ho : s.ownEntry j = some o) (hij : i ≠ j)
    (hs : e.span.low ≤ e.span.high) : o.span ≠ e.span := by
  intro h
  obtain ⟨-, -, hconf⟩ := hl
  refine hij (hconf i j e o he ho ?_)
  rw [h]
  exact (conflictsHard_iff _ _ _).2 ⟨rfl, Nat.le_trans hs (Nat.le_add_right _ _), Nat.le_trans hs (Nat.le_add_right _ _)⟩

/-- A preempted link on its current span starts a relocation in the table that the preemption leaves. -/
theorem Lone.preempted_starts {q : Biu} {m : Mgmt} (hl : Lone i e rx.origin.toNat b s) (hs : e.standing = .held)
    (hc : s.conflicts e.span b.span = true) (hw : (b.rank isHold rx.origin.toNat).outranks (e.rank s) = true)
    (hx : s.link e.link = some x) (hr : x.reloc = none) (hcur : x.current = some e.span) (hp : x.pinned = false)
    (hlaw : s.OwnLaw) (hne : e.span.low ≤ e.span.high) (hq : q.queue = s.biu.queue) (hna : q.nextAge = s.biu.nextAge)
    (hm : m.longTask = s.mgmt.longTask) :
    ∃ w, AsTable 1 (afterPreemption isHold rx b i e s) s w ∧
      State.planned isHold rx b { s with biu := q, mgmt := m } = w.startReloc e.link .preempted none false false := by
  have hlu : Lone i e rx.origin.toNat b { s with biu := q, mgmt := m } := ⟨hl.own, hl.others, hl.stays⟩
  have htab := State.stored_asTable (isHold := isHold) (h := rx.origin.toNat) (b := b)
    (n := (rx.bulletin (planKind isHold)).length) (7 + rx.body.length) hq hna hm
  have hplan := hlu.planArrival (isHold := isHold) (n := (rx.bulletin (planKind isHold)).length)
  rw [State.planned, hplan]
  have hown (j : Fin 16) : (State.stored isHold rx.origin.toNat b (rx.bulletin (planKind isHold)).length
      { s with biu := q, mgmt := m }).ownEntry j = s.ownEntry j := State.stored_own j _
  generalize State.stored isHold rx.origin.toNat b (rx.bulletin (planKind isHold)).length { s with biu := q, mgmt := m } = v
    at htab hown
  have hold : v.olderYielding i e.link = s.olderYielding i e.link := State.olderYielding_congr (funext hown)
  have hpre : preempted e v = preempted e s := by simp only [preempted, htab.now]
  rw [State.testOwn_held ((hown i).trans hl.own) hs (by rw [State.conflicts_congr htab.cfg]; exact hc), State.testHeld,
    OwnEntry.rank_congr htab.cfg, hw, if_pos rfl]
  cases ho : s.olderYielding i e.link with
  | none =>
    rw [State.preempt_none (hold.trans ho), hpre]
    have hafter : afterPreemption isHold rx b i e s =
        (s.storePeer isHold rx.origin.toNat b (7 + rx.body.length)).1.setOwn i (some (preempted e s)) := by
      simp only [afterPreemption, ho]
    have htab' := ((htab.setOwn i (some (preempted e s))).count .planPreempted
      (some (rx.bulletin (planKind isHold)).length)).succ
    rw [← hafter] at htab'
    obtain ⟨d, hd⟩ := htab'.link hx
    exact ⟨_, htab', State.hearPreempted_starts hd hr hcur hp⟩
  | some p =>
    obtain ⟨j, o⟩ := p
    obtain ⟨hji, hj, hol, -⟩ := State.olderYielding_some ho
    rw [State.preempt_some (hold.trans ho), hpre]
    have hafter : afterPreemption isHold rx b i e s = ((s.storePeer isHold rx.origin.toNat b (7 + rx.body.length)).1.setOwn i
        (some (preempted e s))).setOwn j none := by
      simp only [afterPreemption, ho]
    have htab' := ((htab.setOwn i (some (preempted e s))).removeOwn (e := o)
      ((State.ownEntry_setOwn_ne hji _ v).trans ((hown j).trans hj))).count .planPreempted
        (some (rx.bulletin (planKind isHold)).length)
    rw [← hafter] at htab'
    obtain ⟨d, hd⟩ := htab'.link hx
    refine ⟨_, htab', ?_⟩
    have hleave := State.leaveSpan_other (sp := o.span) hd
      (by rw [hcur]; simpa using (hlaw.span_ne hl.own hj hji.symm hne).symm)
    have hstart := State.hearPreempted_starts hd hr hcur hp
    generalize ((v.setOwn i (some (preempted e s))).removeOwn j).count .planPreempted
      (some (rx.bulletin (planKind isHold)).length) = w at hleave hstart
    rw [← hstart]
    simp only [State.withNews, List.foldl_cons, List.foldl_nil, State.hear, hol]
    rw [hleave]

end Sys2Proof.Machine
end

section
/-! SUPPORT. What the relocation of a preempted link comes to (R79, R118 to R122, R127, R128). -/

namespace Sys2Proof.Machine

open Says

variable {l : Fin 8} {i j k : Fin 16} {e o : OwnEntry} {x y : LinkRec} {r : Reloc} {b : PlanBody} {isHold : Bool} {h n c : Nat}
  {cause : Cause} {sp : Span} {rx : Rx} {a s t u v w : State}

/-! ## The own entries of one link -/

/-- A link has one own entry at most. -/
def State.ownsOne (l : Fin 8) (s : State) : Prop :=
  ∀ (j k : Fin 16) (o p : OwnEntry), s.ownEntry j = some o → s.ownEntry k = some p → o.link = l → p.link = l → j = k

theorem filterMap_length_le_one {α β : Type} {f : α → Option β} : ∀ is : List α, is.Nodup →
    (∀ j ∈ is, ∀ k ∈ is, (f j).isSome = true → (f k).isSome = true → j = k) → (is.filterMap f).length ≤ 1 := by
  intro is
  induction is with
  | nil => exact fun _ _ => Nat.zero_le 1
  | cons j is ih =>
    intro hd h
    obtain ⟨hj, hd⟩ := List.nodup_cons.1 hd
    cases hf : f j with
    | none =>
      rw [List.filterMap_cons_none hf]
      exact ih hd fun k hk m hm => h k (List.mem_cons_of_mem _ hk) m (List.mem_cons_of_mem _ hm)
    | some a =>
      have hrest : is.filterMap f = [] := by
        rw [List.filterMap_eq_nil_iff]
        intro k hk
        by_contra hn
        have := h j List.mem_cons_self k (List.mem_cons_of_mem _ hk) (by rw [hf]; rfl) (Option.isSome_iff_ne_none.2 hn)
        exact hj (this ▸ hk)
      rw [List.filterMap_cons_some hf, hrest]
      exact Nat.le_refl 1

theorem State.ownsOne.length (h : s.ownsOne l) : (s.owns.filter fun e => e.link == l).length ≤ 1 := by
  have ho : s.owns = (List.finRange 16).filterMap s.ownEntry := by
    rw [State.owns, ← finRange_map_getElem, List.filterMap_map]
    rfl
  rw [ho, List.filter_filterMap]
  refine filterMap_length_le_one _ (List.nodup_finRange 16) fun j _ k _ hj hk => ?_
  obtain ⟨o, ho⟩ := Option.isSome_iff_exists.1 hj
  obtain ⟨p, hp⟩ := Option.isSome_iff_exists.1 hk
  obtain ⟨ho, hol⟩ := Option.filter_eq_some_iff.1 ho
  obtain ⟨hp, hpl⟩ := Option.filter_eq_some_iff.1 hp
  exact h j k o p ho hp (by simpa using hol) (by simpa using hpl)

theorem afterPreemption_own (rx : Rx) (b : PlanBody) (j : Fin 16) :
    (afterPreemption isHold rx b i e s).ownEntry j = (s.preempt n i e).1.ownEntry j := by
  have hst (j : Fin 16) := State.stored_own (isHold := isHold) (h := rx.origin.toNat) (b := b) (n := 7 + rx.body.length) j s
  have hset (j : Fin 16) : ((s.storePeer isHold rx.origin.toNat b (7 + rx.body.length)).1.setOwn i
      (some (preempted e s))).ownEntry j = (s.setOwn i (some (preempted e s))).ownEntry j := by
    by_cases hj : j = i
    · subst hj
      rw [State.ownEntry_setOwn_self, State.ownEntry_setOwn_self]
    · rw [State.ownEntry_setOwn_ne hj, State.ownEntry_setOwn_ne hj]
      exact hst j
  unfold afterPreemption
  dsimp only
  cases ho : s.olderYielding i e.link with
  | none =>
    rw [State.preempt_none ho]
    exact hset j
  | some p =>
    obtain ⟨k, p⟩ := p
    rw [State.preempt_some ho]
    show _ = ((s.setOwn i (some (preempted e s))).removeOwn k).ownEntry j
    by_cases hj : j = k
    · subst hj
      rw [State.removeOwn_self]
      exact State.ownEntry_setOwn_self _ _ _
    · rw [State.removeOwn_ne hj, ← hset]
      exact State.ownEntry_setOwn_ne hj _ _

theorem AsTable.own (h : AsTable c a s w) (j : Fin 16) : w.ownEntry j = a.ownEntry j := by
  rw [State.ownEntry, h.plan]
  rfl

theorem After.link (h : After w t) : t.lsup.links[l] = w.link l := by
  rw [h.lsup]
  rfl

/-! ## While the replica is overfull -/

theorem AsTable.preempted_waits (h : AsTable c a s w) (hx : s.link l = some x) (ha : s.phase = .active)
    (hr : x.reloc = none) (ho : a.plan.overfull = true)
    (ht : After (w.startReloc l .preempted none false false) t) :
    t.plan.own = a.plan.own ∧ t.rport.fe = s.rport.fe ∧ ∃ z : LinkRec, t.lsup.links[l] = some z ∧ z.state = x.state ∧
      z.current = x.current ∧ z.acquireRetry = none ∧ z.reloc = some (waiting .preempted x none false false) := by
  obtain ⟨d, hd⟩ := h.link hx
  have hfull := State.startReloc_full (cause := .preempted) (cand := none) (task := false) (override := false) hd
    (h.phase.trans ha) hr (by rw [h.plan]; exact ho) (by simp)
  rw [hfull] at ht
  refine ⟨?_, ?_, _, ht.link.trans (State.link_setLink_self l _ w), rfl, rfl, rfl, rfl⟩
  · rw [ht.plan, ← h.plan]
    rfl
  · rw [ht.radio.1, ← h.rport]
    rfl

/-! ## A search that is answered a span -/

theorem AsTable.preempted_claims (h : AsTable 1 a s w) (hx : s.link l = some x) (ha : s.phase = .active)
    (hr : x.reloc = none) (hs : a.searchStart x.desc x.pointer [] = .span sp) (hc : a.cfg = s.cfg) (hk : a.emptyOwn = some k)
    (hone : a.ownsOne l) (hmine : ∀ (j : Fin 16) (o : OwnEntry), a.ownEntry j = some o → o.link = l → o.standing ≠ .tentative)
    (ht : After (w.startReloc l .preempted none false false) t) :
    claimStands k l sp s t ∧ t.rport.fe = s.rport.fe ∧ (∀ j : Fin 16, j ≠ k → t.plan.own[j] = a.plan.own[j]) ∧
      (∃ z : LinkRec, t.lsup.links[l] = some z ∧ z.state = x.state ∧ z.current = x.current ∧ z.acquireRetry = none ∧
        z.reloc = some { waiting .preempted x (some sp) false false with phase := .claiming }) ∧
      (s.biu.queue.length < 15 → waits true .planClaim (claimBody l sp s) s t) := by
  obtain ⟨d, hd⟩ := h.link hx
  have hcw : w.cfg = a.cfg := h.cfg.trans hc.symm
  have hsd := State.startReloc_claims (cause := .preempted) (task := false) (override := false) (k := k) (sp := sp) hd
    (h.phase.trans ha) hr (by simp) ((State.searchStart_congr h.plan hcw _ _ _).trans hs)
    (fun j o hj => hmine j o ((h.own j).symm.trans hj))
    (State.ownsOne.length fun j k o p ho hp => hone j k o p ((h.own j).symm.trans ho) ((h.own k).symm.trans hp))
    ((State.emptyOwn_congr h.plan).trans hk)
  obtain ⟨q, hp, q1, q2, q3, q4, q5, q6⟩ := hsd.plan
  obtain ⟨g, hg⟩ := hsd.link
  have himg : w.image = s.image := State.image_congr h.cfg
  refine ⟨⟨q, ?_, q1, q2, q3.trans (h.effectiveClass l), q4, by rw [q5, himg], q6⟩, ?_, fun j hj => ?_,
    ⟨_, ht.link.trans hg, rfl, rfl, rfl, rfl⟩, fun hq => ?_⟩
  · rw [ht.plan, hp]
    exact getFin_set_self _ _ _
  · rw [ht.radio.1, hsd.rport, h.rport]
  · rw [ht.plan, hp, ← h.plan]
    exact getFin_set_ne _ hj _
  · have hroom := h.room
    have hw := hsd.holds (by omega)
    refine ht.waits (hw.waits rfl ?_ (State.station_congr h.cfg) fun e he => he)
    simp only [claimOffer, OwnEntry.announce, State.newOwn, claimBody, h.effectiveClass, himg]

/-! ## A search that finds nothing -/

/-- The yields of a link's one own entry are that entry's. -/
theorem State.yieldWhere_one (he : s.ownEntry i = some e) (hl : e.link = l)
    (h : ∀ (j : Fin 16) (o : OwnEntry), s.ownEntry j = some o → o.link = l → j = i) :
    (s.yieldWhere l fun _ => true) = (s.setOwn i none).offered e.yieldOffer := by
  rw [State.yieldWhere_single he ⟨hl, rfl⟩ fun j o hj ho => h j o hj ho.1, State.removeOwn_of_some he]

theorem State.holdsCurrent_yielding (he : s.ownEntry i = some e) (hy : e.standing = .yielding)
    (h : ∀ (j : Fin 16) (o : OwnEntry), s.ownEntry j = some o → o.link = l → j = i) : s.holdsCurrent l = false := by
  refine State.holdsCurrent_no_held fun j o hj ho => ?_
  rw [h j o hj ho, he] at hj
  cases hj
  rw [hy]
  simp

/-- The failure of a relocation of no task yields the one entry of its link, which is YIELDING. -/
theorem State.relocFail_yields {why : FailCause} (hx : s.link l = some x) (hr : x.reloc = some r) (ht : r.task = false)
    (he : s.ownEntry i = some e) (hel : e.link = l) (hy : e.standing = .yielding)
    (hone : ∀ (j : Fin 16) (o : OwnEntry), s.ownEntry j = some o → o.link = l → j = i) (ha : s.phase = .active)
    (hq : s.biu.queue.length < 16) : Holds e.yieldOffer s (s.relocFail l why false) := by
  have heq := State.relocFail_acquiring why hx hr (State.holdsCurrent_yielding he hy hone) ht
  obtain ⟨m, hm⟩ : ∃ m, m = ((s.count .relocationFailed none).muteLink l).setOwn i none := ⟨_, rfl⟩
  have hmb : m.biu = s.biu ∧ m.phase = s.phase ∧ m.cfg = s.cfg := by
    rw [hm, State.muteLink_frame]
    exact ⟨rfl, rfl, rfl⟩
  obtain ⟨hmb, hmp, hmc⟩ := hmb
  have hmo (j : Fin 16) : ((s.count .relocationFailed none).muteLink l).ownEntry j = s.ownEntry j := State.muteLink_own j _
  have hone' := State.yieldWhere_one ((hmo i).trans he) hel fun j o hj => hone j o ((hmo j).symm.trans hj)
  rw [hone', ← hm] at heq
  have hzb : (s.relocFail l why false).biu = (m.offered e.yieldOffer).biu := by
    rw [heq, State.modLink_frame, State.modLink_frame]
  obtain ⟨q, hq1, hq2, hq3, hq4⟩ := (State.offer_holds (s := m) (o := e.yieldOffer)
    (State.takesOffers_of_active (hmp.trans ha)) (by rw [hmb]; exact hq)).1
  exact ⟨q, by rw [hzb]; exact hq1, hq2, hq3, hq4.trans (State.build_congr hmc _ _)⟩

theorem AsTable.preempted_fails (h : AsTable 1 a s w) (hx : s.link l = some x) (ha : s.phase = .active)
    (hr : x.reloc = none) (hs : a.searchStart x.desc x.pointer [] = .none) (hc : a.cfg = s.cfg)
    (he : a.ownEntry i = some e) (hel : e.link = l) (hy : e.standing = .yielding)
    (hone : ∀ (j : Fin 16) (o : OwnEntry), a.ownEntry j = some o → o.link = l → j = i)
    (hothers : ∀ j : Fin 16, j ≠ i → (a.ownEntry j).filter (fun e => e.link != l) = (s.ownEntry j).filter fun e => e.link != l)
    (hi : ∀ o, s.ownEntry i = some o → o.link = l) (ht : After (w.startReloc l .preempted none false false) t) :
    failedOff l x .preempted .noCandidate s t ∧
      (s.biu.queue.length < 15 → waits true .planYield (Span.bytes e.span ++ [byte e.link]) s t) := by
  obtain ⟨d, hd⟩ := h.link hx
  have hcw : w.cfg = a.cfg := h.cfg.trans hc.symm
  have hfail := State.startReloc_none (cause := .preempted) (task := false) (override := false) hd (h.phase.trans ha) hr
    (by simp) ((State.searchStart_congr h.plan hcw _ _ _).trans hs)
  rw [hfail] at ht
  clear hfail
  obtain ⟨y, hy'⟩ : ∃ y, y = LinkRec.starting (started .preempted { x with announcedBad := d } none false false)
    { x with announcedBad := d } := ⟨_, rfl⟩
  have hyr : y.reloc = some (started .preempted { x with announcedBad := d } none false false) := by rw [hy']; rfl
  rw [← hy'] at ht
  obtain ⟨v, hv⟩ : ∃ v, v = w.setLink l y := ⟨_, rfl⟩
  have hvl : v.link l = some y := by rw [hv]; exact State.link_setLink_self l y w
  have hvo (j : Fin 16) : v.ownEntry j = a.ownEntry j := by rw [hv]; exact h.own j
  have hvb : v.biu = w.biu ∧ v.now = w.now ∧ v.phase = w.phase ∧ v.cfg = w.cfg := by rw [hv]; exact ⟨rfl, rfl, rfl, rfl⟩
  obtain ⟨hvb, hvn, hvp, hvc⟩ := hvb
  have hdesc : y.desc = x.desc := by rw [hy']; rfl
  rw [← hv] at ht
  have hh : v.holdsCurrent l = false :=
    State.holdsCurrent_yielding ((hvo i).trans he) hy fun j o hj => hone j o ((hvo j).symm.trans hj)
  obtain ⟨⟨g, hg⟩, hown, hdark⟩ := State.relocFail_off (why := .noCandidate) (force := false) hvl hyr (by rw [hh]; rfl)
  have hev : Evolves Writes.moves v (v.relocFail l .noCandidate false) := State.relocFail_evolves rfl rfl (.refl _ v)
  obtain ⟨z, hz⟩ : ∃ z, z = v.relocFail l .noCandidate false := ⟨_, rfl⟩
  rw [← hz] at ht hg hown hdark hev
  have htn : t.now = s.now := ht.now.trans (hev.now.trans (hvn.trans h.now))
  refine ⟨⟨fun j => ?_, ?_, _, ht.link.trans hg, rfl, rfl, rfl, rfl, rfl, rfl, rfl, rfl, rfl, ?_, rfl⟩, fun hq => ?_⟩
  · rw [ht.plan]
    refine (hown j).trans ?_
    rw [hvo]
    by_cases hj : j = i
    · subst hj
      rw [he, Option.filter_some, if_neg (by simp [hel])]
      cases ho : s.ownEntry j with
      | none => rfl
      | some o => rw [Option.filter_some, if_neg (by simp [hi o ho])]
    · exact hothers j hj
  · rw [hdesc] at hdark
    rw [ht.radio.1]
    exact hdark
  · rw [htn, ← h.now, ← hvn]
    rfl
  · have hroom := h.room
    have hholds := State.relocFail_yields (why := .noCandidate) hvl hyr rfl ((hvo i).trans he) hel hy
      (fun j o hj => hone j o ((hvo j).symm.trans hj)) (hvp.trans (h.phase.trans ha)) (by rw [hvb]; omega)
    rw [← hz] at hholds
    exact ht.waits (hholds.waits rfl rfl (State.station_congr (hvc.trans h.cfg)) fun _ he => he)

end Sys2Proof.Machine
end

section
/-! SUPPORT. A HELD entry and a claim or hold that conflicts with it (R75, R79, R83, R130). -/

namespace Sys2Proof.Machine

open Says

variable {l : Fin 8} {i j k : Fin 16} {e o : OwnEntry} {x y : LinkRec} {r : Reloc} {b : PlanBody} {isHold : Bool} {h n c : Nat}
  {p : BusPort} {sp : Span} {rx : Rx} {a s t u v w : State}

theorem State.Inv.active_of_own (h : s.Inv) (he : s.ownEntry i = some e) : s.phase = .active := by
  by_contra hn
  obtain ⟨hown, -⟩ := h.quiet hn
  cases (hown i).symm.trans he

theorem State.Inv.beset (h : s.Inv) (he : s.ownEntry i = some e) (hs : e.standing = .held)
    (ho : ∀ (j : Fin 16) (o : OwnEntry), j ≠ i → s.ownEntry j = some o → o.link = e.link → o.standing = .yielding) :
    Beset i e s := by
  obtain ⟨-, hone, -⟩ := h.ownLaw
  exact ⟨he, hs, ho, fun j k o p hj hk hol hpl hoy hpy =>
    hone j k o p hj hk (hol.trans hpl.symm) (hoy.trans hpy.symm) (.inr hoy)⟩

theorem Beset.of_arrived {q : Biu} {m : Mgmt} (h : Beset i e s) : Beset i e { s with biu := q, mgmt := m } :=
  ⟨h.own, h.held, h.others, h.one⟩

theorem State.planned_station (isHold : Bool) (rx : Rx) (b : PlanBody) (s : State) :
    stationKept s (s.planned isHold rx b) ∧ (s.planned isHold rx b).now = s.now :=
  (State.withNews_moves (State.planArrival_moves .refl)).station

theorem State.planned_evolves (isHold : Bool) (rx : Rx) (b : PlanBody) (s : State) :
    Evolves Writes.replicaNews s (s.planned isHold rx b) :=
  State.withNews_evolves rfl rfl (State.planArrival_evolves rfl rfl (.refl _ s))

theorem After.own (h : After w t) (j : Fin 16) : t.plan.own[j] = w.ownEntry j := by
  rw [h.plan]
  rfl

/-! ## The entry stays, or turns YIELDING -/

theorem held_preempted (hinv : s.Inv) (hr : received p rx s) (hb : readPlanBody rx.body = some b)
    (he : s.ownEntry i = some e) (hs : e.standing = .held) (hc : s.conflicts e.span b.span = true)
    (ho : ∀ (j : Fin 16) (o : OwnEntry), j ≠ i → s.ownEntry j = some o → o.link = e.link → o.standing = .yielding)
    (hw : (b.rank isHold rx.origin.toNat).outranks (e.rank s) = true) (hl : s.reloc e.link = none)
    (hx : ∀ x : LinkRec, s.link e.link = some x → x.current ≠ some e.span ∨ x.pinned = true ∨ s.plan.overfull = true) :
    ∃ t : State, exec (if isHold then .planHold p rx else .planClaim p rx) s = .next t ∧
      t.plan.own[i] = some (preempted e s) ∧
      ∀ (j : Fin 16) (o : OwnEntry), t.plan.own[j] = some o → o.link = e.link → o.standing = .yielding → j = i := by
  obtain ⟨q, m, t, hm, hex, ht⟩ := exec_planned isHold hr hb
  have hu := (hinv.beset he hs ho).of_arrived (q := q) (m := m)
  have hun := hu.preempted (isHold := isHold) (h := rx.origin.toNat) (n := (rx.bulletin (planKind isHold)).length) hc
    (hinv.active_of_own he) hw hl hx
  rw [← State.planned] at hun
  refine ⟨t, hex, (ht.own i).trans hun.own, fun j o hj hol _ => ?_⟩
  exact hun.sole j o ((ht.own j).symm.trans hj) hol

/-- The defence of a HELD entry with room for it (R75, R78). -/
theorem State.defend_announces (ha : s.phase = .active) (hq : s.biu.queue.length < 16) (he : s.ownEntry i = some e)
    (hs : e.standing = .held) (hd : e.defend = none) :
    (∃ a, (s.defend i).ownEntry i = some a ∧ a.cls = s.effectiveClass e.link) ∧
      Holds (e.announce .planHold true (s.effectiveClass e.link) .none) s (s.defend i) := by
  obtain ⟨q, n, ho, hh⟩ := State.announceHold_queued ha hq he true
  have hown : (s.announceHold true i).ownEntry i = some { e with cls := s.effectiveClass e.link } := by
    rw [ho]
    exact State.ownEntry_setOwn_self _ _ _
  have hdef : s.defend i = (s.announceHold true i).setOwn i (some { e with
      cls := s.effectiveClass e.link, defend := some (s.after (ms 100)) }) := by
    have hsend : s.sendDefence i = s.announceHold true i := by simp only [State.sendDefence, he, hs]
    simp only [State.defend, he, hd, Option.isSome_none, Bool.false_eq_true, if_false]
    rw [hsend, State.modOwn_of_some hown]
  rw [hdef]
  exact ⟨⟨_, State.ownEntry_setOwn_self _ _ _, rfl⟩, hh.congr rfl⟩

theorem held_defended (hinv : s.Inv) (hr : received p rx s) (hb : readPlanBody rx.body = some b)
    (he : s.ownEntry i = some e) (hs : e.standing = .held) (hc : s.conflicts e.span b.span = true)
    (ho : ∀ (j : Fin 16) (o : OwnEntry), j ≠ i → s.ownEntry j = some o → o.link = e.link → o.standing = .yielding)
    (hw : (b.rank isHold rx.origin.toNat).outranks (e.rank s) = false) :
    ∃ t : State, exec (if isHold then .planHold p rx else .planClaim p rx) s = .next t ∧
      ∃ e' : OwnEntry, t.plan.own[i] = some e' ∧ e.Defended s.now e' ∧
        (e.defend = none → s.biu.queue.length < 16 →
          (∀ (j : Fin 16) (o : OwnEntry), j ≠ i → s.ownEntry j = some o → apart s o rx b) →
          e'.cls = s.effectiveClass e.link ∧ waits true .planHold (planBody e (s.effectiveClass e.link)) s t) := by
  obtain ⟨q, m, t, hm, hex, ht⟩ := exec_planned isHold hr hb
  have hu := (hinv.beset he hs ho).of_arrived (q := q) (m := m)
  obtain ⟨a, ha, had⟩ := hu.defended (isHold := isHold) (h := rx.origin.toNat)
    (n := (rx.bulletin (planKind isHold)).length) hc hw
  rw [← State.planned] at ha
  refine ⟨t, hex, a, (ht.own i).trans ha, had, fun hd hq hap => ?_⟩
  have hl : Lone i e rx.origin.toNat b { s with biu := q, mgmt := m } :=
    ⟨he, fun j o hj hoj => .inr (hap j o hj hoj), .inl (OwnEntry.waitsFor_standing (by rw [hs]; simp))⟩
  have htab := State.stored_asTable (isHold := isHold) (h := rx.origin.toNat) (b := b)
    (n := (rx.bulletin (planKind isHold)).length) 0 hm.arrived.queue hm.arrived.nextAge hm.arrived.longTask
  have hplan := hl.planArrival (isHold := isHold) (n := (rx.bulletin (planKind isHold)).length)
  have hown : (State.stored isHold rx.origin.toNat b (rx.bulletin (planKind isHold)).length
      { s with biu := q, mgmt := m }).ownEntry i = s.ownEntry i := State.stored_own i _
  rw [State.planned, hplan] at ha ht
  generalize State.stored isHold rx.origin.toNat b (rx.bulletin (planKind isHold)).length { s with biu := q, mgmt := m } = v
    at htab hown ha ht
  have htest : v.testOwn isHold rx.origin.toNat b (rx.bulletin (planKind isHold)).length i = (v.defend i, []) := by
    rw [State.testOwn_held (hown.trans he) hs (by rw [State.conflicts_congr htab.cfg]; exact hc), State.testHeld,
      OwnEntry.rank_congr htab.cfg, hw]
    rfl
  rw [htest] at ha ht
  have hroom := htab.room
  obtain ⟨⟨a', ha', hcls⟩, hholds⟩ := State.defend_announces (htab.phase.trans (hinv.active_of_own he)) (by omega)
    (hown.trans he) hs hd
  have haa : a' = a := Option.some.inj (ha'.symm.trans ha)
  rw [haa, htab.effectiveClass] at hcls
  rw [htab.effectiveClass] at hholds
  exact ⟨hcls, ht.waits (hholds.waits rfl rfl (State.station_congr htab.cfg) fun _ he => he)⟩

/-! ## The link is relocated -/

theorem afterPreemption_cfg (isHold : Bool) (rx : Rx) (b : PlanBody) (i : Fin 16) (e : OwnEntry) (s : State) :
    (afterPreemption isHold rx b i e s).cfg = s.cfg := by
  have hs : (s.storePeer isHold rx.origin.toNat b (7 + rx.body.length)).1.cfg = s.cfg := by
    have hf := (State.stored_frame isHold rx.origin.toNat b (7 + rx.body.length) s).1
    exact (congrArg State.cfg hf :)
  unfold afterPreemption
  dsimp only
  split
  · exact hs
  · exact hs

/-- A preemption takes no entry of another link. -/
theorem preempt_filter (hj : j ≠ i) : ((s.preempt n i e).1.ownEntry j).filter (fun o => o.link != e.link) =
    (s.ownEntry j).filter fun o => o.link != e.link := by
  cases ho : s.olderYielding i e.link with
  | none =>
    rw [State.preempt_none ho]
    exact congrArg _ (State.ownEntry_setOwn_ne hj _ s)
  | some p =>
    obtain ⟨k, p⟩ := p
    obtain ⟨-, hk, hpl, -⟩ := State.olderYielding_some ho
    rw [State.preempt_some ho]
    show (((s.setOwn i (some (preempted e s))).removeOwn k).ownEntry j).filter _ = _
    by_cases hjk : j = k
    · subst hjk
      rw [State.removeOwn_self, hk, Option.filter_some, if_neg (by simp [hpl])]
      rfl
    · rw [State.removeOwn_ne hjk, State.ownEntry_setOwn_ne hj]

theorem held_relocated (hinv : s.Inv) (hr : received p rx s) (hb : readPlanBody rx.body = some b)
    (he : s.ownEntry i = some e) (hs : e.standing = .held) (hc : s.conflicts e.span b.span = true)
    (hy : ∀ (j : Fin 16) (o : OwnEntry), j ≠ i → s.ownEntry j = some o → o.link = e.link → o.standing = .yielding)
    (hw : (b.rank isHold rx.origin.toNat).outranks (e.rank s) = true) (hx : s.link e.link = some x) (hrel : x.reloc = none)
    (hcur : x.current = some e.span) (hpin : x.pinned = false) (hne : e.span.low ≤ e.span.high)
    (ho : ∀ (j : Fin 16) (o : OwnEntry), j ≠ i → s.ownEntry j = some o → o.standing = .yielding ∨ apart s o rx b) :
    ∃ t : State, exec (if isHold then .planHold p rx else .planClaim p rx) s = .next t ∧ stationKept s t ∧
      t.now = s.now ∧ t.plan.peers = (afterPreemption isHold rx b i e s).plan.peers ∧ t.tally = s.tally ∧
      talkKept s t ∧
      ((afterPreemption isHold rx b i e s).plan.overfull = true →
        t.plan.own = (afterPreemption isHold rx b i e s).plan.own ∧ t.rport.fe = s.rport.fe ∧
        ∃ z : LinkRec, t.lsup.links[e.link] = some z ∧ z.state = x.state ∧ z.current = x.current ∧
          z.acquireRetry = none ∧ z.reloc = some (waiting .preempted x none false false)) ∧
      (∀ (sp : Span) (k : Fin 16),
        (afterPreemption isHold rx b i e s).searchStart x.desc x.pointer [] = .span sp →
        (afterPreemption isHold rx b i e s).emptyOwn = some k →
        claimStands k e.link sp s t ∧ t.plan.own[i] = some (preempted e s) ∧ t.rport.fe = s.rport.fe ∧
        (∀ j : Fin 16, j ≠ k → t.plan.own[j] = (afterPreemption isHold rx b i e s).plan.own[j]) ∧
        (∃ z : LinkRec, t.lsup.links[e.link] = some z ∧ z.state = x.state ∧ z.current = x.current ∧
          z.acquireRetry = none ∧
          z.reloc = some { waiting .preempted x (some sp) false false with phase := .claiming }) ∧
        (s.biu.queue.length < 15 → waits true .planClaim (claimBody e.link sp s) s t)) ∧
      ((afterPreemption isHold rx b i e s).searchStart x.desc x.pointer [] = .none →
        failedOff e.link x .preempted .noCandidate s t ∧
        (s.biu.queue.length < 15 → waits true .planYield (Span.bytes e.span ++ [byte e.link]) s t)) := by
  obtain ⟨q, m, t, hm, hex, ht⟩ := exec_planned isHold hr hb
  have ha := hinv.active_of_own he
  have hl : Lone i e rx.origin.toNat b s := ⟨he, ho, .inl (OwnEntry.waitsFor_standing (by rw [hs]; simp))⟩
  obtain ⟨w, htab, hplan⟩ := hl.preempted_starts (q := q) (m := m) hs hc hw hx hrel hcur hpin hinv.ownLaw hne
    hm.arrived.queue hm.arrived.nextAge hm.arrived.longTask
  have hstat := State.planned_station isHold rx b { s with biu := q, mgmt := m }
  have hev := State.planned_evolves isHold rx b { s with biu := q, mgmt := m }
  have hcfg := afterPreemption_cfg isHold rx b i e s
  obtain ⟨hown, hsole⟩ := (hinv.beset he hs hy).preempt (n := 0)
  have haown (j : Fin 16) := afterPreemption_own (isHold := isHold) (i := i) (e := e) (n := 0) (s := s) rx b j
  have hafter (j : Fin 16) (o : OwnEntry) (hj : (afterPreemption isHold rx b i e s).ownEntry j = some o) (hol : o.link = e.link) :
      j = i := hsole j o ((haown j).symm.trans hj) hol
  have hai := (haown i).trans hown
  have hfilter (j : Fin 16) (hj : j ≠ i) : ((afterPreemption isHold rx b i e s).ownEntry j).filter (fun o => o.link != e.link) =
      (s.ownEntry j).filter fun o => o.link != e.link := by
    rw [haown]
    exact preempt_filter hj
  obtain ⟨hpeers, -⟩ := (State.startReloc_evolves (l := e.link) (c := .preempted) (sp := none) (a := false) (b := false)
    rfl rfl (Evolves.refl Writes.moves w)).replica rfl
  rw [hplan] at ht hstat hev
  generalize afterPreemption isHold rx b i e s = a at htab hcfg hown hsole hafter hai hfilter ⊢
  refine ⟨t, hex, (hm.arrived.stationKept.trans hstat.1).trans ht.station, ht.now.trans hstat.2, ?_, ht.tally.trans (hev.tally rfl),
    (talkKept.of_eq (s := s) (hev.tbk rfl)).trans ht.talk, fun hfull => htab.preempted_waits hx ha hrel hfull ht,
    fun sp k hsp hk => ?_, fun hn => ?_⟩
  · rw [ht.plan, hpeers, htab.plan]
  · obtain ⟨h1, h2, h3, h4, h5⟩ := htab.preempted_claims hx ha hrel hsp hcfg hk
      (fun j k o p hj hk hol hpl => (hafter j o hj hol).trans (hafter k p hk hpl).symm) (fun j o hj hol => by
        rw [hafter j o hj hol, hai] at hj
        cases hj
        simp [preempted]) ht
    have hik : i ≠ k := by
      rintro rfl
      cases (State.emptyOwn_none hk).symm.trans hai
    exact ⟨h1, (h3 i hik).trans hai, h2, h3, h4, h5⟩
  · exact htab.preempted_fails (e := preempted e s) hx ha hrel hn hcfg hai rfl rfl hafter hfilter (fun o ho => by
      rw [he] at ho
      cases ho
      rfl) ht

end Sys2Proof.Machine
end

section
/-! SUPPORT. A TENTATIVE entry and a weaker claim or hold that conflicts with it (R69, R70, R76). -/

namespace Sys2Proof.Machine

open Says

variable {l : Fin 8} {i j k : Fin 16} {e o : OwnEntry} {x y : LinkRec} {r : Reloc} {b : PlanBody} {isHold : Bool} {h n c : Nat}
  {p : BusPort} {sp : Span} {rx : Rx} {pair : Nat × Nat} {a s t u v w : State}

/-! ## The event, and what it leaves in the queue -/

theorem exec_planned_queue (isHold : Bool) (hr : received p rx s) (hb : readPlanBody rx.body = some b) :
    ∃ (x : Biu) (m : Mgmt) (t : State), Met p (rx.bulletin (planKind isHold)) s { s with biu := x, mgmt := m } ∧
      exec (if isHold then .planHold p rx else .planClaim p rx) s = .next t ∧
      After (State.planned isHold rx b { s with biu := x, mgmt := m }) t ∧
      (noneArmed s → t.biu.queue = (State.planned isHold rx b { s with biu := x, mgmt := m }).biu.queue) := by
  have ha : arrives (if isHold then .planHold p rx else .planClaim p rx) (planKind isHold) p rx := by
    cases isHold
    · exact arrives_arrival .planClaim p rx
    · exact arrives_arrival .planHold p rx
  obtain ⟨u, v, hm, hc, he⟩ := exec_received ha hr
  have hdel : (u.deliver (planKind isHold) (rx.bulletin (planKind isHold))).1 = u.planned isHold rx b := by
    cases isHold
    · simp [planKind, State.planned, State.deliver, Rx.bulletin, hb]
    · simp [planKind, State.planned, State.deliver, Rx.bulletin, hb]
  have hnone (h : noneArmed s) : v = u.planned isHold rx b :=
    (hc.none (State.onceHits_of_noneArmed h _)).trans hdel
  have hcap := hc.captured.after
  rw [hdel] at hcap
  have hu := hm.arrived.eq
  refine ⟨u.biu, u.mgmt, v.finish, hu ▸ hm, he, hu ▸ hcap, fun h => ?_⟩
  rw [← hu, State.finish_biu, hnone h]

/-! ## The pending-yield set -/

/-- An entry with the pair of a weaker hold in its pending-yield set (R70). -/
def OwnEntry.joined (isHold : Bool) (pair : Nat × Nat) (e : OwnEntry) : OwnEntry := if isHold then e.addPair pair else e

theorem OwnEntry.joined_eq (isHold : Bool) (pair : Nat × Nat) (e : OwnEntry) : e.joined isHold pair = { e with
    pendingYield := if isHold = false ∨ pair ∈ e.pendingYield ∨ 4 ≤ e.pendingYield.length then e.pendingYield
      else e.pendingYield ++ [pair] } := by
  unfold OwnEntry.joined OwnEntry.addPair
  cases isHold with
  | false => simp
  | true =>
    by_cases hm : pair ∈ e.pendingYield
    · simp [hm]
    · by_cases hn : 4 ≤ e.pendingYield.length
      · simp [hn]
      · simp [hm, hn]

theorem State.setOwn_self (he : s.ownEntry i = some e) : s.setOwn i (some e) = s := by
  have hv : s.plan.own.set i (some e) = s.plan.own := by
    have he' : s.plan.own[i] = some e := he
    rw [← he']
    exact Vector.set_getElem_self _
  rw [State.setOwn, hv]

theorem State.pairJoined_eq (he : s.ownEntry i = some e) :
    s.pairJoined isHold h b i e = s.setOwn i (some (e.joined isHold (h, b.link))) := by
  cases isHold with
  | false => exact (State.setOwn_self he).symm
  | true => rfl

/-! ## The defence -/

theorem State.defend_owed (he : s.ownEntry i = some e) (hd : e.defend.isSome = true) :
    s.defend i = s.setOwn i (some { e with owed := true }) := by
  simp only [State.defend, he]
  rw [if_pos hd]

/-- The offer of a claim again, at its entry's class (R69, R76). -/
def OwnEntry.claimAgain (e : OwnEntry) : Offer := e.announce .planClaim true e.cls (.claim e.link e.span)

theorem State.defend_claims (he : s.ownEntry i = some e) (hs : e.standing = .tentative) (hd : e.defend = none) :
    s.defend i = (s.offered e.claimAgain).setOwn i (some { e with defend := some (s.now + 100000) }) := by
  have hsend : s.sendDefence i = s.offered e.claimAgain := by simp only [State.sendDefence, he, hs]; rfl
  have hown : (s.offered e.claimAgain).ownEntry i = some e := (State.offer_keeps_own _ i s).trans he
  simp only [State.defend, he, hd, Option.isSome_none, Bool.false_eq_true, if_false]
  rw [hsend, State.modOwn_of_some hown]
  rfl

/-- A TENTATIVE entry that a weaker claim or hold leaves (R69, R70, R76). -/
def OwnEntry.withstood (isHold : Bool) (pair : Nat × Nat) (now : Nat) (e : OwnEntry) : OwnEntry := { e with
  pendingYield := if isHold = false ∨ pair ∈ e.pendingYield ∨ 4 ≤ e.pendingYield.length then e.pendingYield
    else e.pendingYield ++ [pair]
  defend := if e.sent = true ∧ e.defend = none then some (now + 100000) else e.defend
  owed := e.owed || (e.sent && e.defend.isSome) }

/-- What a weaker claim or hold does to a TENTATIVE entry's state: nothing is offered but the defence of a claim sent that
is in no defence hold-off. -/
theorem AsTable.withstands (ht : AsTable 0 a s v) (he : v.ownEntry i = some e) (hs : e.standing = .tentative)
    (hw : (b.rank isHold h).outranks (e.rank v) = false) :
    ∃ w, v.testTentative isHold h b n i e = (w, []) ∧
      AsTable 1 (a.setOwn i (some (e.withstood isHold (h, b.link) s.now))) s w ∧
      (e.sent = false ∨ e.defend.isSome = true → w.biu = v.biu ∧ w.lsup = v.lsup) ∧
      (e.sent = true → e.defend = none → v.phase = .active → v.biu.queue.length < 16 →
        Holds e.claimAgain v w) := by
  have hj := OwnEntry.joined_eq isHold (h, b.link) e
  have htest : v.testTentative isHold h b n i e = (if e.sent then (v.pairJoined isHold h b i e).defend i
      else v.pairJoined isHold h b i e, []) := by
    rw [State.testTentative, hw]
    rfl
  rw [htest, State.pairJoined_eq he]
  obtain ⟨g, hg⟩ : ∃ g, g = e.joined isHold (h, b.link) := ⟨_, rfl⟩
  rw [← hg] at hj ⊢
  obtain ⟨u, hu⟩ : ∃ u, u = v.setOwn i (some g) := ⟨_, rfl⟩
  have hug : u.ownEntry i = some g := by rw [hu]; exact State.ownEntry_setOwn_self _ _ _
  have hub : u.biu = v.biu ∧ u.lsup = v.lsup ∧ u.now = v.now ∧ u.phase = v.phase ∧ u.cfg = v.cfg := by
    rw [hu]
    exact ⟨rfl, rfl, rfl, rfl, rfl⟩
  obtain ⟨hub, hul, hun, hup, huc⟩ := hub
  have htab := ht.setOwn i (some g)
  rw [← hu] at htab ⊢
  cases hsent : e.sent with
  | false =>
    have hgw : g = e.withstood isHold (h, b.link) s.now := by
      rw [hj, OwnEntry.withstood, hsent]
      simp
    rw [hgw] at htab
    exact ⟨u, rfl, htab.succ, fun _ => ⟨hub, hul⟩, fun h => by cases h⟩
  | true =>
    rw [if_pos rfl]
    cases hd : e.defend with
    | some d =>
      have hgd : g.defend.isSome = true := by rw [hj, hd]; rfl
      have hgw : ({ g with owed := true } : OwnEntry) = e.withstood isHold (h, b.link) s.now := by
        rw [hj, OwnEntry.withstood, hsent, hd]
        simp
      rw [State.defend_owed hug hgd, hgw]
      have htab' := htab.setOwn i (some (e.withstood isHold (h, b.link) s.now))
      rw [State.setOwn_setOwn] at htab'
      exact ⟨_, rfl, htab'.succ, fun _ => ⟨hub, hul⟩, fun _ h => by cases h⟩
    | none =>
      have hgd : g.defend = none := by rw [hj]; exact hd
      have hgs : g.standing = .tentative := by rw [hj]; exact hs
      have hgc : g.claimAgain = e.claimAgain := by rw [hj]; rfl
      have hgw : ({ g with defend := some (u.now + 100000) } : OwnEntry) = e.withstood isHold (h, b.link) s.now := by
        rw [hj, OwnEntry.withstood, hsent, hd, hun, ht.now]
        simp
      rw [State.defend_claims hug hgs hgd, hgw, hgc]
      have htab' := (htab.offered e.claimAgain).setOwn i (some (e.withstood isHold (h, b.link) s.now))
      rw [State.setOwn_setOwn] at htab'
      refine ⟨_, rfl, htab', fun h => ?_, fun _ _ ha hq => ?_⟩
      · rcases h with h | h
        · cases h
        · cases h
      · obtain ⟨m, h1, h2, h3, h4⟩ := (State.offer_holds (s := u) (o := e.claimAgain)
          (State.takesOffers_of_active (hup.trans ha)) (by rw [hub]; exact hq)).1
        exact ⟨m, h1, h2, h3, h4.trans (State.build_congr huc _ _)⟩

/-! ## The event -/

theorem Lone.of_apart (he : s.ownEntry i = some e)
    (ho : ∀ (j : Fin 16) (o : OwnEntry), j ≠ i → s.ownEntry j = some o → apart s o rx b)
    (hst : (rx.origin.toNat, b.link) ∉ e.pendingYield ∨ (s.peerSlot rx.origin.toNat b.link b.span).isSome = true) :
    Lone i e rx.origin.toNat b s :=
  ⟨he, fun j o hj hoj => .inr (ho j o hj hoj), hst.imp_left OwnEntry.waitsFor_not_mem⟩

theorem Lone.of_arrived {q : Biu} {m : Mgmt} (hl : Lone i e h b s) : Lone i e h b { s with biu := q, mgmt := m } :=
  ⟨hl.own, hl.others, hl.stays⟩

/-- The test of the one TENTATIVE entry that an arrival concerns. -/
theorem Lone.planned_tentative {q : Biu} {m : Mgmt} (hl : Lone i e rx.origin.toNat b s) (hs : e.standing = .tentative)
    (hc : s.conflicts e.span b.span = true) (hq : q.queue = s.biu.queue) (hn : q.nextAge = s.biu.nextAge)
    (hm : m.longTask = s.mgmt.longTask) :
    ∃ v, AsTable 0 (s.storePeer isHold rx.origin.toNat b (7 + rx.body.length)).1 s v ∧ v.biu = q ∧ v.lsup = s.lsup ∧
      State.planned isHold rx b { s with biu := q, mgmt := m } =
        State.withNews (v.testTentative isHold rx.origin.toNat b (rx.bulletin (planKind isHold)).length i e) := by
  have htab := State.stored_asTable (isHold := isHold) (h := rx.origin.toNat) (b := b)
    (n := (rx.bulletin (planKind isHold)).length) (7 + rx.body.length) hq hn hm
  have hplan := hl.of_arrived (q := q) (m := m).planArrival (isHold := isHold) (n := (rx.bulletin (planKind isHold)).length)
  have hown : (State.stored isHold rx.origin.toNat b (rx.bulletin (planKind isHold)).length
      { s with biu := q, mgmt := m }).ownEntry i = s.ownEntry i := State.stored_own i _
  have hf := (State.stored_frame isHold rx.origin.toNat b (rx.bulletin (planKind isHold)).length
    { s with biu := q, mgmt := m }).1
  rw [State.planned, hplan]
  generalize State.stored isHold rx.origin.toNat b (rx.bulletin (planKind isHold)).length { s with biu := q, mgmt := m } = v
    at htab hown hf
  refine ⟨v, htab, by rw [hf], by rw [hf], ?_⟩
  rw [State.testOwn_tentative (hown.trans hl.own) hs (by rw [State.conflicts_congr htab.cfg]; exact hc)]

theorem storePeer_own_table (isHold : Bool) (h n : Nat) (b : PlanBody) (s : State) :
    (s.storePeer isHold h b n).1.plan.own = s.plan.own := by
  have hf := (State.stored_frame isHold h b n s).1
  exact (congrArg (fun u : State => u.plan.own) hf :)

theorem tentative_withstands (hinv : s.Inv) (hr : received p rx s) (hb : readPlanBody rx.body = some b)
    (he : s.ownEntry i = some e) (hs : e.standing = .tentative) (hc : s.conflicts e.span b.span = true)
    (ho : ∀ (j : Fin 16) (o : OwnEntry), j ≠ i → s.ownEntry j = some o → apart s o rx b)
    (hst : (rx.origin.toNat, b.link) ∉ e.pendingYield ∨ (s.peerSlot rx.origin.toNat b.link b.span).isSome = true)
    (hw : (b.rank isHold rx.origin.toNat).outranks (e.rank s) = false) :
    ∃ t : State, exec (if isHold then .planHold p rx else .planClaim p rx) s = .next t ∧ stationKept s t ∧
      t.now = s.now ∧ (∀ l : Fin 8, t.reloc l = s.reloc l) ∧
      (s.biu.queue.length < 16 ∨ e.sent = false ∨ e.defend.isSome = true → t.lsup = s.lsup) ∧
      t.plan.own = s.plan.own.set i (some (e.withstood isHold (rx.origin.toNat, b.link) s.now)) ∧
      (e.sent = true → e.defend = none → s.biu.queue.length < 16 → waits true .planClaim (planBody e e.cls) s t) ∧
      (e.sent = false ∨ e.defend.isSome = true → noneArmed s → t.biu.queue = s.biu.queue) := by
  obtain ⟨q, m, t, hm, hex, ht, hqueue⟩ := exec_planned_queue isHold hr hb
  obtain ⟨v, htab, hvb, hvl, hplan⟩ := (Lone.of_apart he ho hst).planned_tentative (isHold := isHold) (q := q) (m := m) hs hc
    hm.arrived.queue hm.arrived.nextAge hm.arrived.longTask
  have hve : v.ownEntry i = some e := (htab.own i).trans ((State.stored_own i s).trans he)
  obtain ⟨w, htest, hwt, hidle, hclaim⟩ := htab.withstands (n := (rx.bulletin (planKind isHold)).length) hve hs
    (by rw [OwnEntry.rank_congr htab.cfg]; exact hw)
  have hpw : State.planned isHold rx b { s with biu := q, mgmt := m } = w := by
    rw [hplan, htest]
    rfl
  rw [hpw] at ht hqueue
  refine ⟨t, hex, hwt.station.trans ht.station, ht.now.trans hwt.now, fun l => ?_, fun h => ?_, ?_, fun h1 h2 hq => ?_,
    fun h hn => ?_⟩
  · rw [State.reloc, State.link, ht.lsup, ← State.link, ← State.reloc]
    exact (hwt.near l).reloc
  · rw [ht.lsup]
    rcases h with h | h
    · exact hwt.lsup h
    · exact (hidle h).2.trans hvl
  · rw [ht.plan, hwt.plan]
    rw [State.setOwn, storePeer_own_table]
  · have hh := hclaim h1 h2 (htab.phase.trans (hinv.active_of_own he)) (by rw [hvb, hm.arrived.queue]; exact hq)
    exact ht.waits (hh.waits rfl rfl (State.station_congr htab.cfg) fun _ he => he)
  · rw [hqueue hn, (hidle h).1, hvb, hm.arrived.queue]

end Sys2Proof.Machine
end

section
/-! SUPPORT. A yield that waits goes on waiting while a relocation goes on (R8, R9, R11). -/

namespace Sys2Proof.Machine

open Says

variable {l m : Fin 8} {i : Fin 16} {e : OwnEntry} {q f : QueueEntry} {r : Reloc} {sp z : Span} {o a : Offer} {n : Nat}
  {s t u v w : State}

theorem Biu.LineRight.key_inj {x : Biu} (h : x.LineRight) (hq : q ∈ x.queue) (hf : f ∈ x.queue) (hk : q.key = f.key)
    (hs : q.key.isSome = true) : q = f := by
  obtain ⟨-, -, hkeys⟩ := h
  obtain ⟨i, hi, rfl⟩ := List.mem_iff_getElem.mp hq
  obtain ⟨j, hj, rfl⟩ := List.mem_iff_getElem.mp hf
  have hord := List.pairwise_iff_getElem.mp hkeys
  rcases Nat.lt_trichotomy i j with hij | hij | hij
  · exact absurd hk (hord i j hi hj hij hs)
  · subst hij
    rfl
  · exact absurd hk.symm (hord j i hj hi hij (hk ▸ hs))

/-- The yield of a link's span (R82). -/
def yieldOf (l : Fin 8) (sp : Span) : Offer :=
  { kind := .planYield, urgent := true, target := 0, body := Span.bytes sp ++ [byte l], key := some (.plan .planYield l sp),
    block := .plan, ticket := .none }

theorem OwnEntry.yieldOffer_eq (e : OwnEntry) : e.yieldOffer = yieldOf e.link e.span := rfl

/-- A yield waits, as it was offered in an earlier state. -/
structure Sticks (l : Fin 8) (sp : Span) (u t : State) : Prop where
  line  : t.biu.LineRight
  cfg   : t.cfg = u.cfg
  entry : ∃ q ∈ t.biu.queue, q.urgent = true ∧ q.key = some (.plan .planYield l sp) ∧ q.bulletin = u.build (yieldOf l sp) true

theorem Sticks.holds (h : Sticks l sp u t) : Holds (yieldOf l sp) u t := by
  obtain ⟨q, hq, hu, hk, hb⟩ := h.entry
  exact ⟨q, hq, fun _ => hu, hk, by rw [hu]; exact hb⟩

theorem Sticks.of_holds (h : Holds (yieldOf l sp) u t) (hl : t.biu.LineRight) (hc : t.cfg = u.cfg) : Sticks l sp u t := by
  obtain ⟨q, hq, hu, hk, hb⟩ := h
  have hu := hu rfl
  exact ⟨hl, hc, q, hq, hu, hk, by rw [hb, hu]⟩

theorem Sticks.congr (h : Sticks l sp u t) (hb : v.biu = t.biu) (hc : v.cfg = t.cfg) : Sticks l sp u v :=
  ⟨hb ▸ h.line, hc.trans h.cfg, by rw [hb]; exact h.entry⟩

theorem Offer.supersedes_yield (hk : q.key = some (.plan .planYield l sp)) (o : Offer) : o.supersedes q = false :=
  Offer.supersedes_other hk (fun _ _ _ h => by cases h; rfl) o

/-- An offer of another subject. -/
theorem Sticks.other (h : Sticks l sp u t) (ho : o.key ≠ some (.plan .planYield l sp)) : Sticks l sp u (t.offered o) := by
  obtain ⟨q, hq, hu, hk, hb⟩ := h.entry
  refine ⟨State.offer_line o h.line, (State.offer_offered o t).cfg.trans h.cfg, q, ?_, hu, hk, hb⟩
  exact State.mem_offer h.line hq (Offer.supersedes_yield hk o) (.inr fun he => ho (he.symm.trans hk)) (.inr hu)

/-- The same yield again. -/
theorem Sticks.again (h : Sticks l sp u t) : Sticks l sp u (t.offered (yieldOf l sp)) := by
  obtain ⟨q, hq, hu, hk, hb⟩ := h.entry
  refine ⟨State.offer_line _ h.line, (State.offer_offered _ t).cfg.trans h.cfg, ?_⟩
  have hd : q ∈ (t.dropSuperseded (yieldOf l sp)).biu.queue :=
    List.mem_filter.2 ⟨hq, by rw [Offer.supersedes_yield hk]; rfl⟩
  have hdl : (t.dropSuperseded (yieldOf l sp)).biu.LineRight := h.line.filter _
  have hdc : (t.dropSuperseded (yieldOf l sp)).cfg = u.cfg := h.cfg
  unfold State.offered State.offer
  split
  · dsimp only
    generalize t.dropSuperseded (yieldOf l sp) = d at hd hdl hdc
    split
    · rename_i f hf
      have hfm := List.mem_of_find?_eq_some hf
      have hfk := List.find?_some hf
      simp only [Bool.and_eq_true, beq_iff_eq] at hfk
      have hqf : q = f := hdl.key_inj hd hfm (hk.trans hfk.2.symm) (by rw [hk]; rfl)
      subst hqf
      rw [hu, Bool.not_true, Bool.and_false, if_neg Bool.false_ne_true]
      refine ⟨q.replace d (yieldOf l sp), List.mem_map.2 ⟨q, hd, if_pos rfl⟩, hu, hk, ?_⟩
      show d.build (yieldOf l sp) q.urgent = _
      rw [hu]
      exact State.build_congr hdc _ _
    · rename_i hn
      have := List.find?_eq_none.1 hn q hd
      simp [hk, yieldOf] at this
  · exact ⟨q, hq, hu, hk, hb⟩

/-! ## A relocation's steps -/

theorem Sticks.yieldOffer (h : Sticks l sp u t) (e : OwnEntry) : Sticks l sp u (t.offered e.yieldOffer) := by
  rw [OwnEntry.yieldOffer_eq]
  by_cases hk : e.link = l ∧ e.span = sp
  · rw [hk.1, hk.2]
    exact h.again
  · refine h.other fun he => hk ?_
    cases he
    exact ⟨rfl, rfl⟩

theorem Sticks.removeOwn (h : Sticks l sp u t) (i : Fin 16) : Sticks l sp u (t.removeOwn i) := by
  unfold State.removeOwn
  split
  · exact Sticks.yieldOffer (h.congr (v := t.setOwn i none) rfl rfl) _
  · exact h

theorem Sticks.yieldWhere (h : Sticks l sp u t) (m : Fin 8) (p : OwnEntry → Bool) : Sticks l sp u (t.yieldWhere m p) := by
  rw [State.yieldWhere_eq]
  induction List.finRange 16 generalizing t with
  | nil => exact h
  | cons i is ih =>
    refine ih ?_
    unfold State.yieldSlot
    split
    · split
      · exact h.removeOwn i
      · exact h
    · exact h

theorem Sticks.modLink (h : Sticks l sp u t) (m : Fin 8) (g : LinkRec → LinkRec) : Sticks l sp u (t.modLink m g) :=
  h.congr (by rw [State.modLink_frame]) (by rw [State.modLink_frame])

theorem Sticks.muteLink (h : Sticks l sp u t) (m : Fin 8) : Sticks l sp u (t.muteLink m) :=
  h.congr (by rw [State.muteLink_frame]) (by rw [State.muteLink_frame])

theorem Sticks.endReloc (h : Sticks l sp u t) (m : Fin 8) (r : Reloc) (x : Ending) : Sticks l sp u (t.endReloc m r x) := by
  unfold State.endReloc
  dsimp only
  split
  · unfold State.tellTask
    split
    · exact Sticks.other ((h.modLink m _).congr rfl rfl) (by simp)
    · exact h.modLink m _
  · exact h.modLink m _

theorem Sticks.relocFail (h : Sticks l sp u t) (m : Fin 8) (x : FailCause) (b : Bool) :
    Sticks l sp u (t.relocFail m x b) := by
  have hc : Sticks l sp u (t.count .relocationFailed none) := h.congr rfl rfl
  unfold State.relocFail
  split
  · exact h
  · dsimp only
    refine Sticks.endReloc ?_ m _ _
    split
    · exact (hc.yieldWhere m _).modLink m _
    · exact ((hc.muteLink m).yieldWhere m _).modLink m _

theorem Sticks.claimStart (h : Sticks l sp u t) (m : Fin 8) (z : Span) : Sticks l sp u (t.claimStart m z).1 := by
  have hcfg : (t.claimStart m z).1.cfg = t.cfg := (State.claimStart_evolves (w := Writes.all) rfl (.refl _ t)).cfg
  have hone : OneClaim t (t.claimStart m z).1 := by
    rcases State.claimStart_cases m z t with ⟨-, hb, -⟩ | ⟨-, hone, -⟩
    · exact .inl hb
    · exact hone
  obtain ⟨q, hq, hu, hk, hb⟩ := h.entry
  exact ⟨hone.line h.line, hcfg.trans h.cfg, q, hone.keeps h.line hq (fun l sp he => by cases hk.symm.trans he) (.inr hu), hu, hk,
    hb⟩

theorem Sticks.modReloc (h : Sticks l sp u t) (m : Fin 8) (g : Reloc → Reloc) : Sticks l sp u (t.modReloc m g) :=
  h.modLink m _

theorem Sticks.searchRun (m : Fin 8) (n : Nat) : ∀ {t : State}, Sticks l sp u t → Sticks l sp u (State.searchRun m n t) := by
  induction n with
  | zero => exact fun h => h
  | succ n ih =>
    intro t h
    unfold State.searchRun
    split
    · rename_i x r _ _
      split
      · exact h.modReloc m _
      · exact h.relocFail m _ _
      · exact h.endReloc m _ _
      · rename_i z _
        have hc := (h.modReloc m fun r => { r with phase := .claiming, cand := some z }).claimStart m z
        dsimp only
        split
        · exact hc
        · exact hc.modReloc m _
        · exact hc.relocFail m _ _
        · split
          · exact hc.relocFail m _ _
          · split
            · exact (hc.modReloc m _).relocFail m _ _
            · exact ih ((hc.modReloc m _).modReloc m _)
    · exact h

theorem Sticks.enterSearch (h : Sticks l sp u t) (m : Fin 8) : Sticks l sp u (t.enterSearch m) :=
  Sticks.searchRun m 5 (h.modReloc m _)

end Sys2Proof.Machine
end

section
/-! SUPPORT. A pin whose span is claimed by a stronger one, and how a relocation's failure is recorded (R120, R122, R127). -/

namespace Sys2Proof.Machine

open Says

variable {l m : Fin 8} {i j k : Fin 16} {e : OwnEntry} {p : PeerEntry} {x y : LinkRec} {b : PlanBody} {r : Reloc} {sp : Span}
  {isHold : Bool} {h n : Nat} {s t u v w : State}

/-- However a relocation fails, its outcome is recorded. -/
theorem State.relocFail_ended (why : FailCause) (force : Bool) (hx : s.link l = some x) (hr : x.reloc = some r) :
    ∃ z, (s.relocFail l why force).link l = some z ∧ z.reloc = none ∧ z.lastOutcome = some (r.cause, .failed why) := by
  cases hh : (s.holdsCurrent l && !force) with
  | true =>
    obtain ⟨hc, rfl⟩ : s.holdsCurrent l = true ∧ force = false := by simpa using hh
    obtain ⟨b, hb⟩ := State.relocFail_held (why := why) hx hr hc
    exact ⟨_, hb, rfl, rfl⟩
  | false =>
    obtain ⟨⟨b, hb⟩, -⟩ := State.relocFail_off (why := why) hx hr hh
    exact ⟨_, hb, rfl, rfl⟩

/-! ## A stronger claim in the replica -/

/-- A peer entry stands for a received claim or hold (R40, R41). -/
def PeerEntry.standsFor (isHold : Bool) (h : Nat) (b : PlanBody) (p : PeerEntry) : Prop :=
  p.span = b.span ∧ p.holder = h ∧ p.link = b.link ∧ p.cls = b.cls ∧ (isHold = true → p.held = true)

/-- Unless the replica is overfull, what has been received is in it. -/
theorem State.storePeer_stands (ho : (s.storePeer isHold h b n).1.plan.overfull = false) :
    ∃ p ∈ (s.storePeer isHold h b n).1.peers, p.standsFor isHold h b := by
  have mem (k : Fin 96) (p : PeerEntry) : p ∈ (s.setPeer k (some p)).peers :=
    State.mem_peers.2 ⟨k, getFin_set_self _ _ _⟩
  unfold State.storePeer at ho ⊢
  dsimp only at ho ⊢
  split
  · exact ⟨_, mem _ _, rfl, rfl, rfl, rfl, fun hh => by simp [hh]⟩
  · rename_i hk
    rw [hk] at ho
    dsimp only at ho
    split
    · exact ⟨_, mem _ _, rfl, rfl, rfl, rfl, fun hh => hh⟩
    · rename_i hn
      rw [hn] at ho
      dsimp only at ho
      split
      · exact ⟨_, mem _ _, rfl, rfl, rfl, rfl, fun hh => hh⟩
      · rename_i he
        rw [he] at ho
        cases ho

theorem PeerEntry.standsFor.outranks {x : Rank} (hp : p.standsFor isHold h b) (hx : x.held = false)
    (hw : (b.rank isHold h).outranks x = true) : p.rank.outranks x = true := by
  obtain ⟨-, h1, h2, h3, h4⟩ := hp
  unfold Rank.outranks PlanBody.rank at hw
  unfold Rank.outranks PeerEntry.rank
  dsimp only at hw ⊢
  rw [h1, h2, h3]
  by_cases hc : b.cls ≠ x.cls
  · rw [if_pos hc] at hw ⊢
    exact hw
  · rw [if_neg hc] at hw ⊢
    cases hph : p.held with
    | true => simp [hx]
    | false =>
      have : isHold = false := by
        by_contra hne
        rw [h4 (by simpa using hne)] at hph
        cases hph
      rw [this] at hw
      exact hw

theorem State.claimStart_outranked (ha : s.phase = .active) (ho : s.plan.overfull = false)
    (hr : ((s.rivals sp).any fun e => e.rank.outranks ((s.newOwn l sp).rank s)) = true) :
    (s.claimStart l sp).2 = .refused ∨ (s.claimStart l sp).2 = .lostRank := by
  unfold State.claimStart
  dsimp only
  rw [if_neg (by simp [ha]), if_neg (by simp [ho])]
  split
  · exact .inl rfl
  · split
    · exact .inl rfl
    · exact .inr rfl

/-! ## The pin -/

theorem State.claimAnswered_refused {c : State × ClaimAnswer} (hc : r.cause = .taskPin)
    (ha : c.2 = .refused ∨ c.2 = .lostRank) : State.claimAnswered l r sp n c = c.1.relocFail l .refused false := by
  unfold State.claimAnswered
  rcases ha with ha | ha
  · rw [ha]
    simp only [Reloc.noWay, if_pos hc]
  · rw [ha]
    simp only [if_pos hc]

theorem State.rivals_congr (hp : t.plan = s.plan) (hc : t.cfg = s.cfg) (sp : Span) : t.rivals sp = s.rivals sp := by
  simp only [State.rivals, State.peers, hp, funext fun e : PeerEntry => State.conflicts_congr hc e.span sp]

/-- A pin for whose span a rival outranks the link's claim is refused (R120, R122). -/
theorem State.enterSearch_refused (hx : s.link l = some x) (hr : x.reloc = some r) (hc : r.cause = .taskPin)
    (hsp : r.cand = some sp) (ha : s.phase = .active) (ho : s.plan.overfull = false)
    (hh : s.ownStanding l sp ≠ some .held)
    (hriv : ((s.rivals sp).any fun e => e.rank.outranks ((s.newOwn l sp).rank s)) = true) :
    ∃ (c : State) (y : LinkRec), s.enterSearch l = c.relocFail l .refused false ∧ c.plan = s.plan ∧ c.link l = some y ∧
      ∃ r', y.reloc = some r' ∧ r'.cause = .taskPin := by
  obtain ⟨u, hu⟩ : ∃ u, u = s.setLink l { x with reloc := some { r with phase := .search } } := ⟨_, rfl⟩
  have hux : u.link l = some { x with reloc := some { r with phase := .search } } := by
    rw [hu]
    exact State.link_setLink_self l _ s
  have hup : u.plan = s.plan := by rw [hu]; rfl
  have hsearch : s.enterSearch l = State.searchRun l 5 u := by rw [State.enterSearch, State.modReloc_of_some hx hr, hu]
  have hstand : u.ownStanding l sp = s.ownStanding l sp := by
    rw [State.ownStanding, State.ownSlot_congr (s := s) (fun k => by simp only [State.ownEntry, hup])]
    simp only [State.ownEntry, hup]
    rfl
  have hask : u.askPlan l { x with reloc := some { r with phase := .search } } { r with phase := .search } =
      if u.owns.any (fun e => u.conflicts e.span sp) then .none else .span sp := by
    unfold State.askPlan State.pinCheck
    rw [if_pos hc]
    simp only [hsp, hup, ho, hstand, hh]
    rfl
  rw [hsearch]
  by_cases hown : (u.owns.any fun e => u.conflicts e.span sp) = true
  · rw [if_pos hown] at hask
    rw [State.searchRun_none hux rfl hask, Reloc.noWay, if_pos hc]
    exact ⟨u, _, rfl, hup, hux, _, rfl, hc⟩
  · rw [if_neg hown] at hask
    rw [State.searchRun_span hux rfl hask, State.modReloc_of_some hux rfl]
    obtain ⟨v, hv⟩ : ∃ v, v = u.setLink l { x with reloc := some (Reloc.claiming sp { r with phase := .search }) } := ⟨_, rfl⟩
    have hvl : v.link l = some { x with reloc := some (Reloc.claiming sp { r with phase := .search }) } := by
      rw [hv]
      exact State.link_setLink_self l _ u
    have hvs : v.plan = s.plan ∧ v.cfg = s.cfg ∧ v.phase = s.phase := by
      rw [hv, hu]
      exact ⟨rfl, rfl, rfl⟩
    obtain ⟨hvp, hvc, hva⟩ := hvs
    have hcls : v.effectiveClass l = s.effectiveClass l := by
      rw [hv, hu, State.setLink_setLink]
      exact State.effectiveClass_setLink (y := { x with reloc := some (Reloc.claiming sp { r with phase := .search }) }) hx rfl l
    have hrank : (v.newOwn l sp).rank v = (s.newOwn l sp).rank s := by
      simp only [OwnEntry.rank, State.newOwn, hcls, State.station_congr hvc]
    rw [← hv]
    have hans := State.claimStart_outranked (l := l) (sp := sp) (hva.trans ha) (by rw [hvp]; exact ho)
      (by rw [State.rivals_congr hvp hvc, hrank]; exact hriv)
    rw [State.claimAnswered_refused (r := { r with phase := .search }) hc hans]
    obtain ⟨d, hd⟩ := (State.claimStart_near (l := l) sp l v).some hvl
    refine ⟨_, _, rfl, ?_, hd, _, rfl, hc⟩
    rcases State.claimStart_cases l sp v with ⟨-, -, hp, -⟩ | ⟨hp, -⟩
    · exact hp.trans hvp
    · rw [hp] at hans
      rcases hans with h | h
      · cases h
      · cases h

end Sys2Proof.Machine
end

section
/-! SUPPORT. A claim that is lost to a stronger claim or hold, and its relocation (R68, R120 to R122). -/

namespace Sys2Proof.Machine

open Says

variable {l : Fin 8} {i j k : Fin 16} {e o : OwnEntry} {x y : LinkRec} {r : Reloc} {b : PlanBody} {isHold : Bool} {h n c : Nat}
  {p : BusPort} {sp z : Span} {rx : Rx} {a s t u v w : State}

/-! ## The loss -/

theorem State.hearLostRank_eq (hx : s.link l = some x) (hr : x.reloc = some r) (hp : r.phase = .claiming)
    (hc : r.cand = some sp) : s.hearLostRank l sp = if 4 ≤ r.attempts + 1 then
      (s.setLink l { x with reloc := some (r.lose sp) }).relocFail l r.noWay false
      else (s.setLink l { x with reloc := some (r.lose sp) }).enterSearch l := by
  simp only [State.hearLostRank, (State.reloc_eq hx).trans hr]
  rw [if_pos ⟨hp, hc⟩, State.modReloc_of_some hx hr]

/-- The claim's entry is yielded, and LSUP hears of the loss, in the table that the loss leaves (R68). -/
theorem Lone.loses {q : Biu} {m : Mgmt} (hl : Lone i e rx.origin.toNat b s) (hs : e.standing = .tentative)
    (hc : s.conflicts e.span b.span = true) (hw : (b.rank isHold rx.origin.toNat).outranks (e.rank s) = true)
    (ha : s.phase = .active) (hline : s.biu.LineRight) (hq : q.queue = s.biu.queue) (hn : q.nextAge = s.biu.nextAge)
    (hm : m.longTask = s.mgmt.longTask) :
    ∃ w, AsTable 1 (afterLoss isHold rx b i s) s w ∧ (s.biu.queue.length < 16 → Sticks e.link e.span s w) ∧
      State.planned isHold rx b { s with biu := q, mgmt := m } = w.hearLostRank e.link e.span := by
  obtain ⟨v, htab, hvb, -, hplan⟩ := hl.planned_tentative (isHold := isHold) (q := q) (m := m) hs hc hq hn hm
  have hve : v.ownEntry i = some e := (htab.own i).trans ((State.stored_own i s).trans hl.own)
  have htest : v.testTentative isHold rx.origin.toNat b (rx.bulletin (planKind isHold)).length i e =
      v.claimLost (rx.bulletin (planKind isHold)).length i e := by
    rw [State.testTentative, OwnEntry.rank_congr htab.cfg, hw]
    rfl
  have hrem := htab.removeOwn hve
  rw [hplan, htest]
  refine ⟨(v.removeOwn i).count .planConflictLost (some (rx.bulletin (planKind isHold)).length),
    hrem.count _ _, fun hq16 => ?_, rfl⟩
  obtain ⟨m, h1, h2, h3, h4⟩ := (State.offer_holds (s := v.setOwn i none) (o := e.yieldOffer)
    (State.takesOffers_of_active (htab.phase.trans ha)) (by
      show v.biu.queue.length < 16
      rw [hvb, hq]
      exact hq16)).1
  have hcfg : (v.setOwn i none).cfg = s.cfg := htab.cfg
  have hst : Sticks e.link e.span s (v.removeOwn i) := by
    refine Sticks.of_holds ⟨m, ?_, h2, h3, h4.trans (State.build_congr hcfg _ _)⟩ (hrem.line hline) hrem.cfg
    rw [State.removeOwn_of_some hve]
    exact h1
  exact hst.congr rfl rfl

/-- The own table after a loss: the others are as they were. -/
theorem afterLoss_own (isHold : Bool) (rx : Rx) (b : PlanBody) (i : Fin 16) (s : State) :
    (afterLoss isHold rx b i s).plan.own = s.plan.own.set i none ∧ (afterLoss isHold rx b i s).cfg = s.cfg := by
  have hf := (State.stored_frame isHold rx.origin.toNat b (7 + rx.body.length) s).1
  have hc : (s.storePeer isHold rx.origin.toNat b (7 + rx.body.length)).1.cfg = s.cfg := (congrArg State.cfg hf :)
  exact ⟨by rw [afterLoss, State.setOwn, storePeer_own_table], hc⟩

theorem afterLoss_self : (afterLoss isHold rx b i s).ownEntry i = none := by
  rw [State.ownEntry, (afterLoss_own isHold rx b i s).1]
  exact getFin_set_self _ _ _

theorem afterLoss_some (hj : (afterLoss isHold rx b i s).ownEntry j = some o) : j ≠ i ∧ s.ownEntry j = some o := by
  have hji : j ≠ i := by
    rintro rfl
    cases afterLoss_self.symm.trans hj
  rw [State.ownEntry, (afterLoss_own isHold rx b i s).1] at hj
  exact ⟨hji, (getFin_set_ne _ hji _).symm.trans hj⟩

/-! ## The relocation of a lost claim -/

/-- The state in which the relocation of a lost claim goes on. -/
structure Lost (e : OwnEntry) (x : LinkRec) (r : Reloc) (a s y : State) : Prop where
  plan  : y.plan = a.plan
  phase : y.phase = s.phase
  cfg   : y.cfg = s.cfg
  rport : y.rport = s.rport
  tally : y.tally = s.tally
  room  : y.biu.queue.length ≤ s.biu.queue.length + 1
  link  : ∃ d, y.link e.link = some { x with announcedBad := d, reloc := some (r.lose e.span) }
  lsup  : s.biu.queue.length < 16 → y.lsup = { s.lsup with
    links := s.lsup.links.set e.link (some { x with reloc := some (r.lose e.span) }) }
  yield : s.biu.queue.length < 16 → Sticks e.link e.span s y

theorem AsTable.lost {w : State} (h : AsTable 1 a s w) (hx : s.link e.link = some x) (hr : x.reloc = some r)
    (hp : r.phase = .claiming) (hc : r.cand = some e.span) (hst : s.biu.queue.length < 16 → Sticks e.link e.span s w) :
    ∃ y, Lost e x r a s y ∧ w.hearLostRank e.link e.span =
      if 4 ≤ r.attempts + 1 then y.relocFail e.link r.noWay false else y.enterSearch e.link := by
  obtain ⟨d, hd⟩ := h.link hx
  refine ⟨w.setLink e.link { x with announcedBad := d, reloc := some (r.lose e.span) }, ⟨h.plan, h.phase, h.cfg, h.rport, h.tally, h.room, ⟨d, State.link_setLink_self _ _ w⟩, fun hq => ?_,
    fun hq => (hst hq).congr rfl rfl⟩, State.hearLostRank_eq (x := { x with announcedBad := d }) hd hr hp hc⟩
  have hl := h.lsup (by omega)
  have hd' : w.link e.link = s.link e.link := by rw [State.link, hl]; rfl
  have hxd : ({ x with announcedBad := d } : LinkRec) = x := Option.some.inj (hd.symm.trans (hd'.trans hx))
  have hxr : ({ x with announcedBad := d, reloc := some (r.lose e.span) } : LinkRec) =
      { x with reloc := some (r.lose e.span) } := congrArg (fun z : LinkRec => { z with reloc := some (r.lose e.span) }) hxd
  rw [hxr, State.setLink, hl]

variable {y : State}

theorem Lost.yields (h : Lost e x r a s y) (hq : s.biu.queue.length < 16)
    (ht : After (if 4 ≤ r.attempts + 1 then y.relocFail e.link r.noWay false else y.enterSearch e.link) t) :
    waits true .planYield (Span.bytes e.span ++ [byte e.link]) s t := by
  have hst : Sticks e.link e.span s (if 4 ≤ r.attempts + 1 then y.relocFail e.link r.noWay false
      else y.enterSearch e.link) := by
    split
    · exact (h.yield hq).relocFail _ _ _
    · exact (h.yield hq).enterSearch _
  exact ht.waits (hst.holds.waits rfl rfl rfl fun _ he => he)

/-- While the replica is overfull the relocation waits (R121). -/
theorem Lost.waits (h : Lost e x r a s y) (hc : r.cand = some e.span) (ho : a.plan.overfull = true)
    (ht : After (y.enterSearch e.link) t) :
    t.plan.own = a.plan.own ∧
      (∃ z : LinkRec, t.lsup.links[e.link] = some z ∧ z.state = x.state ∧ z.current = x.current ∧
        z.reloc = some { r with
          phase := .waiting, attempts := r.attempts + 1, excluded := r.excluded ++ [e.span],
          cand := if r.cause = .taskPin then r.cand else none }) ∧
      (s.biu.queue.length < 16 → t.lsup = { s.lsup with
        links := s.lsup.links.set e.link (some { x with reloc := some { r with
          phase := .waiting, attempts := r.attempts + 1, excluded := r.excluded ++ [e.span],
          cand := if r.cause = .taskPin then r.cand else none } }) }) := by
  obtain ⟨d, hd⟩ := h.link
  have hfull := State.enterSearch_full hd rfl (by rw [h.plan]; exact ho)
    fun _ => (congrArg Option.isSome hc : (r.lose e.span).cand.isSome = true)
  rw [hfull] at ht
  refine ⟨?_, ⟨_, ht.link.trans (State.link_setLink_self _ _ y), rfl, rfl, rfl⟩, fun hq => ?_⟩
  · rw [ht.plan, ← h.plan]
    rfl
  · have hl := h.lsup hq
    have hxd : ({ x with announcedBad := d, reloc := some (r.lose e.span) } : LinkRec) =
        { x with reloc := some (r.lose e.span) } := by
      have hd' := hd
      rw [State.link, hl] at hd'
      exact Option.some.inj (hd'.symm.trans (getFin_set_self _ _ _))
    rw [ht.lsup, hxd, State.setLink, hl]
    simp only [Vector.set_set]
    rfl

theorem Lost.claims (h : Lost e x r a s y) (ha : s.phase = .active) (hac : a.cfg = s.cfg) (hx : s.link e.link = some x)
    (hc : r.cause ≠ .taskPin)
    (hs : a.searchStart x.desc x.pointer (r.excluded ++ [e.span]) = .span sp) (hk : a.emptyOwn = some k)
    (hmine : ∀ (j : Fin 16) (o : OwnEntry), a.ownEntry j = some o → o.link = e.link → o.standing ≠ .tentative)
    (hone : a.ownsOne e.link) (ht : After (y.enterSearch e.link) t) :
    claimStands k e.link sp s t ∧ (∀ j : Fin 16, j ≠ k → t.plan.own[j] = a.plan.own[j]) ∧
      (∃ z : LinkRec, t.lsup.links[e.link] = some z ∧ z.state = x.state ∧ z.current = x.current ∧
        z.reloc = some { r with phase := .claiming, cand := some sp, attempts := r.attempts + 1,
                                excluded := r.excluded ++ [e.span] }) ∧
      (s.biu.queue.length < 15 → Says.waits true .planClaim (claimBody e.link sp s) s t) := by
  obtain ⟨d, hd⟩ := h.link
  have hyo (j : Fin 16) : y.ownEntry j = a.ownEntry j := by
    rw [State.ownEntry, h.plan]
    rfl
  have hsd := State.enterSearch_claims (k := k) (sp := sp) hd rfl (h.phase.trans ha) hc
    ((State.searchStart_congr h.plan (h.cfg.trans hac.symm) _ _ _).trans hs)
    (fun j o hj => hmine j o ((hyo j).symm.trans hj))
    (State.ownsOne.length fun j k o p ho hp => hone j k o p ((hyo j).symm.trans ho) ((hyo k).symm.trans hp))
    ((State.emptyOwn_congr h.plan).trans hk)
  obtain ⟨q, hp, q1, q2, q3, q4, q5, q6⟩ := hsd.plan
  obtain ⟨g, hg⟩ := hsd.link
  have himg : y.image = s.image := State.image_congr h.cfg
  have hcls : y.effectiveClass e.link = s.effectiveClass e.link := by
    simp only [State.effectiveClass, hd, hx, h.tally]
  refine ⟨⟨q, ?_, q1, q2, q3.trans hcls, q4, by rw [q5, himg], q6⟩, fun j hj => ?_,
    ⟨_, ht.link.trans hg, rfl, rfl, rfl⟩, fun hq => ?_⟩
  · rw [ht.plan, hp]
    exact getFin_set_self _ _ _
  · rw [ht.plan, hp, ← h.plan]
    exact getFin_set_ne _ hj _
  · have hroom := h.room
    refine ht.waits ((hsd.holds (by omega)).waits rfl ?_ (State.station_congr h.cfg) fun e he => he)
    simp only [claimOffer, OwnEntry.announce, State.newOwn, claimBody, hcls, himg]

/-- A relocation that fails from a state in which a slot is empty. -/
theorem relocFail_after {c : State} {w : LinkRec} {why : FailCause} (hl : c.link l = some w) (hr : w.reloc = some r)
    (hi : c.ownEntry i = none) (ht : After (c.relocFail l why false) t) :
    t.plan.own[i] = none ∧ ∃ z : LinkRec, t.lsup.links[l] = some z ∧ z.reloc = none ∧
      z.lastOutcome = some (r.cause, .failed why) := by
  obtain ⟨z, hz, hz1, hz2⟩ := State.relocFail_ended why false hl hr
  exact ⟨(ht.own i).trans (State.relocFail_own_none hi), z, ht.link.trans hz, hz1, hz2⟩

theorem Lost.fails (h : Lost e x r a s y) (hac : a.cfg = s.cfg) (hc : r.cause ≠ .taskPin)
    (hs : a.searchStart x.desc x.pointer (r.excluded ++ [e.span]) = .none) (hi : a.ownEntry i = none)
    (ht : After (y.enterSearch e.link) t) :
    t.plan.own[i] = none ∧ ∃ z : LinkRec, t.lsup.links[e.link] = some z ∧ z.reloc = none ∧
      z.lastOutcome = some (r.cause, .failed .noCandidate) := by
  obtain ⟨d, hd⟩ := h.link
  rw [State.enterSearch_none hd rfl hc ((State.searchStart_congr h.plan (h.cfg.trans hac.symm) _ _ _).trans hs)] at ht
  have hyi : y.ownEntry i = none := by
    rw [State.ownEntry, h.plan]
    exact hi
  exact relocFail_after (r := { r.lose e.span with phase := .search }) (State.link_setLink_self _ _ y) rfl hyi ht

theorem Lost.gives_up (h : Lost e x r a s y) (hi : a.ownEntry i = none)
    (ht : After (y.relocFail e.link r.noWay false) t) :
    t.plan.own[i] = none ∧ ∃ z : LinkRec, t.lsup.links[e.link] = some z ∧ z.reloc = none ∧
      z.lastOutcome = some (r.cause, .failed (if r.cause = .taskPin then .refused else .noCandidate)) := by
  obtain ⟨d, hd⟩ := h.link
  have hyi : y.ownEntry i = none := by
    rw [State.ownEntry, h.plan]
    exact hi
  exact relocFail_after (r := r.lose e.span) hd rfl hyi ht

end Sys2Proof.Machine
end

section
/-! SUPPORT. A TENTATIVE entry and a stronger claim or hold that conflicts with it (R68, R120 to R122). -/

namespace Sys2Proof.Machine

open Says

variable {l : Fin 8} {i j k : Fin 16} {e o : OwnEntry} {x : LinkRec} {r : Reloc} {b : PlanBody} {isHold : Bool}
  {p : BusPort} {sp : Span} {rx : Rx} {a s t u v w y : State}

/-- A pin whose claim is lost is refused, the stronger claim being in the replica (R120, R122). -/
theorem Lost.refused (h : Lost e x r (afterLoss isHold rx b i s) s y) (ha : s.phase = .active) (hx : s.link e.link = some x)
    (hc : r.cause = .taskPin) (hcand : r.cand = some e.span) (hov : (afterLoss isHold rx b i s).plan.overfull = false)
    (hs : e.standing = .tentative) (hcls : s.effectiveClass e.link = e.cls)
    (hconf : s.conflicts e.span b.span = true) (hw : (b.rank isHold rx.origin.toNat).outranks (e.rank s) = true)
    (ho : ∀ (j : Fin 16) (o : OwnEntry), j ≠ i → s.ownEntry j = some o → apart s o rx b)
    (ht : After (y.enterSearch e.link) t) :
    t.plan.own[i] = none ∧ ∃ z : LinkRec, t.lsup.links[e.link] = some z ∧ z.reloc = none ∧
      z.lastOutcome = some (.taskPin, .failed .refused) := by
  obtain ⟨d, hd⟩ := h.link
  have hyc : y.effectiveClass e.link = e.cls := by
    rw [← hcls]
    simp only [State.effectiveClass, hd, hx, h.tally]
  have hstand : y.ownStanding e.link e.span ≠ some .held := by
    intro hst
    unfold State.ownStanding at hst
    obtain ⟨j, hj, -⟩ := Option.bind_eq_some_iff.1 hst
    have hfind := List.find?_some hj
    cases hyj : y.ownEntry j with
    | none =>
      rw [hyj] at hfind
      cases hfind
    | some o =>
      rw [hyj] at hfind
      simp only [Bool.and_eq_true, beq_iff_eq] at hfind
      have haj : (afterLoss isHold rx b i s).ownEntry j = some o := by
        rw [State.ownEntry, ← h.plan]
        exact hyj
      obtain ⟨hji, hso⟩ := afterLoss_some haj
      obtain ⟨hno, -⟩ := ho j o hji hso
      rw [hfind.2, hconf] at hno
      cases hno
  have hriv : ((y.rivals e.span).any fun p => p.rank.outranks ((y.newOwn e.link e.span).rank y)) = true := by
    obtain ⟨p, hp, hps⟩ := State.storePeer_stands (isHold := isHold) (h := rx.origin.toNat) (b := b) (n := 7 + rx.body.length)
      (s := s) hov
    have hrank : (y.newOwn e.link e.span).rank y = e.rank s := by
      simp only [OwnEntry.rank, State.newOwn, hyc, State.station_congr h.cfg, hs]
    have hpy : p ∈ y.peers := by
      rw [State.peers, h.plan]
      exact hp
    have hspan : p.span = b.span := hps.1
    rw [List.any_eq_true]
    refine ⟨p, List.mem_filter.2 ⟨hpy, ?_⟩, ?_⟩
    · rw [State.conflicts_congr h.cfg, State.conflicts_comm, hspan]
      exact hconf
    · rw [hrank]
      exact hps.outranks (by simp [OwnEntry.rank, hs]) hw
  obtain ⟨c, q, hc1, hc2, hc3, r', hr', hcr⟩ := State.enterSearch_refused (r := r.lose e.span) (sp := e.span) hd rfl hc hcand
    (h.phase.trans ha) (by rw [h.plan]; exact hov) hstand hriv
  rw [hc1] at ht
  have hci : c.ownEntry i = none := by
    rw [State.ownEntry, hc2, h.plan]
    exact afterLoss_self
  rw [← hcr]
  exact relocFail_after hc3 hr' hci ht

/-- A TENTATIVE entry is the only one of its link: the table that its loss leaves has one entry of the link at most, not
TENTATIVE. -/
theorem afterLoss_one (hlaw : s.OwnLaw) (he : s.ownEntry i = some e) (hs : e.standing = .tentative) :
    (afterLoss isHold rx b i s).ownsOne e.link ∧ ∀ (j : Fin 16) (o : OwnEntry),
      (afterLoss isHold rx b i s).ownEntry j = some o → o.link = e.link → o.standing ≠ .tentative := by
  obtain ⟨htwo, hone, -⟩ := hlaw
  refine ⟨fun j k o q hj hk hol hql => ?_, fun j o hj hol hot => ?_⟩
  · obtain ⟨hji, hj⟩ := afterLoss_some hj
    obtain ⟨hki, hk⟩ := afterLoss_some hk
    rcases htwo i j k e o q he hj hk hol.symm (hol.trans hql.symm) with h | h | h
    · exact absurd h.symm hji
    · exact h
    · exact absurd h.symm hki
  · obtain ⟨hji, hj⟩ := afterLoss_some hj
    exact hji (hone i j e o he hj hol.symm (hs.trans hot.symm) (.inl hs)).symm

theorem tentative_lost (hinv : s.Inv) (hr : received p rx s) (hb : readPlanBody rx.body = some b)
    (he : s.ownEntry i = some e) (hs : e.standing = .tentative) (hc : s.conflicts e.span b.span = true)
    (ho : ∀ (j : Fin 16) (o : OwnEntry), j ≠ i → s.ownEntry j = some o → apart s o rx b)
    (hst : (rx.origin.toNat, b.link) ∉ e.pendingYield ∨ (s.peerSlot rx.origin.toNat b.link b.span).isSome = true)
    (hw : (b.rank isHold rx.origin.toNat).outranks (e.rank s) = true) (hx : s.link e.link = some x) (hrel : x.reloc = some r)
    (hph : r.phase = .claiming) (hcand : r.cand = some e.span) :
    ∃ t : State, exec (if isHold then .planHold p rx else .planClaim p rx) s = .next t ∧ stationKept s t ∧
      t.now = s.now ∧
      (s.biu.queue.length < 16 → waits true .planYield (Span.bytes e.span ++ [byte e.link]) s t) ∧
      ((afterLoss isHold rx b i s).plan.overfull = true → r.attempts + 1 < 4 →
        t.plan.own = s.plan.own.set i none ∧
        (∃ z : LinkRec, t.lsup.links[e.link] = some z ∧ z.state = x.state ∧ z.current = x.current ∧
          z.reloc = some { r with
            phase := .waiting, attempts := r.attempts + 1, excluded := r.excluded ++ [e.span],
            cand := if r.cause = .taskPin then r.cand else none }) ∧
        (s.biu.queue.length < 16 → t.lsup = { s.lsup with
          links := s.lsup.links.set e.link (some { x with reloc := some { r with
            phase := .waiting, attempts := r.attempts + 1, excluded := r.excluded ++ [e.span],
            cand := if r.cause = .taskPin then r.cand else none } }) })) ∧
      (r.attempts + 1 < 4 → r.cause ≠ .taskPin →
        (∀ (sp : Span) (k : Fin 16),
          (afterLoss isHold rx b i s).searchStart x.desc x.pointer (r.excluded ++ [e.span]) = .span sp →
          (afterLoss isHold rx b i s).emptyOwn = some k →
          claimStands k e.link sp s t ∧
          (∀ j : Fin 16, j ≠ k → t.plan.own[j] = (afterLoss isHold rx b i s).plan.own[j]) ∧
          (∃ z : LinkRec, t.lsup.links[e.link] = some z ∧ z.state = x.state ∧ z.current = x.current ∧
            z.reloc = some { r with phase := .claiming, cand := some sp, attempts := r.attempts + 1,
                                    excluded := r.excluded ++ [e.span] }) ∧
          (s.biu.queue.length < 15 → waits true .planClaim (claimBody e.link sp s) s t)) ∧
        ((afterLoss isHold rx b i s).searchStart x.desc x.pointer (r.excluded ++ [e.span]) = .none →
          t.plan.own[i] = none ∧ ∃ z : LinkRec, t.lsup.links[e.link] = some z ∧ z.reloc = none ∧
            z.lastOutcome = some (r.cause, .failed .noCandidate))) ∧
      (r.attempts + 1 < 4 → r.cause = .taskPin → (afterLoss isHold rx b i s).plan.overfull = false →
        s.effectiveClass e.link = e.cls →
        t.plan.own[i] = none ∧ ∃ z : LinkRec, t.lsup.links[e.link] = some z ∧ z.reloc = none ∧
          z.lastOutcome = some (.taskPin, .failed .refused)) ∧
      (4 ≤ r.attempts + 1 → t.plan.own[i] = none ∧ ∃ z : LinkRec, t.lsup.links[e.link] = some z ∧ z.reloc = none ∧
        z.lastOutcome = some (r.cause, .failed (if r.cause = .taskPin then .refused else .noCandidate))) := by
  obtain ⟨q, m, t, hm, hex, ht⟩ := exec_planned isHold hr hb
  have ha := hinv.active_of_own he
  obtain ⟨w, htab, hstick, hplan⟩ := (Lone.of_apart he ho hst).loses (isHold := isHold) (q := q) (m := m) hs hc hw ha hinv.line
    hm.arrived.queue hm.arrived.nextAge hm.arrived.longTask
  have hstat := State.planned_station isHold rx b { s with biu := q, mgmt := m }
  obtain ⟨y, hlost, hhear⟩ := htab.lost hx hrel hph hcand hstick
  obtain ⟨haown, hac⟩ := afterLoss_own isHold rx b i s
  obtain ⟨hone, hmine⟩ := afterLoss_one (isHold := isHold) (rx := rx) (b := b) hinv.ownLaw he hs
  rw [hplan, hhear] at ht hstat
  refine ⟨t, hex, (hm.arrived.stationKept.trans hstat.1).trans ht.station, ht.now.trans hstat.2,
    fun hq => hlost.yields hq ht, fun hov hlt => ?_, fun hlt hpin => ?_, fun hlt hpin hov hcls => ?_, fun hge => ?_⟩
  · rw [if_neg (by omega)] at ht
    rw [← haown]
    exact hlost.waits hcand hov ht
  · rw [if_neg (by omega)] at ht
    exact ⟨fun sp k hsp hk => hlost.claims ha hac hx hpin hsp hk hmine hone ht,
      fun hn => hlost.fails hac hpin hn afterLoss_self ht⟩
  · rw [if_neg (by omega)] at ht
    exact hlost.refused ha hx hpin hcand hov hs hcls hc hw ho ht
  · rw [if_pos hge] at ht
    exact hlost.gives_up afterLoss_self ht

end Sys2Proof.Machine
end

section
/-! The station's own entries and what other stations say of their spans (R68 to R72, R75, R79, R83). -/

namespace Sys2Proof.Machine

open Says

variable {i j : Fin 16} {e o : OwnEntry} {x : LinkRec} {r : Reloc} {p : BusPort} {rx : Rx} {sp : Span} {h link : Nat}
  {pair : Nat × Nat} {s t u v : State}

/-! ## A pair yields (R71) -/

/-- A slot's part in a yield of a pair. -/
def State.pairYieldedAt (holder link : Nat) (sp : Span) (i : Fin 16) (s : State) : State × List PlanNews :=
  match s.ownEntry i with
  | some e => if e.waitsFor (holder, link) && s.conflicts e.span sp then s.dropPair (holder, link) i else (s, [])
  | none => (s, [])

theorem State.pairYielded_eq (holder link : Nat) (sp : Span) (s : State) :
    s.pairYielded holder link sp = s.overOwns (State.pairYieldedAt holder link sp) := rfl

theorem State.pairYieldedAt_idle (hw : ∀ e, s.ownEntry i = some e → (h, link) ∉ e.pendingYield) :
    s.pairYieldedAt h link sp i = (s, []) := by
  unfold State.pairYieldedAt
  split
  · rename_i e he
    rw [OwnEntry.waitsFor_not_mem (hw e he)]
    rfl
  · rfl

theorem State.becomeHeld_ne (hj : j ≠ i) (s : State) : (s.becomeHeld i).1.ownEntry j = s.ownEntry j := by
  unfold State.becomeHeld
  split
  · rfl
  · dsimp only
    rw [State.modOwn_ne hj, State.announceHold_ne hj, State.ownEntry_setOwn_ne hj]

theorem State.dropPair_ne (hj : j ≠ i) (s : State) : (s.dropPair pair i).1.ownEntry j = s.ownEntry j := by
  unfold State.dropPair
  split
  · rfl
  · dsimp only
    split
    · rw [State.becomeHeld_ne hj, State.ownEntry_setOwn_ne hj]
    · exact State.ownEntry_setOwn_ne hj _ s

theorem State.removePeer_frame (h link : Nat) (sp : Span) (s : State) : s.removePeer h link sp = { s with
    plan := { s.plan with peers := (s.removePeer h link sp).plan.peers } } := by
  unfold State.removePeer
  split <;> rfl

/-- A yield of a pair that one own entry alone waits for. -/
theorem State.planYielded_single (he : s.ownEntry i = some e) (hs : e.standing = .tentative)
    (hc : s.conflicts e.span sp = true) (hm : (h, link) ∈ e.pendingYield)
    (ho : ∀ (j : Fin 16) (o : OwnEntry), j ≠ i → s.ownEntry j = some o → (h, link) ∉ o.pendingYield) :
    s.planYielded h link sp = (s.removePeer h link sp).dropPair (h, link) i := by
  have hf := State.removePeer_frame h link sp s
  have hown (j : Fin 16) : (s.removePeer h link sp).ownEntry j = s.ownEntry j := by rw [hf]; rfl
  have hcfg : (s.removePeer h link sp).cfg = s.cfg := by rw [hf]
  rw [State.planYielded]
  generalize s.removePeer h link sp = v at hown hcfg
  have hat : v.pairYieldedAt h link sp i = v.dropPair (h, link) i := by
    simp only [State.pairYieldedAt, hown, he, State.conflicts_congr hcfg, hc]
    simp [OwnEntry.waitsFor, hs, hm]
  rw [State.pairYielded_eq, State.overOwns_single i
    (fun j hj => State.pairYieldedAt_idle fun o hoj => ho j o hj ((hown j).symm.trans hoj))
    (fun j hj => State.pairYieldedAt_idle fun o hoj => ho j o hj ?_), hat]
  rw [hat, State.dropPair_ne hj, hown] at hoj
  exact hoj

theorem State.dropPair_waits (he : s.ownEntry i = some e) (hw : ¬(e.pendingYield.filter (fun y => y != pair) = [] ∧
    e.allowance.isSome = true)) :
    s.dropPair pair i = (s.setOwn i (some { e with pendingYield := e.pendingYield.filter fun y => y != pair }), []) := by
  simp only [State.dropPair, he]
  rw [if_neg hw]

theorem State.dropPair_held (he : s.ownEntry i = some e) (hp : e.pendingYield.filter (fun y => y != pair) = [])
    (ha : e.allowance.isSome = true) :
    s.dropPair pair i = (s.setOwn i (some { e with pendingYield := [] })).becomeHeld i := by
  simp only [State.dropPair, he]
  rw [if_pos ⟨hp, ha⟩, hp]

theorem exec_yield (hr : received p rx s) (hb : readYieldBody rx.body = some (sp, link)) :
    ∃ (x : Biu) (m : Mgmt) (t : State), Met p (rx.bulletin .planYield) s { s with biu := x, mgmt := m } ∧
      exec (.planYield p rx) s = .next t ∧
      After (State.withNews (State.planYielded rx.origin.toNat link sp { s with biu := x, mgmt := m })) t := by
  obtain ⟨x, m, t, hm, he, ht⟩ := exec_block (arrives_arrival .planYield p rx) hr
  refine ⟨x, m, t, hm, he, ?_⟩
  simpa [State.deliver, Rx.bulletin, hb] using ht

theorem yield_waits (hr : received p rx s) (hb : readYieldBody rx.body = some (sp, link)) (he : s.ownEntry i = some e)
    (hs : e.standing = .tentative) (hc : s.conflicts e.span sp = true) (hm : (rx.origin.toNat, link) ∈ e.pendingYield)
    (ho : ∀ (j : Fin 16) (o : OwnEntry), j ≠ i → s.ownEntry j = some o → (rx.origin.toNat, link) ∉ o.pendingYield)
    (hw : e.allowance = none ∨ ∃ y ∈ e.pendingYield, y ≠ (rx.origin.toNat, link)) :
    ∃ t : State, exec (.planYield p rx) s = .next t ∧ stationKept s t ∧ t.now = s.now ∧ t.lsup = s.lsup ∧
      t.plan.own = s.plan.own.set i (some { e with
        pendingYield := e.pendingYield.filter fun y => y != (rx.origin.toNat, link) }) := by
  obtain ⟨q, m, t, harr, hex, ht⟩ := exec_yield hr hb
  have hf := State.removePeer_frame rx.origin.toNat link sp { s with biu := q, mgmt := m }
  rw [State.planYielded_single (s := { s with biu := q, mgmt := m }) he hs hc hm ho] at ht
  generalize State.removePeer rx.origin.toNat link sp { s with biu := q, mgmt := m } = v at hf ht
  have hve : v.ownEntry i = some e := by
    rw [hf]
    exact he
  rw [State.dropPair_waits hve fun hh => ?_] at ht
  · refine ⟨t, hex, stationKept.trans (t := v) ?_ ht.station, ?_, ?_, ?_⟩
    · rw [hf]
      exact ⟨rfl, rfl, rfl, rfl, rfl, rfl⟩
    · refine ht.now.trans ?_
      show v.now = _
      rw [hf]
    · refine ht.lsup.trans ?_
      show v.lsup = _
      rw [hf]
    · rw [ht.plan]
      show v.plan.own.set i _ = _
      rw [hf]
  · obtain ⟨h1, h2⟩ := hh
    rcases hw with hw | ⟨y, hy, hne⟩
    · rw [hw] at h2
      cases h2
    · have := List.filter_eq_nil_iff.1 h1 y hy
      simp [hne] at this

theorem yield_holds (hr : received p rx s) (hb : readYieldBody rx.body = some (sp, link)) (ha : s.phase = .active)
    (he : s.ownEntry i = some e) (hs : e.standing = .tentative) (hc : s.conflicts e.span sp = true)
    (hm : (rx.origin.toNat, link) ∈ e.pendingYield)
    (ho : ∀ (j : Fin 16) (o : OwnEntry), j ≠ i → s.ownEntry j = some o → (rx.origin.toNat, link) ∉ o.pendingYield)
    (hal : e.allowance.isSome = true) (hall : ∀ y ∈ e.pendingYield, y = (rx.origin.toNat, link))
    (hx : s.link e.link = some x) (hrel : x.reloc = some r) (hph : r.phase = .claiming) (hcand : r.cand = some e.span)
    (hfl : x.tuneInFlight = false)
    (hfe : s.rport.fe[x.desc.frontEnd].state = .muted ∨ ∃ sp, s.rport.fe[x.desc.frontEnd].state = .tuned sp) :
    ∃ t : State, exec (.planYield p rx) s = .next t ∧ heldAndTuned i e x r s.now s t := by
  obtain ⟨q, m, t, harr, hex, ht⟩ := exec_yield hr hb
  have hf := State.removePeer_frame rx.origin.toNat link sp { s with biu := q, mgmt := m }
  rw [State.planYielded_single (s := { s with biu := q, mgmt := m }) he hs hc hm ho] at ht
  generalize State.removePeer rx.origin.toNat link sp { s with biu := q, mgmt := m } = v at hf ht
  have hve : v.ownEntry i = some e := by
    rw [hf]
    exact he
  have hnil : e.pendingYield.filter (fun y => y != (rx.origin.toNat, link)) = [] :=
    List.filter_eq_nil_iff.2 fun y hy => by simp [hall y hy]
  rw [State.dropPair_held hve hnil hal] at ht
  have hbefore : Before i { e with pendingYield := [] } s.now s (v.setOwn i (some { e with pendingYield := [] })) := by
    refine ⟨?_, ?_, ha, State.ownEntry_setOwn_self _ _ _, fun j hj => ?_, ?_, ?_, ?_, ?_, ?_⟩
    · refine stationKept.trans (t := v) ?_ ⟨rfl, rfl, rfl, rfl, rfl, rfl⟩
      rw [hf]
      exact ⟨rfl, rfl, rfl, rfl, rfl, rfl⟩
    · show v.now = _
      rw [hf, max_self]
    · refine (State.ownEntry_setOwn_ne hj _ v).trans ?_
      rw [hf]
      rfl
    · show v.lsup = _
      rw [hf]
    · show v.rport = _
      rw [hf]
    · show v.tally = _
      rw [hf]
    · show v.tbk = _
      rw [hf]
    · show v.biu.queue = _
      rw [hf]
      exact harr.arrived.queue
  exact ⟨t, hex, (hbefore.heldAndTuned (x := x) (r := r) hx hrel hph hcand hfl hfe ht).1⟩

/-- Settles O28: the station's own entries and the claims, holds and yields of other stations. -/
theorem ownEntriesMeetClaimsAndHolds : Obligations.OwnEntriesMeetClaimsAndHolds := by
  refine ⟨fun isHold p rx b i e s hinv hr hb he hs hc hy => ⟨fun hw hl hx => held_preempted hinv hr hb he hs hc hy hw hl hx,
      fun x hw hx hrel hcur hpin hne ho => held_relocated hinv hr hb he hs hc hy hw hx hrel hcur hpin hne ho, fun hw => ?_⟩,
    fun isHold p rx b i e s hinv hr hb he hs hc ho hst => ⟨fun x r hw hx hrel hph hcand =>
      tentative_lost hinv hr hb he hs hc ho hst hw hx hrel hph hcand,
      fun hw => tentative_withstands hinv hr hb he hs hc ho hst hw⟩,
    fun p rx sp link i e s hr hb ha he hs hc hm ho => ⟨fun hw => yield_waits hr hb he hs hc hm ho hw,
      fun x r hal hall hx hrel hph hcand hfl hfe => yield_holds hr hb ha he hs hc hm ho hal hall hx hrel hph hcand hfl hfe⟩⟩
  obtain ⟨t, hex, a, ha, ⟨h1, h2, h3, h4, h5, h6⟩, h7⟩ := held_defended hinv hr hb he hs hc hy hw
  exact ⟨t, hex, a, ha, h1, h2, h3, h4, h5, h6, h7⟩

end Sys2Proof.Machine
end
